-- ==== Sys2Proof/Word.lean ====
section
/-! DEFINITION. The byte, the byte string and the widths every other file uses. -/

namespace Sys2Proof

/-- One byte of a register, a record, host memory or the session range. -/
abbrev Byte := BitVec 8

/-- A byte string, lowest address first. -/
abbrev Bytes := List Byte

/-- 2^64: identifiers, addresses and counters are held as natural numbers below it (R7, R11). -/
def two64 : Nat := 18446744073709551616

/-- Where a counter saturates (R11). -/
def counterMax : Nat := 18446744073709551615

end Sys2Proof
end

