-- ==== Sys2Proof/Syntax.lean ====
section
/-! DEFINITION. The commands of the block: one constructor of Instr for each row of
spec/opcode_table.json, with what the row takes from outside the device as its operands
(fields of an entry or a message, the bytes a read of host memory returns, measured values). -/

namespace Sys2Proof

/-- The interface a register access comes through: a host slot's BAR0 (R83) or one of the two
interfaces of the management mailbox (R666). -/
inductive Via where
  | slot (n : Nat)
  | sideband
  | ethernet
  deriving DecidableEq, Repr

/-- The port a timing message arrives on (R43, R44). -/
inductive SyncSrc where
  | ethernet
  | port (p : Nat)
  deriving DecidableEq, Repr

/-- A Sync message or fabric timing message with the offset that is measured from it (R44, R47).
`management` and `authTlv` mark the messages that the device ignores or does not support (R45). -/
structure SyncMsg where
  src : SyncSrc
  domain : Nat
  management : Bool
  authTlv : Bool
  offset : Int
  deriving DecidableEq, Repr

/-- The directory key of a session (R123). -/
structure SessKey where
  ns : Nat
  sid : Nat
  deriving DecidableEq, Repr

/-- A tick plan entry (R65). -/
structure PlanEntry where
  offset : Nat
  action : Nat
  unitClass : Nat
  first : Nat
  last : Nat
  arg : Nat
  deriving DecidableEq, Repr

/-- A queue or ring kind, encoded in DOORBELL_INVALID and QUEUE_FAULT as R110 gives. -/
inductive QueueKind where
  | sq
  | cq
  | stream
  | event
  deriving DecidableEq, Repr

/-- A queue or ring of a slot. -/
structure QueueRef where
  kind : QueueKind
  id : Nat
  deriving DecidableEq, Repr

/-- A submission entry (R95) with the slot and the SQ it came from. `resv` is bytes 6-7 and `stepHi`
bits [63:48] of the STEP word, both reserved. `arg` is bytes 48-63. `dataA` and `dataB` are the bytes
that the device's reads of host memory at ADDR_A and ADDR_B return. -/
structure HostCmd where
  slot : Nat
  sq : Nat
  opcode : Nat
  flags : Nat
  cid : Nat
  ns : Nat
  resv : Nat
  sid : Nat
  step : Nat
  stepHi : Nat
  addrA : Nat
  addrB : Nat
  lenA : Nat
  lenB : Nat
  arg : Bytes
  dataA : Bytes
  dataB : Bytes
  deriving DecidableEq, Repr

/-- An image with its 64-byte header as read (R594): MAGIC, kind, SVN, body length and digest of the header, and the body;
`sigOk` says whether the HSS signature over header and
body verifies under the parameter sets of R595. -/
structure ImageFile where
  magic : Nat
  kind : Nat
  svn : Nat
  length : Nat
  digest : Bytes
  body : Bytes
  sigOk : Bool
  deriving DecidableEq, Repr

/-- A forwarded command at control endpoint 0x0001 (R123, R125): the sender and its TAG, the issuing
slot's partition, the command with its inputs, and the inbox snapshot it carries. -/
structure Forwarded where
  src : Nat
  tag : Nat
  part : Nat
  cmd : HostCmd
  inbox : Bytes
  deriving DecidableEq, Repr

/-- Kinds of loaded data at control endpoint 0x0008 (R277, R313, R314). -/
inductive LoadKind where
  | vocab
  | grammar
  | stopset
  | bias
  deriving DecidableEq, Repr

/-- An object that the Stairwell moves: a KV page by PAGE_ID or a range granule (R346). -/
inductive ObjRef where
  | page (id : Nat)
  | granule (part idx : Nat)
  deriving DecidableEq, Repr

/-- A fabric transaction: the header of R402 and its payload. `resv` is true when a reserved bit of the
header is set. -/
structure FabTxn where
  op : Nat
  tc : Nat
  hops : Nat
  src : Nat
  dst : Nat
  keySlot : Nat
  status : Nat
  tag : Nat
  len : Nat
  addr : Nat
  arg : Nat
  resv : Bool
  payload : Bytes
  deriving DecidableEq, Repr

/-- A reassembled frame (R432): the fabric key slot of its first flit, whether its GCM tag verifies
(R445, R447), and the transaction it holds. -/
structure Frame where
  keySlot : Nat
  tagOk : Bool
  txn : FabTxn
  deriving DecidableEq, Repr

/-- A flit as received (R432). `fecOk` is false when a codeword it lies in cannot be corrected, and
`corrected` counts the symbols corrected in its codewords (R433); `crcOk` is its CRC check. `bytes` is PAYLOAD. -/
structure Flit where
  fecOk : Bool
  corrected : Nat
  seq : Nat
  ack : Nat
  tc : Nat
  first : Bool
  last : Bool
  keySlot : Nat
  lastBytes : Nat
  crcOk : Bool
  bytes : Bytes
  deriving DecidableEq, Repr

/-- What a TRAIN flit carries (R437 step 5, R444): the peer's module, port and key slots, its salt,
whether it answers disabled, and whether it marks a calibration boundary. -/
structure TrainInfo where
  peerModule : Nat
  peerPort : Nat
  keySlot : Nat
  keyNext : Nat
  salt : Nat
  disabled : Bool
  boundary : Bool
  deriving DecidableEq, Repr

/-- What the recovery steps of R484 find for one chunk: corrected bits and success of the hard decode,
the shifted reads taken and their success, and the success of each later step. -/
structure FlashRead where
  corrBits : Nat
  hardOk : Bool
  retries : Nat
  retryOk : Bool
  softOk : Bool
  parityOk : Bool
  remoteOk : Bool
  deriving DecidableEq, Repr

/-- A capture announcement (R521). -/
structure CaptureMsg where
  model : Nat
  ckptId : Nat
  tick : Nat
  store : Nat
  full : Bool
  baseWeights : Bool
  part : Nat
  regions : List Nat
  deriving DecidableEq, Repr

/-- A forwarded CKPT_RESTORE (R532). -/
structure RestoreMsg where
  model : Nat
  store : Nat
  ckptId : Nat
  latest : Nat
  part : Nat
  deriving DecidableEq, Repr

/-- The engines of a Gallery (R556). -/
inductive Engine where
  | matrix
  | vector
  | attention
  deriving DecidableEq, Repr

/-- What an ECC check finds (R331, R620). -/
inductive EccFind where
  | clean
  | corrected
  | uncorrectable
  deriving DecidableEq, Repr


/-- One command per row of spec/opcode_table.json. -/
inductive Instr where
  /-- TIME_NOW_NS_READ (R41): A read of TIME_NOW_NS returns the counter and latches TIME_NOW_FRAC from the same instant. -/
  | timeNowNsRead (via : Via)
  /-- TIME_SRC_WRITE (R47): A write of 0-3 to TIME_SRC selects the source, moves the servo to FREE_RUN and completes a waiting EDGE TIME_SET with INVALID_FIELD; a reserved value is refused and TIME_WRITE_STATUS reads 1. -/
  | timeSrcWrite (via : Via) (word : Nat)
  /-- PTP_SYNC_RX (R44): A PTP Sync message or fabric timing message is received; the offset is measured and the servo is updated. -/
  | ptpSyncRx (msg : SyncMsg)
  /-- PTP_DELAY_RESP_RX (R44): A delay or peer-delay response is received and the path delay is measured. -/
  | ptpDelayRespRx (src : SyncSrc) (delay : Nat)
  /-- SYNC_TIMEOUT (R47): No valid sync arrives for 3 sync intervals and a LOCKED servo enters HOLDOVER. -/
  | syncTimeout
  /-- HOLDOVER_EXPIRE (R48): The holdover bound exceeds TIME_ALIGN_TOL / 2 and the servo enters HOLDOVER_EXPIRED. -/
  | holdoverExpire
  /-- PPS_IN_EDGE (R43): A PPS_IN rising edge arrives; it gives the phase for source 3 and applies a waiting TIME_SET with EDGE set. -/
  | ppsInEdge (offset : Int)
  /-- CLK10M_VALIDITY_CHANGE (R674): CLK10M_IN becomes valid or invalid, and the holdover bound in use changes with it. -/
  | clk10mValidityChange (valid : Bool)
  /-- PPS_OUT_EDGE (R46): The counter reaches a whole second and PPS_OUT rises. -/
  | ppsOutEdge
  /-- TIME_SET (R75): The ADMIN command sets the counter at once, or at the next PPS edge, as a step correction. -/
  | timeSet (c : HostCmd)
  /-- TICK_EPOCH_WRITE (R50): A write of TICK_EPOCH is checked for a multiple of 1,000 ns; an accepted write while ticks run is a grid change. -/
  | tickEpochWrite (via : Via) (value : Nat)
  /-- TICK_GUARD_NS_WRITE (R52): A write of the guard window is checked against its range and refused with TICK_WRITE_STATUS 3. -/
  | tickGuardNsWrite (via : Via) (value : Nat)
  /-- TICK_CHANGE_AT_WRITE (R55): A write of TICK_CHANGE_AT checks the conditions and arms or cancels a period change. -/
  | tickChangeAtWrite (via : Via) (value : Nat)
  /-- PERIOD_CHANGE (R55): At TICK_CHANGE_AT the epoch and the period take their new values. -/
  | periodChange
  /-- TICK_FIRE (R50): A tick boundary fires; the sealed plan launches, the publication batch is applied and a beacon is sent. -/
  | tickFire
  /-- STEP_DEADLINE (R53): The step deadline of a tick passes; uncommitted steps are abandoned and carried. -/
  | stepDeadline
  /-- BATCH_START (R32): The BATCH_START plan entry launches the steps of the batch. -/
  | batchStart (e : PlanEntry)
  /-- LAYER_START (R32): The LAYER_START plan entry launches one layer on the Galleries and sends remote attention requests. -/
  | layerStart (e : PlanEntry)
  /-- COLLECTIVE_WINDOW (R458): A COLLECTIVE_WINDOW entry opens TC1 on the named ports for its length. -/
  | collectiveWindow (e : PlanEntry)
  /-- CKPT_WINDOW (R458): A CKPT_WINDOW entry opens TC6 on the named ports for its length. -/
  | ckptWindow (e : PlanEntry)
  /-- GATE_LIST_SWITCH (R461): A GATE_LIST_SWITCH entry puts the named gate list in force at its offset. -/
  | gateListSwitch (e : PlanEntry)
  /-- PROMOTE_BATCH (R360): A PROMOTE_BATCH entry starts the Stairwell promotions that the draft lists. -/
  | promoteBatch (e : PlanEntry)
  /-- MAINT_GATE (R70): A maintenance gate opens in the guard window and runs the requests placed in it. -/
  | maintGate (e : PlanEntry)
  /-- CALIBRATE (R72): A CALIBRATE entry of a maintenance tick runs the maintenance action on the named units. -/
  | calibrate (e : PlanEntry)
  /-- POWER_STATE (R578): A POWER_STATE entry moves the named domains to the target state. -/
  | powerState (e : PlanEntry)
  /-- GATE_ENTRY_START (R458): A gate list entry begins in the cycle, and the open set of every port changes. -/
  | gateEntryStart
  /-- TICK_BEACON_RX (R59): A tick beacon is received and compared; a difference sets GROUP_MISMATCH. -/
  | tickBeaconRx (src : Nat) (number : Nat) (period : Nat) (epoch : Nat)
  /-- STEP_ANNOUNCE_RX (R61): A step announcement is received; it enters the plan unless the plan is already sealed. -/
  | stepAnnounceRx (src : Nat) (key : SessKey) (step : Nat) (tick : Nat)
  /-- COMMIT_VOTE_RX (R145): A commit vote from a member is received for a step. -/
  | commitVoteRx (src : Nat) (key : SessKey) (step : Nat)
  /-- STEP_COMMIT (R53): A step completes point 10 before its deadline; with every vote held it commits and its staged changes take effect. -/
  | stepCommit (key : SessKey)
  /-- BIND_SLOT (R79): The fabric manager binds a host slot to a partition, a key slot and a host window. -/
  | bindSlot (slot : Nat) (part : Nat) (key : Nat) (size : Nat) (base : Nat) (admin : Bool)
  /-- UNBIND_SLOT (R80): The fabric manager unbinds a slot: with FLUSH it enters UNBINDING, otherwise LOST. -/
  | unbindSlot (slot : Nat) (flush : Bool)
  /-- UNBIND_COMPLETE (R80): Every owned line of an UNBINDING slot is written back and its commands complete, and the slot enters UNBOUND. -/
  | unbindComplete (slot : Nat)
  /-- UNBIND_FLUSH_TIMEOUT (R80): The flush of an UNBINDING slot exceeds HOST_BI_TIMEOUT_US and the slot enters LOST. -/
  | unbindFlushTimeout (slot : Nat)
  /-- HOST_LINK_DOWN (R115): The upstream CXL link goes down and every bound slot enters LOST. -/
  | hostLinkDown
  /-- HOST_VIRAL (R80): A slot signals viral and enters LOST. -/
  | hostViral (slot : Nat)
  /-- HOST_LOSS_COMPLETE (R111): The six loss actions are complete; the queues and rings are deleted and the slot enters UNBOUND. -/
  | hostLossComplete (slot : Nat)
  /-- HOST_MEM_READ (R85): A CXL.mem read of a host window returns the committed line, or zeros outside the window. -/
  | hostMemRead (slot : Nat) (addr : Nat) (own : Bool)
  /-- HOST_MEM_WRITE (R85): A CXL.mem write to a host window is taken, or is discarded outside the window. -/
  | hostMemWrite (slot : Nat) (addr : Nat) (data : Bytes)
  /-- BI_RESPONSE_RX (R89): A host answers a back-invalidate, and the waiting grant, read, write or snapshot proceeds. -/
  | biResponseRx (slot : Nat) (line : Nat) (dirty : Option Bytes)
  /-- BI_TIMEOUT (R684): A back-invalidate is left unanswered for HOST_BI_TIMEOUT_US and the slot that holds the line enters LOST. -/
  | biTimeout (slot : Nat) (line : Nat)
  /-- SNAPSHOT_BI_TIMEOUT (R92): A back-invalidate for an inbox snapshot is left unanswered, and the command completes with HOST_BI_TIMEOUT. -/
  | snapshotBiTimeout (slot : Nat) (line : Nat)
  /-- INBOX_SNAPSHOT_DONE (R91): The last line of an inbox snapshot is read, fixing the command's acceptance instant. -/
  | inboxSnapshotDone (order : Nat)
  /-- SQ_TAIL_DOORBELL (R87): A doorbell write sets a submission queue tail, or is refused with DOORBELL_INVALID. -/
  | sqTailDoorbell (slot : Nat) (offset : Nat) (size : Nat) (value : Nat)
  /-- CQ_HEAD_DOORBELL (R87): A doorbell write sets a completion queue head, or is refused with DOORBELL_INVALID. -/
  | cqHeadDoorbell (slot : Nat) (offset : Nat) (size : Nat) (value : Nat)
  /-- WATCHED_LINE_INVALIDATE (R104): A host store invalidates a watched line; the device re-reads the index and updates the queue or ring. -/
  | watchedLineInvalidate (slot : Nat) (q : QueueRef) (value : Option Nat)
  /-- COMMAND_FETCH (R100): An arbitration round fetches entries from SQ 0 of each slot first, then round-robin from the other queues. -/
  | commandFetch (reads : List HostCmd) (failed : List (Nat × Nat))
  /-- MSIX_HOLDOFF_END (R106): The MSI-X holdoff ends and the merged held message is sent. -/
  | msixHoldoffEnd (slot : Nat) (vector : Nat)
  /-- Q0_ENABLE_WRITE (R118): A write of 1 to Q0_ENABLE checks the fields and enables SQ 0, CQ 0 and event ring 0, or sets Q0_FAULT. -/
  | q0EnableWrite (via : Via) (slot : Nat) (word : Nat)
  /-- NOP (R97): The command has no effect and completes. -/
  | nop (c : HostCmd)
  /-- CREATE_SQ (R97): Creates a submission queue bound to a completion queue. -/
  | createSq (c : HostCmd)
  /-- DELETE_SQ (R98): Deletes a submission queue and completes its pending commands with ABORTED. -/
  | deleteSq (c : HostCmd)
  /-- CREATE_CQ (R97): Creates a completion queue. -/
  | createCq (c : HostCmd)
  /-- DELETE_CQ (R98): Deletes a completion queue unless an SQ completes into it. -/
  | deleteCq (c : HostCmd)
  /-- CREATE_STREAM_RING (R97): Creates a stream ring and its spill area. -/
  | createStreamRing (c : HostCmd)
  /-- DELETE_STREAM_RING (R97): Deletes a stream ring. -/
  | deleteStreamRing (c : HostCmd)
  /-- CREATE_EVENT_RING (R97): Creates an event ring and delivers pending HOST_LOST flags of the partition. -/
  | createEventRing (c : HostCmd)
  /-- DELETE_EVENT_RING (R97): Deletes an event ring. -/
  | deleteEventRing (c : HostCmd)
  /-- ABORT (R98): Removes a pending command, which completes with ABORTED. -/
  | abort (c : HostCmd)
  /-- CREATE (R140): Creates a session descriptor from a host image at the seal. -/
  | create (c : HostCmd)
  /-- APPEND (R134): Appends input to a session and starts a turn. -/
  | append (c : HostCmd)
  /-- WAIT (R132): Declares a tool wait with an optional wake hint. -/
  | wait (c : HostCmd)
  /-- PARK (R132): Parks a session under its park policy. -/
  | park (c : HostCmd)
  /-- STOP (R133): Stops an ACTIVE session and drops its carried step. -/
  | stop (c : HostCmd)
  /-- REWIND (R147): Rewinds a session to an allowed target step. -/
  | rewind (c : HostCmd)
  /-- FORK (R152): Creates a child session that references the parent's pages. -/
  | fork (c : HostCmd)
  /-- MIGRATE (R137): Moves a session's home, or regroups it onto another slice group. -/
  | migrate (c : HostCmd)
  /-- DESTROY (R132): Frees a session and releases its pages. -/
  | destroy (c : HostCmd)
  /-- QUERY (R130): Copies a session descriptor to host memory when accepted. -/
  | query (c : HostCmd)
  /-- MODIFY (R141): Changes the MODIFY host fields of a descriptor under a word mask. -/
  | modify (c : HostCmd)
  /-- PUBLISH (R156): Publishes a byte region or a KV region at a version. -/
  | publish (c : HostCmd)
  /-- FORWARDED_COMMAND_RX (R123): The home receives a forwarded command at endpoint 0x0001 and executes it. -/
  | forwardedCommandRx (f : Forwarded)
  /-- FORWARDED_COMPLETION_RX (R125): The receiving module gets the home's completion, writes the outputs and the completion entry. -/
  | forwardedCompletionRx (src : Nat) (tag : Nat) (status : Nat) (result : Nat) (step : Nat) (data : Bytes)
  /-- MIGRATION_COMPLETE (R138): Every member reports its part of a migration complete; the session returns to its state and MIGRATED is posted. -/
  | migrationComplete (key : SessKey)
  /-- SESSION_PARK_TIMER (R150): PARK_AFTER_MS passes for a STOPPED or WAITING session and it enters PARKED. -/
  | sessionParkTimer (key : SessKey)
  /-- SESSION_TTL_EXPIRE (R151): TTL_MS passes, the session enters EXPIRED and its page references are released. -/
  | sessionTtlExpire (key : SessKey)
  /-- SESSION_GRACE_EXPIRE (R151): The grace period after expiry passes, the descriptor enters FREE and SESSION_FREED is posted. -/
  | sessionGraceExpire (key : SessKey)
  /-- WAKE_HINT_DUE (R134): A wake hint falls within the drafted tick, and the session's pages are promoted by it. -/
  | wakeHintDue (key : SessKey)
  /-- REGION_PIN_RX (R420): A region's home receives a pin or unpin message for a version. -/
  | regionPinRx (src : Nat) (name : Nat) (version : Nat) (pin : Bool)
  /-- COMPACTION_DONE (R191): The compacted pages of a run are complete, and at the next seal they replace its short pages. -/
  | compactionDone (key : SessKey) (run : Nat)
  /-- STAIRWELL_COPY_DONE (R363): A class-1 Stairwell copy (private copy or capture copy) completes and the waiting write proceeds. -/
  | stairwellCopyDone (id : Nat)
  /-- PATTN_REQUEST_RX (R221): An owner receives a remote partial-attention request, checks the pages and returns exact partials. -/
  | pattnRequestRx (src : Nat) (tag : Nat) (keySlot : Nat) (body : Bytes)
  /-- PATTN_RESPONSE_RX (R224): The requester receives a partial-attention response and merges it, carries or discards it. -/
  | pattnResponseRx (src : Nat) (body : Bytes)
  /-- ALLREDUCE_PARTIAL_RX (R252): A shard owner receives a reduce-scatter partial; with all partials present it sums and rounds the shard. -/
  | allreducePartialRx (src : Nat) (key : SessKey) (step : Nat) (layer : Nat) (half : Nat) (elems : List Nat)
  /-- ALLGATHER_SHARD_RX (R252): A slice receives an owner's FP32 shard of the new residual. -/
  | allgatherShardRx (src : Nat) (key : SessKey) (step : Nat) (layer : Nat) (half : Nat) (elems : List Nat)
  /-- PEER_LIST_RX (R263): A peer's top-k list is received; with every list present Plectrum merges, applies top-p and min-p and draws. -/
  | peerListRx (src : Nat) (key : SessKey) (step : Nat) (entries : List (Nat × Int))
  /-- REMAINDER_MSG_RX (R268): The home receives a member's remainder message and forms OUT_SUM and TIE_BEYOND. -/
  | remainderMsgRx (src : Nat) (ns : Nat) (body : Bytes)
  /-- BIAS_LOAD (R277): Loads a bias list for a model on every member. -/
  | biasLoad (c : HostCmd)
  /-- BIAS_FREE (R279): Frees a loaded bias list. -/
  | biasFree (c : HostCmd)
  /-- QUERY_SAMPLE (R278): Returns the sampling record of a session step. -/
  | querySample (c : HostCmd)
  /-- VOCAB_LOAD (R285): Loads a model's vocabulary on every member. -/
  | vocabLoad (c : HostCmd)
  /-- VOCAB_FREE (R313): Frees a model's vocabulary. -/
  | vocabFree (c : HostCmd)
  /-- GRAMMAR_LOAD (R306): Loads a grammar program on every member. -/
  | grammarLoad (c : HostCmd)
  /-- GRAMMAR_FREE (R313): Frees a grammar program. -/
  | grammarFree (c : HostCmd)
  /-- STOPSET_LOAD (R302): Loads a stop set on every member. -/
  | stopsetLoad (c : HostCmd)
  /-- STOPSET_FREE (R313): Frees a stop set. -/
  | stopsetFree (c : HostCmd)
  /-- TOKENIZE (R313): Tokenises UTF-8 from host memory into token IDs without entering a plan. -/
  | tokenize (c : HostCmd)
  /-- DETOKENIZE (R313): Turns token IDs into UTF-8 in host memory without entering a plan. -/
  | detokenize (c : HostCmd)
  /-- TOKENIZATION_PASS_DONE (R287): A text unit finishes tokenising an APPEND, fixing its acceptance instant and sending its token IDs to the members. -/
  | tokenizationPassDone (unit : Nat) (order : Nat)
  /-- TOKEN_IDS_RX (R289): A member receives the token IDs of an accepted APPEND from the home. -/
  | tokenIdsRx (src : Nat) (key : SessKey) (ids : List Nat)
  /-- LOADED_DATA_RX (R314): A member receives a bias list, stop set or loaded-data notice at endpoint 0x0008 and reads or stores the data. -/
  | loadedDataRx (src : Nat) (kind : LoadKind) (handle : Nat) (model : Nat) (data : Bytes)
  /-- LOADED_DATA_CONFIRM_RX (R314): The executing member receives a member's confirmation; with all confirmed it frees the extent. -/
  | loadedDataConfirmRx (src : Nat) (kind : LoadKind) (handle : Nat) (model : Nat)
  /-- BACKING_LOOKUP_DONE (R332): The backing directory answers a Newel miss or fallback and a hit is installed in the Newel. -/
  | backingLookupDone (table : Nat) (key : Nat)
  /-- RANGE_MAP (R384): Maps granules of the session range. -/
  | rangeMap (c : HostCmd)
  /-- RANGE_UNMAP (R384): Unmaps granules of the session range. -/
  | rangeUnmap (c : HostCmd)
  /-- RANGE_PLACE (R384): Promotes or demotes granules to a target tier. -/
  | rangePlace (c : HostCmd)
  /-- RANGE_COPY_IN (R384): Copies host memory into the session range. -/
  | rangeCopyIn (c : HostCmd)
  /-- RANGE_COPY_OUT (R384): Copies the session range out to host memory. -/
  | rangeCopyOut (c : HostCmd)
  /-- MODEL_LOAD (R376): Loads a slice image RESIDENT or WINDOW. -/
  | modelLoad (c : HostCmd)
  /-- MODEL_UNLOAD (R385): Unloads a model image. -/
  | modelUnload (c : HostCmd)
  /-- PARK_POLICY_SET (R368): Sets a park policy record. -/
  | parkPolicySet (c : HostCmd)
  /-- T3_ADD (R373): Grants a host memory region as T3. -/
  | t3Add (c : HostCmd)
  /-- T3_REMOVE (R374): Moves every object out of a T3 region and removes it. -/
  | t3Remove (c : HostCmd)
  /-- PARTITION_PULL (R386): Brings the partition's pages and granules out of T2-T4 into T1 and holds them. -/
  | partitionPull (c : HostCmd)
  /-- PROMOTION_COMPLETE (R359): A promotion to T1 completes; TIER and LOC switch and the old copy becomes the backing copy. -/
  | promotionComplete (obj : ObjRef)
  /-- DEMOTION_CONFIRMED (R366): A demotion write is confirmed; TIER and LOC switch and the upper copy is freed. -/
  | demotionConfirmed (obj : ObjRef)
  /-- WEIGHT_WINDOW_FILL (R377): The Galleries finish the last layer that used a window half, and the Stairwell fills it with the next layers. -/
  | weightWindowFill (model : Nat) (layer : Nat)
  /-- ROUTE_LOAD (R399): Loads a routing table that takes effect at a tick. -/
  | routeLoad (c : HostCmd)
  /-- EXPORT_SET (R397): Resizes the export window. -/
  | exportSet (c : HostCmd)
  /-- EXTENT_PUT (R426): Places host data in a SHARED extent of the fabric. -/
  | extentPut (c : HostCmd)
  /-- EXTENT_FREE (R426): Frees a SHARED extent. -/
  | extentFree (c : HostCmd)
  /-- NM_OP (R426): Sends a near-memory operation to an extent and returns its result. -/
  | nmOp (c : HostCmd)
  /-- PEER_DECLARE_LOST (R423): Declares a peer LOST and acts as for a lost peer. -/
  | peerDeclareLost (c : HostCmd)
  /-- FRAME_RX (R453): A frame is reassembled, decrypted, policed and executed, or forwarded on the route. -/
  | frameRx (port : Nat) (frame : Frame)
  /-- FAB_READ_RX (R403): An owner serves a READ of an extent or FLASH space. -/
  | fabReadRx (t : FabTxn)
  /-- ALLOC_RX (R394): An owner allocates an extent for the source. -/
  | allocRx (t : FabTxn)
  /-- PLACE_RX (R395): An owner writes bytes into an unsealed extent of the source. -/
  | placeRx (t : FabTxn)
  /-- SEAL_RX (R404): An owner seals an extent and completes when its bytes are durable. -/
  | sealRx (t : FabTxn)
  /-- FREE_RX (R403): An owner frees an extent after outstanding reads complete. -/
  | freeRx (t : FabTxn)
  /-- PUSH_OPEN_RX (R416): A receiver grants its lowest free push buffer. -/
  | pushOpenRx (t : FabTxn)
  /-- PUSH_DATA_RX (R417): A receiver takes push data into a granted buffer and allocates pushed pages. -/
  | pushDataRx (t : FabTxn)
  /-- PUSH_CLOSE_RX (R416): A receiver closes a push and completes after the buffer has drained into T1. -/
  | pushCloseRx (t : FabTxn)
  /-- NM_OP_RX (R406): The near-memory engine executes a near-memory operation on an extent. -/
  | nmOpRx (t : FabTxn)
  /-- PROBE_RX (R421): A module answers a probe. -/
  | probeRx (t : FabTxn)
  /-- FAB_COMPLETION_RX (R404): A completion arrives for an outstanding fabric transaction. -/
  | fabCompletionRx (t : FabTxn)
  /-- FAB_TXN_TIMEOUT (R405): A transaction has no completion within FAB_TXN_TIMEOUT_US and its destination becomes SUSPECT. -/
  | fabTxnTimeout (tag : Nat)
  /-- PROBE_TIMER (R421): Every FAB_TXN_TIMEOUT_US / 2 a SUSPECT peer is probed on every route. -/
  | probeTimer
  /-- PEER_TIMEOUT (R421): A peer stays SUSPECT for FAB_PEER_TIMEOUT_US and enters LOST. -/
  | peerTimeout (peer : Nat)
  /-- REPAIR_COPY (R415): Objects below their copy factor are copied in TC7 until the deficit returns to 0. -/
  | repairCopy (obj : ObjRef)
  /-- FRAME_TX_SELECT (R451): A free port starts the eligible TC0 frame, or the TC1-TC7 frame with the lowest WFQ tag. -/
  | frameTxSelect (port : Nat)
  /-- DATA_FLIT_RX (R432): A data flit is received, checked and added to its class's frame. -/
  | dataFlitRx (port : Nat) (flit : Flit)
  /-- IDLE_FLIT_RX (R438): An IDLE flit is received and its ACK releases replay buffer flits. -/
  | idleFlitRx (port : Nat) (flit : Flit)
  /-- CREDIT_FLIT_RX (R441): A CREDIT flit returns per-class credits. -/
  | creditFlitRx (port : Nat) (flit : Flit)
  /-- NAK_FLIT_RX (R438): A NAK makes the sender replay from the named sequence; 8 NAKs of one sequence take the port DOWN. -/
  | nakFlitRx (port : Nat) (flit : Flit)
  /-- SALT_FLIT_RX (R446): A SALT flit gives the receiver the sender's new salt. -/
  | saltFlitRx (port : Nat) (flit : Flit)
  /-- TRAIN_FLIT_RX (R437): A TRAIN flit carries the training exchange or a calibration boundary. -/
  | trainFlitRx (port : Nat) (flit : Flit) (info : TrainInfo)
  /-- SALT_ROLL (R446): A frame counter reaches 2^31 and the sender rolls to a new salt. -/
  | saltRoll (port : Nat)
  /-- PORT_EN_WRITE (R436): Setting PORT_EN starts training; clearing it disables the port. -/
  | portEnWrite (via : Via) (port : Nat) (word : Nat)
  /-- PORT_RETRAIN (R436): A write of 1 moves an enabled port to TRAINING. -/
  | portRetrain (via : Via) (port : Nat)
  /-- TRAINING_STEP_TIMEOUT (R437): A training step exceeds its limit and the port enters DOWN with its reason. -/
  | trainingStepTimeout (port : Nat) (step : Nat) (lanes : Nat)
  /-- TRAINING_COMPLETE (R437): Training completes and the port enters UP or DEGRADED. -/
  | trainingComplete (port : Nat) (working : Nat)
  /-- PORT_DOWN_RETRY (R436): 100 ms after entering DOWN the port retrains. -/
  | portDownRetry (port : Nat)
  /-- LANE_LOSS_OF_SIGNAL (R442): A lane loses signal and fails; it is spared, or the port retrains or goes DOWN. -/
  | laneLossOfSignal (port : Nat) (lane : Nat)
  /-- LANE_SER_LIMIT (R442): A lane's corrected symbols in 1 ms exceed LANE_SER_LIMIT and the lane fails. -/
  | laneSerLimit (port : Nat) (lane : Nat) (symbols : Nat)
  /-- LANE_CALIBRATION (R444): A lane calibration request steers the lane to the spare and recalibrates it. -/
  | laneCalibration (port : Nat) (lane : Nat)
  /-- LANE_CALIBRATION_DONE (R444): Recalibration ends and the lane is steered back from the spare. -/
  | laneCalibrationDone (port : Nat) (lane : Nat)
  /-- KEY_SWITCH (R448): KEY_SWITCH_AT passes and KEY_SLOT takes the value of KEY_NEXT. -/
  | keySwitch (port : Nat)
  /-- KEY_PREV_EXPIRE (R448): 100 µs after a key switch the previous key slot is no longer accepted. -/
  | keyPrevExpire (port : Nat)
  /-- TOKEN_BUCKET_REFILL (R452): Every TSCHED_REFILL_NS the shapers and policers gain bytes and TC0 injection is measured. -/
  | tokenBucketRefill
  /-- GL_LOAD_ID_WRITE (R460): A write of 1-15 starts reading and checking a gate list from host memory. -/
  | glLoadIdWrite (via : Via) (value : Nat)
  /-- GL_LOAD_DONE (R460): The gate list read completes and GL_LOAD_STATUS reports the outcome. -/
  | glLoadDone (data : Option Bytes)
  /-- GL_SWITCH_AT_WRITE (R461): A write of GL_SWITCH_AT arms a gate list switch in the plan, or sets GL_SWITCH_STATUS. -/
  | glSwitchAtWrite (via : Via) (value : Nat)
  /-- FLASH_READ_DONE (R484): A chunk read completes; a decode failure goes through the recovery steps. -/
  | flashReadDone (unit : Nat) (r : FlashRead)
  /-- FLASH_PROGRAM_DONE (R475): A program completes and confirms its write; a failure retires the block. -/
  | flashProgramDone (id : Nat) (failed : Option Nat)
  /-- FLASH_ERASE_DONE (R482): An erase completes and the superblock is freed; a failure replaces the member. -/
  | flashEraseDone (sb : Nat) (failed : Option Nat)
  /-- FOLD_START (R477): Free SLC superblocks fall below FTL_FOLD_LOW_PCT and folding into TLC starts. -/
  | foldStart
  /-- GC_START (R479): Free TLC superblocks fall below FTL_GC_LOW and garbage collection of the chosen victim starts. -/
  | gcStart
  /-- PATROL_READ (R481): A closed superblock comes due for its patrol read and weak ones are relocated. -/
  | patrolRead (sb : Nat) (worstBits : Nat) (beyondHard : Bool)
  /-- MAP_SNAPSHOT (R472): After 65,536 map changes a full map snapshot is written. -/
  | mapSnapshot
  /-- CHANNEL_FAIL (R486): A flash channel loses its bus or needs reconstruction too often and enters REBUILDING. -/
  | channelFail (ch : Nat) (busLost : Bool) (recoveries : Nat)
  /-- REBUILD_COMPLETE (R486): Every valid chunk of the failed channel is rewritten and FLC_STATE becomes OUT. -/
  | rebuildComplete (ch : Nat)
  /-- HEALTH_LOG_UPDATE (R490): The health log is updated once per minute. -/
  | healthLogUpdate (temp : Int)
  /-- FTL_HEALTH_GET (R490): A write of 1 copies the health log into the named slot's host memory. -/
  | ftlHealthGet (via : Via) (word : Nat) (ok : Bool)
  /-- INDEX_CREATE (R494): Creates a search index of a code width. -/
  | indexCreate (c : HostCmd)
  /-- INDEX_LOAD (R510): Appends records to an index's open build. -/
  | indexLoad (c : HostCmd)
  /-- INDEX_COMMIT (R510): Makes the open build the current generation. -/
  | indexCommit (c : HostCmd)
  /-- SIDE_APPEND (R500): Appends entries to the side list and mirrors them to T4. -/
  | sideAppend (c : HostCmd)
  /-- SEARCH (R497): Pins a generation and side list and runs query passes. -/
  | search (c : HostCmd)
  /-- MERGE_BACK (R508): Builds a new generation from the current one and the pinned side list. -/
  | mergeBack (c : HostCmd)
  /-- INDEX_DESTROY (R510): Destroys an index. -/
  | indexDestroy (c : HostCmd)
  /-- SEARCH_PASS_DONE (R503): A scan pass completes; the merge builds each query's result and the results are written. -/
  | searchPassDone (id : Nat)
  /-- MERGE_BACK_BUILD_DONE (R508): A merge-back build completes and the new generation becomes current at the next seal. -/
  | mergeBackBuildDone (handle : Nat)
  /-- CKPT_STORE_SET (R516): Defines a checkpoint store. -/
  | ckptStoreSet (c : HostCmd)
  /-- CKPT_BEGIN (R521): Starts a checkpoint capture of a scope at the capture tick. -/
  | ckptBegin (c : HostCmd)
  /-- CKPT_ABORT (R540): Ends a running capture and frees uncommitted shards. -/
  | ckptAbort (c : HostCmd)
  /-- CKPT_RESTORE (R533): Selects and restores a checkpoint of a scope on every member. -/
  | ckptRestore (c : HostCmd)
  /-- CKPT_DROP (R539): Drops a checkpoint and frees its unreferenced chunks. -/
  | ckptDrop (c : HostCmd)
  /-- CKPT_LIST (R538): Returns a store's catalogue entries. -/
  | ckptList (c : HostCmd)
  /-- CKPT_EXPORT (R538): Exports a checkpoint to a host buffer. -/
  | ckptExport (c : HostCmd)
  /-- CKPT_IMPORT (R538): Imports a Cregikor shard into a store. -/
  | ckptImport (c : HostCmd)
  /-- CAPTURE_ANNOUNCE_RX (R521): A member receives the capture tick and fields, or ends with CKPT_SYNC if its plan is already sealed. -/
  | captureAnnounceRx (src : Nat) (a : CaptureMsg)
  /-- CAPTURE_CHUNK_DONE (R524): A chunk write and its read-back complete and are verified, or written again. -/
  | captureChunkDone (model : Nat) (firstOk : Bool) (secondOk : Bool)
  /-- SHARD_COMMIT (R531): A shard's manifest is read back equal and catalogued, CKPT_COMMITTED is posted and a shard vote is sent. -/
  | shardCommit (model : Nat) (readEqual : Bool)
  /-- SHARD_VOTE_RX (R531): A shard vote is received; with all votes held the checkpoint is complete. -/
  | shardVoteRx (src : Nat) (model : Nat) (ckpt : Nat)
  /-- RESTORE_RX (R532): A member receives a forwarded CKPT_RESTORE and checks its scope. -/
  | restoreRx (src : Nat) (r : RestoreMsg)
  /-- RESTORE_BUILD_DONE (R535): Every member finishes building the restore and all switch to the restored state at the next seal. -/
  | restoreBuildDone (model : Nat) (verified : Bool)
  /-- PART_CONFIG (R547): Configures a hardware partition. -/
  | partConfig (c : HostCmd)
  /-- CTX_SET (R551): Replaces a context record. -/
  | ctxSet (c : HostCmd)
  /-- CTX_QUERY (R570): Returns a context record and its accounting entry. -/
  | ctxQuery (c : HostCmd)
  /-- CONTEXT_RESTORE_DONE (R564): An incoming BOUND context's restore completes on a Gallery and its commands may start. -/
  | contextRestoreDone (part : Nat) (ctx : Nat) (gallery : Nat)
  /-- ENGINE_DISPATCH (R561): A free Gallery engine takes the next ready command of the context with the lowest virtual time. -/
  | engineDispatch (gallery : Nat) (engine : Engine) (busy : Nat)
  /-- UNPLANNED_WAKE (R577): Unplanned demand reaches a domain, which wakes at once and sets DOM_UNPLANNED. -/
  | unplannedWake (dom : Nat)
  /-- DOM_UNPLANNED_EXPIRE (R577): 16 ticks after an unplanned wake, DOM_UNPLANNED clears. -/
  | domUnplannedExpire (dom : Nat)
  /-- COOLANT_SAMPLE (R583): Each millisecond coolant temperatures and flow are measured and the thermal estimate is updated. -/
  | coolantSample (inlet : Int) (outlet : Int) (flow : Nat) (watts : Nat)
  /-- JUNCTION_SAMPLE (R584): Once per tick the junction is read; the limit comes into force or ends, or a trip is fatal. -/
  | junctionSample (cd0 : Nat) (cd1 : Nat)
  /-- FLOW_ALARM (R584): Outlet disagreement lasting 60 s, or flow below COOL_FLOW_MIN, raises the flow alarm. -/
  | flowAlarm (agree : Bool)
  /-- INPUT_LOSS (R586): The input stays below 44 V for 20 µs; load is shed and the flash flush runs from the hold-up store. -/
  | inputLoss (microV : Nat)
  /-- INPUT_LOW (R671): The input falls below or returns above 48 V and PWR BLK_INT_STATUS bit 3 follows. -/
  | inputLow (millivolt : Nat)
  /-- INPUT_OVERVOLTAGE (R671): The input stays above 56 V for 1 ms and load is shed as for input loss. -/
  | inputOvervoltage (millivolt : Nat)
  /-- HOLDUP_MEASURE_DUE (R587): Every HOLDUP_MEAS_HOURS a hold-up store measurement starts. -/
  | holdupMeasureDue
  /-- HOLDUP_MEAS_NOW (R587): A write of 1 starts a hold-up store measurement. -/
  | holdupMeasNow (via : Via) (word : Nat)
  /-- HOLDUP_MEAS_DONE (R587): The store falls to 15 V; C, ESR and E are computed and recharging starts. -/
  | holdupMeasDone (onsetMicroV : Nat) (fallMicros : Nat)
  /-- HOLDUP_CHARGED (R588): The store reaches full charge and becomes READY, arming power-loss protection. -/
  | holdupCharged
  /-- ATTEST (R601): Returns a signed attestation report. -/
  | attest (c : HostCmd)
  /-- ATTEST_CERT (R604): Returns the attestation public key and its certificate. -/
  | attestCert (c : HostCmd)
  /-- MEASURE_EXTEND (R599): Extends MR7 with a host digest. -/
  | measureExtend (c : HostCmd)
  /-- FW_STAGE (R598): Writes images into the bank that is not running. -/
  | fwStage (c : HostCmd)
  /-- FW_ACTIVATE (R598): Makes a bank active for the next reset. -/
  | fwActivate (c : HostCmd)
  /-- FW_COMMIT (R597): Raises the rollback counters to the running images' SVNs. -/
  | fwCommit (c : HostCmd)
  /-- KEY_RETIRE (R607): Retires a tenant or fabric key slot permanently. -/
  | keyRetire (c : HostCmd)
  /-- DEBUG_UNLOCK (R613): A signed debug unlock token opens JTAG, extends MR6 and disables the key rings. -/
  | debugUnlock (token : Bytes)
  /-- SELFTEST (R626): Runs a self-test or calibration of a unit. -/
  | selftest (c : HostCmd)
  /-- ERRLOG_READ (R631): Returns error log records to a host buffer. -/
  | errlogRead (c : HostCmd)
  /-- DUMP_READ (R630): Returns fatal-error dump bytes to a host buffer. -/
  | dumpRead (c : HostCmd)
  /-- DUMP_CLEAR (R630): Erases both copies of the fatal-error dump. -/
  | dumpClear (c : HostCmd)
  /-- ERR_INJECT (R632): Injects an error of a class into a unit. -/
  | errInject (c : HostCmd)
  /-- HBM_SPARE_COPY (R623): An HBM channel passes its error limit and the Stairwell copies it to the spare channel. -/
  | hbmSpareCopy (stack : Nat) (channel : Nat) (ceLines : Nat) (retired : Nat)
  /-- HBM_SPARE_SWITCH (R623): The spare copy ends and the channel switches to the spare in the guard window. -/
  | hbmSpareSwitch (stack : Nat)
  /-- HBM_PATROL_SCRUB (R626): The background patrol reads every HBM line once per 24 h and corrects errors. -/
  | hbmPatrolScrub (stack : Nat) (line : Nat) (found : EccFind)
  /-- QUAD_SELFTEST_DUE (R626): The next Gallery-quad test comes due and is placed in a maintenance gate. -/
  | quadSelftestDue
  /-- WATCHDOG_EXPIRE (R623): A management core misses its heartbeat; it restarts and restores its tables from the journal. -/
  | watchdogExpire (core : Nat)
  /-- FATAL_ERROR (R629): A fatal cause stops the device, writes and mirrors the dump and sets RAS_FATAL. -/
  | fatalError (cause : Nat)
  /-- COLD_RESET (R637): The input rises through 46 V and every boot stage runs. -/
  | coldReset
  /-- MODULE_RESET (R637): MOD_RESET_N or the sideband reset starts a reset that keeps HBM in self-refresh. -/
  | moduleReset
  /-- HOST_LINK_RESET (R637): PERST# or a CXL hot reset resets the host interface, and every bound slot enters LOST. -/
  | hostLinkReset
  /-- RAIL_POWER_GOOD (R639): A rail's power-good asserts, releasing the next rail or starting the boot ROM. -/
  | railPowerGood (rail : Nat)
  /-- POWER_GOOD_TIMEOUT (R639): A power-good misses its deadline; the device holds in POWER and retries once per second. -/
  | powerGoodTimeout
  /-- IMAGE_VERIFIED (R593): The boot ROM finishes verifying an image and runs it, falls back to the other bank or halts. -/
  | imageVerified (image : Nat) (f : ImageFile)
  /-- HBM_TRAINING_DONE (R641): HBM training completes; failed channels are spared or the boot halts, and the fixed regions are initialised. -/
  | hbmTrainingDone (failed : List Nat) (trained : Bool)
  /-- FLASH_LOAD_DONE (R488): The map is loaded and the journal replayed, and the side lists and dedup table are reloaded. -/
  | flashLoadDone
  /-- LOCK_WRITE (R8): A write of 1 to LOCK in BLK_CTRL locks the page's RWL fields until reset. -/
  | lockWrite (via : Via) (page : Nat)
  /-- GLB_LOCK_ALL (R663): A write of 1 sets LOCK in every page in use in one clock. -/
  | glbLockAll (via : Via)
  /-- CNT_CLEAR (R660): A write of 1 clears every counter of the page. -/
  | cntClear (via : Via) (page : Nat)
  /-- COUNTER_WRITE_CLEAR (R11): A write of any value to a counter clears it. -/
  | counterWriteClear (via : Via) (offset : Nat)
  /-- BLK_INT_STATUS_W1C (R660): Each 1 written clears an interrupt cause bit. -/
  | blkIntStatusW1c (via : Via) (page : Nat) (mask : Nat)
  /-- BLK_INT_SET (R660): Each 1 written sets the matching interrupt cause and may send the interrupt vector. -/
  | blkIntSet (via : Via) (page : Nat) (mask : Nat)
  /-- REG_LOW_HALF_READ (R657): A 4-byte read of the low half of a 64-bit register latches the high half. -/
  | regLowHalfRead (via : Via) (offset : Nat)
  /-- REGISTER_WRITE (R8): A write to a register without a row of its own acts on each field by its access type and checks. -/
  | registerWrite (via : Via) (offset : Nat) (size : Nat) (value : Nat)
  /-- MBOX_CLAIM (R666): A write of 1 claims a free mailbox for the writing interface. -/
  | mboxClaim (via : Via)
  /-- MBOX_RELEASE (R666): The owner frees the mailbox. -/
  | mboxRelease (via : Via)
  /-- MBOX_TIMEOUT (R667): An owner makes no access for 1 s and loses the mailbox. -/
  | mboxTimeout
  /-- MBOX_GET_STAGE (R668): Returns GLB_BOOT_STAGE, and the failing image in HALTED_ROM. -/
  | mboxGetStage (via : Via)
  /-- MBOX_REG_READ (R668): Reads register bytes with every page open into MBOX_DATA. -/
  | mboxRegRead (via : Via)
  /-- MBOX_REG_WRITE (R668): Writes register bytes from MBOX_DATA with ADMIN rights on every page. -/
  | mboxRegWrite (via : Via)
  /-- MBOX_DUMP_READ (R668): Reads fatal-error dump bytes into MBOX_DATA. -/
  | mboxDumpRead (via : Via)
  /-- MBOX_DUMP_CLEAR (R668): Erases the fatal-error dump. -/
  | mboxDumpClear (via : Via)
  /-- MBOX_ERRLOG_READ (R668): Reads up to 32 error log records into MBOX_DATA. -/
  | mboxErrlogRead (via : Via)
  /-- MBOX_HEALTH_READ (R668): Reads flash health log bytes into MBOX_DATA. -/
  | mboxHealthRead (via : Via)
  /-- MBOX_MODULE_RESET (R668): Starts a module reset 1 ms after completion. -/
  | mboxModuleReset (via : Via)
  /-- NEWEL_SHADOW_SCRUB (R626): The background Newel shadow scrub reads each row's shadow part once per 2^30 clocks in idle port clocks and corrects or invalidates rows. -/
  | newelShadowScrub (row : Nat) (found : EccFind)
  /-- HOST_LINK_UP (R637): The upstream CXL link finishes training after boot, a host link reset or a link down, and the host interface serves configuration requests again. -/
  | hostLinkUp
  deriving DecidableEq, Repr

end Sys2Proof
end

