-- ==== Sys2Proof/Decode.lean ====
section
/-! DEFINITION. The command that a word spells by the bits of spec/opcode_table.json. The table gives no row any bits (its
`fields` are empty for every row: a command is a register access, a message or an event, not a word), so no word spells a
command. -/

namespace Sys2Proof

/-- The command of an opcode-table word: none, since no row of the table has bits. -/
def decodeTableWord (_nbits _w : Nat) : Option Instr := none

end Sys2Proof
end

