-- ==== Sys2Proof/Config.lean ====
section
/-! DEFINITION. The free values of the model: constants without a body, so that nothing can be proved of
what they return. Each stands for a value that the manual leaves open, or for a computation whose values the
manual does not state (log entries 3, 8 and 9). -/

namespace Sys2Proof

namespace Config

/-- A value the manual leaves open, by the index of its use (log entry 3). -/
opaque freeNat : Nat → Nat

/-- A byte the manual leaves open, by the index of its use (log entry 3). -/
opaque freeByte : Nat → Byte

/-- The random source of the security complex (R446, R602, R617): a 64-bit value by use. -/
opaque random : Nat → Nat

/-- The HBM address the device chooses for an allocation, by use (log entry 3). -/
opaque hbmAddr : Nat → Nat

/-- AES-256-GCM ciphertext and tag of a frame: key slot, salt, frame counter, plain bytes (R445,
log entry 9). -/
opaque gcmSeal : Nat → Nat → Nat → Bytes → Bytes

/-- The payload bytes of a control or collective message, whose layout the manual does not state, by use
(log entry 3). -/
opaque msgBytes : Nat → Bytes

/-- AES-256-XTS ciphertext of object bytes under a tenant key slot, at an address (R607, log entry 9). -/
opaque xtsSeal : Nat → Nat → Bytes → Bytes

/-- The planes of a page computed by the forward pass: slice image, profile, first position and tokens of the
page's history (log entry 8). -/
opaque planeBytes : Nat → Nat → Nat → List Nat → Bytes

/-- The FP32 logit of a vocabulary row after a history: slice image, profile, history and row. The forward pass is not stated
(log entry 8). -/
opaque logit : Nat → Nat → List Nat → Nat → Nat

/-- Element of a free list: a partial of the forward pass, a residual or a query element, by use and position (log entry 8). -/
opaque element : Nat → Nat → Nat

/-- A byte of the management core journals and trace buffers in a dump (R629). -/
opaque traceByte : Nat → Byte

/-- A byte of a loaded slice image, by its content and position: the state keeps the digest of an image (log entry 8). -/
opaque imageByte : Nat → Nat → Byte

/-- The HBM address of a node of a page table, by its root and number: the device chooses it (R141). -/
opaque nodeAddr : Nat → Nat → Nat

/-- Tenant and fabric slots of the one-time key array that hold a key, bit by slot: written at manufacture (R605). -/
opaque tenantRing : Nat
opaque fabricRing : Nat

/-- The device's own serial number (R643) and its silicon stepping (R663): fixed at manufacture. -/
opaque serial : Nat
opaque stepping : Nat

/-- SHA-256 of the boot ROM (R599). -/
opaque romDigest : Bytes

/-- The images that the bytes of an image set spell: the layout of a set and of a header is not stated (R594, R615, log
entry 30). -/
opaque imageSet : Bytes → List ImageFile

/-- Byte of an HSS signature: signing index, message and position (R595, R601, log entry 9). -/
opaque hssByte : Nat → Bytes → Nat → Byte

/-- The attestation public key and its certificate, as ATTEST_CERT returns them (R604). -/
opaque attestCert : Bytes

/-- Whether a debug unlock token is signed with the Moalor key and binds a serial number and a nonce (R613). -/
opaque tokenOk : Nat → Nat → Bytes → Bool

/-- The 16-byte record that MR6 is extended with: its event (the opcode of the command, 0 for a debug unlock) and the counter
value; codes and layout are not stated (R599, log entry 30). -/
opaque mr6Record : Nat → Nat → Bytes

end Config

end Sys2Proof
end

