-- ==== Sys2Proof/Machine/Bits.lean ====
section
/-! DEFINITION. Byte strings, bit fields and exact rounding: the little-endian order of R6, the field
notation of R5, and rounding to nearest with ties to even. -/

namespace Sys2Proof.Machine

open Sys2Proof

/-- `n` bytes of `v`, least significant first (R6). -/
def le (n v : Nat) : Bytes :=
  match n with
  | 0 => []
  | k + 1 => BitVec.ofNat 8 v :: le k (v / 256)

/-- The number that a little-endian byte string spells (R6). -/
def unle (b : Bytes) : Nat :=
  match b with
  | [] => 0
  | x :: r => x.toNat + 256 * unle r

/-- The little-endian field of `n` bytes at `off`; bytes beyond the string count as 0. -/
def fieldAt (b : Bytes) (off n : Nat) : Nat := unle ((b.drop off).take n)

/-- Bits [lo + w - 1 : lo] of `v` (R5). -/
def bitsOf (v lo w : Nat) : Nat := v / 2 ^ lo % 2 ^ w

/-- Bit `i` of `v`. -/
def bitAt (v i : Nat) : Bool := v / 2 ^ i % 2 == 1

/-- One byte, 0 beyond the end. -/
def byteAt (b : Bytes) (i : Nat) : Nat := ((b[i]?).getD 0).toNat

/-- `n` zero bytes. -/
def zeros (n : Nat) : Bytes := List.replicate n 0

/-- Exactly `n` bytes: cut, or padded with 0. -/
def padTo (n : Nat) (b : Bytes) : Bytes := (b.take n) ++ zeros (n - b.length)

/-- `b` padded with 0 to a multiple of `n`. -/
def padMult (n : Nat) (b : Bytes) : Bytes := b ++ zeros ((n - b.length % n) % n)

/-- Cut a byte string into pieces of `n` bytes, at most `fuel` of them. -/
def chunks (fuel n : Nat) (b : Bytes) : List Bytes :=
  match fuel with
  | 0 => []
  | k + 1 => if b = [] then [] else b.take n :: chunks k n (b.drop n)

/-- True when every byte is 0. -/
def allZero (b : Bytes) : Bool := b.all (· == 0)

/-- The two's-complement value of the low `w` bits of `v`. -/
def signedOf (w v : Nat) : Int :=
  if v % 2 ^ w < 2 ^ (w - 1) then ((v % 2 ^ w : Nat) : Int) else ((v % 2 ^ w : Nat) : Int) - (2 ^ w : Nat)

/-- The low `w` bits of a two's-complement integer. -/
def twos (w : Nat) (x : Int) : Nat := (x % (2 ^ w : Nat)).toNat

/-- Round up to a multiple of `n`. -/
def roundUp (n v : Nat) : Nat := (v + n - 1) / n * n

/-- ⌈a / b⌉. -/
def ceilDiv (a b : Nat) : Nat := (a + b - 1) / b

/-- a / b rounded to the nearest integer, ties to even, for b > 0 (R243). -/
def rneNat (a b : Nat) : Nat :=
  let q := a / b
  let r := a % b
  if 2 * r < b then q
  else if b < 2 * r then q + 1
  else if q % 2 = 0 then q else q + 1

/-- The same for a signed numerator. -/
def rneInt (a : Int) (b : Nat) : Int :=
  if a < 0 then - (rneNat a.natAbs b : Int) else (rneNat a.natAbs b : Int)

/-- Clamp to a range. -/
def clampNat (lo hi v : Nat) : Nat := if v < lo then lo else if hi < v then hi else v

/-- Set or clear bit `i`. -/
def setBit (v i : Nat) (on : Bool) : Nat :=
  if on then (if bitAt v i then v else v + 2 ^ i) else (if bitAt v i then v - 2 ^ i else v)

end Sys2Proof.Machine
end

