-- ==== Sys2Proof/Machine/State/RegTypes.lean ====
section
/-! DEFINITION. The record of a register field, its access types and the kinds of page. -/

namespace Sys2Proof.Machine

open Sys2Proof

/-- Access types of register fields (R8), and a counter, which a write of any value clears
(R74, R119 and the counter rule of each page). -/
inductive Access where
  | ro
  | rw
  | w1c
  | w1s
  | rwl
  | wo
  | cnt
  deriving DecidableEq, Repr

/-- A register field: its page index, byte offset in the page, lowest bit, width, access type and
reset value. -/
structure Field where
  page : Nat
  off : Nat
  lo : Nat
  width : Nat
  acc : Access
  reset : Nat
  deriving DecidableEq, Repr

/-- The place of a field in BAR0, counted in bits: its name in the register file. -/
def Field.key (f : Field) : Nat := (f.page * 4096 + f.off) * 8 + f.lo

/-- The kinds of block page (R660). -/
inductive PageKind where
  | glb
  | time
  | tick
  | pwr
  | therm
  | sec
  | ras
  | mbox
  | part
  | host
  | sess
  | stw
  | newel
  | txu
  | fret
  | plec
  | ckpt
  | vsrch
  | fab
  | fabc
  | nme
  | tsched
  | hbm
  | flc
  | ftl
  | gal
  deriving DecidableEq, Repr

end Sys2Proof.Machine
end

