-- ==== Sys2Proof/Machine/Regs.lean ====
section
/-! DEFINITION. The register fields of every page (spec/23, R660-R666, and the register table of each
chapter), with their places, access types and reset values. A field that is set at boot carries 0 here:
its value after boot comes with the boot steps (log entry 5). -/

namespace Sys2Proof.Machine

open Sys2Proof

/-- Reset values of WFQ_WEIGHT1-7 (R464). -/
def wfqReset (c : Nat) : Nat :=
  match c with
  | 1 => 128 | 2 => 64 | 3 => 32 | 4 => 32 | 5 => 64 | 6 => 16 | _ => 8

/-- The deepest state allowed for a domain, encoded as DOM_STATE (R575, R591). -/
def domMaxReset (d : Nat) : Nat :=
  if d < 32 then 3 else if d < 40 then 2 else if d < 60 then 3 else if d = 60 then 1
  else if d < 67 then 3 else 1

namespace Reg

/-- GLB 0x140 [0:0] RO (R654): Ticks are local-only and a loaded model has g > 1 (R60). -/
def DEG_LOCAL_ONLY : Field := ⟨0x0, 0x140, 0, 1, .ro, 0⟩
/-- GLB 0x140 [1:1] RO (R654): The servo is in HOLDOVER. -/
def DEG_HOLDOVER : Field := ⟨0x0, 0x140, 1, 1, .ro, 0⟩
/-- GLB 0x140 [2:2] RO (R654): GROUP_MISMATCH is set (R59). -/
def DEG_GROUP_MISMATCH : Field := ⟨0x0, 0x140, 2, 1, .ro, 0⟩
/-- GLB 0x140 [3:3] RO (R654): A loaded model has a member that is not PRESENT. -/
def DEG_GROUP_HELD : Field := ⟨0x0, 0x140, 3, 1, .ro, 0⟩
/-- GLB 0x140 [4:4] RO (R654): The last sealed plan had quads removed by the cap (R581). -/
def DEG_CAP_QUADS : Field := ⟨0x0, 0x140, 4, 1, .ro, 0⟩
/-- GLB 0x140 [5:5] RO (R654): In the last sealed plan, an enabled partition had no available quad. -/
def DEG_CAP_ZERO : Field := ⟨0x0, 0x140, 5, 1, .ro, 0⟩
/-- GLB 0x140 [6:6] RO (R654): A step carried under STALL_WEIGHT_LATE in the last 16 ticks. -/
def DEG_WEIGHT_LATE : Field := ⟨0x0, 0x140, 6, 1, .ro, 0⟩
/-- GLB 0x140 [7:7] RO (R654): A maintenance tick ran in the last 64 ticks. -/
def DEG_MAINT_TICK : Field := ⟨0x0, 0x140, 7, 1, .ro, 0⟩
/-- GLB 0x140 [8:8] RO (R654): A park policy in use, or STW_PRESSURE_POLICY, names a tier that has no capacity now: T2 with the fabric off, T3 with no region, or T4 on an SZ-4100-M0. -/
def DEG_TIER_ABSENT : Field := ⟨0x0, 0x140, 8, 1, .ro, 0⟩
/-- GLB 0x140 [9:9] RO (R654): FTL_PLP is OFF (R588). -/
def DEG_PLP_OFF : Field := ⟨0x0, 0x140, 9, 1, .ro, 0⟩
/-- GLB 0x140 [10:10] RO (R654): FAB_COPY_DEFICIT is not 0 (R415). -/
def DEG_COPY_DEFICIT : Field := ⟨0x0, 0x140, 10, 1, .ro, 0⟩
/-- GLB 0x140 [11:11] RO (R654): No slot is bound, and at least one descriptor is not FREE. -/
def DEG_NO_HOST : Field := ⟨0x0, 0x140, 11, 1, .ro, 0⟩
/-- GLB 0x100 [15:0] RO (R663): Part number. -/
def GLB_PART_NUM : Field := ⟨0x0, 0x100, 0, 16, .ro, 0x4100⟩
/-- GLB 0x100 [23:16] RO (R663): VARIANT of the configuration record (R643). (set at boot) -/
def GLB_VARIANT : Field := ⟨0x0, 0x100, 16, 8, .ro, 0⟩
/-- GLB 0x100 [31:24] RO (R663): Silicon stepping. (set at boot) -/
def GLB_STEPPING : Field := ⟨0x0, 0x100, 24, 8, .ro, 0⟩
/-- GLB 0x108 [63:0] RO (R663): SERIAL bytes 0–7. (set at boot) -/
def GLB_SERIAL_LO : Field := ⟨0x0, 0x108, 0, 64, .ro, 0⟩
/-- GLB 0x110 [63:0] RO (R663): SERIAL bytes 8–15. (set at boot) -/
def GLB_SERIAL_HI : Field := ⟨0x0, 0x110, 0, 64, .ro, 0⟩
/-- GLB 0x118 [63:0] RO (R663): LOT of the configuration record. (set at boot) -/
def GLB_LOT : Field := ⟨0x0, 0x118, 0, 64, .ro, 0⟩
/-- GLB 0x120 [3:0] RO (R663): R640. -/
def GLB_BOOT_STAGE : Field := ⟨0x0, 0x120, 0, 4, .ro, 0⟩
/-- GLB 0x124 [10:0] RWL (R663): Vector of R661. -/
def GLB_INT_VECTOR : Field := ⟨0x0, 0x124, 0, 11, .rwl, 0⟩
/-- GLB 0x124 [16:16] RWL (R663): R661. -/
def GLB_ALERT_EN : Field := ⟨0x0, 0x124, 16, 1, .rwl, 0⟩
/-- GLB 0x128 [0:0] WO (R663): A write of 1 sets LOCK in the BLK_CTRL of every page in use, in one clock. -/
def GLB_LOCK_ALL : Field := ⟨0x0, 0x128, 0, 1, .wo, 0⟩
/-- GLB 0x150 + 8 * w [63:0] RO (R663): w = 0–2. Bit g mod 64 of word ⌊g/64⌋: physical Gallery Gg is enabled (R645). Word 2 bits [63:4] are 0. (set at boot) -/
def GLB_GAL_ENABLED (w : Nat) : Field := ⟨0x0, 0x150 + 8 * w, 0, 64, .ro, 0⟩
/-- GLB 0x168 + 8 * w [63:0] RO (R663): The same layout: Gg is retired (R623). (set at boot) -/
def GLB_GAL_RETIRED (w : Nat) : Field := ⟨0x0, 0x168 + 8 * w, 0, 64, .ro, 0⟩
/-- GLB 0x180 [31:0] RO (R663): Bit q: quad q holds a retired Gallery with no replacement (R645). (set at boot) -/
def GLB_QUAD_UNAVAIL : Field := ⟨0x0, 0x180, 0, 32, .ro, 0⟩
/-- GLB 0x200 + 8 * w [63:0] RO (R663): w = 0–7. Bit i: page 64w + i has a bit set in both BLK_INT_STATUS and BLK_INT_ENABLE. For a slot, bits of pages closed to it read 0. -/
def GLB_INT_SUMMARY (w : Nat) : Field := ⟨0x0, 0x200 + 8 * w, 0, 64, .ro, 0⟩
/-- Counter of the GLB page (R663). -/
def GLB_BAD_ACCESS : Field := ⟨0x0, 0x40, 0, 64, .cnt, 0⟩
/-- TIME 0x100 [63:0] RO (R73): Counter, whole nanoseconds (R41). -/
def TIME_NOW_NS : Field := ⟨0x1, 0x100, 0, 64, .ro, 0⟩
/-- TIME 0x108 [15:0] RO (R73): Fraction latched by the last read of TIME_NOW_NS. -/
def TIME_NOW_FRAC : Field := ⟨0x1, 0x108, 0, 16, .ro, 0⟩
/-- TIME 0x10C [2:0] RWL (R73): Time source (R43). -/
def TIME_SRC : Field := ⟨0x1, 0x10C, 0, 3, .rwl, 0⟩
/-- TIME 0x10C [9:3] RWL (R73): PTP domain number, 0–127. -/
def TIME_PTP_DOMAIN : Field := ⟨0x1, 0x10C, 3, 7, .rwl, 0⟩
/-- TIME 0x10C [13:10] RWL (R73): Upstream fabric port when TIME_SRC = 2. -/
def TIME_UP_PORT : Field := ⟨0x1, 0x10C, 10, 4, .rwl, 0⟩
/-- TIME 0x110 [2:0] RO (R73): 0 FREE_RUN, 1 ACQUIRING, 2 LOCKED, 3 HOLDOVER, 4 HOLDOVER_EXPIRED; 5–7 never reported. -/
def TIME_SERVO : Field := ⟨0x1, 0x110, 0, 3, .ro, 0⟩
/-- TIME 0x114 [31:0] RO (R73): Last measured offset, signed, ns. -/
def TIME_OFFSET : Field := ⟨0x1, 0x114, 0, 32, .ro, 0⟩
/-- TIME 0x118 [31:0] RO (R73): Current holdover bound, ns; 0 outside HOLDOVER. -/
def TIME_HOLD_BOUND : Field := ⟨0x1, 0x118, 0, 32, .ro, 0⟩
/-- TIME 0x11C [31:0] RWL (R73): Alignment tolerance, ns, 100–10,000 (R49); a value outside the range acts as the nearer limit. -/
def TIME_ALIGN_TOL : Field := ⟨0x1, 0x11C, 0, 32, .rwl, 1000⟩
/-- TIME 0x120 [1:0] RO (R73): 0 the last write to TIME_SRC was accepted; 1 a reserved value was refused (R43); 2–3 never reported. -/
def TIME_WRITE_STATUS : Field := ⟨0x1, 0x120, 0, 2, .ro, 0⟩
/-- Counter of the TIME page (R664). -/
def TIME_SYNC_RX : Field := ⟨0x1, 0x40, 0, 64, .cnt, 0⟩
/-- Counter of the TIME page (R664). -/
def TIME_SYNC_MISSED : Field := ⟨0x1, 0x48, 0, 64, .cnt, 0⟩
/-- Counter of the TIME page (R664). -/
def TIME_STEP_CORRECTIONS : Field := ⟨0x1, 0x50, 0, 64, .cnt, 0⟩
/-- Counter of the TIME page (R664). -/
def TIME_SERVO_CHANGES : Field := ⟨0x1, 0x58, 0, 64, .cnt, 0⟩
/-- TICK 0x100 [63:0] RWL (R73): Tick epoch (R50); a write that is not a multiple of 1,000 ns is ignored and sets TICK_WRITE_STATUS to 4. -/
def TICK_EPOCH : Field := ⟨0x2, 0x100, 0, 64, .rwl, 0⟩
/-- TICK 0x108 [31:0] RO (R73): Period in force. -/
def TICK_PERIOD_NS : Field := ⟨0x2, 0x108, 0, 32, .ro, 10000000⟩
/-- TICK 0x10C [31:0] RW (R73): Period after the change (R55). -/
def TICK_PERIOD_NEXT : Field := ⟨0x2, 0x10C, 0, 32, .rw, 10000000⟩
/-- TICK 0x110 [63:0] RW (R73): Change instant; 0 means no change pending. -/
def TICK_CHANGE_AT : Field := ⟨0x2, 0x110, 0, 64, .rw, 0⟩
/-- TICK 0x118 [31:0] RWL (R73): Guard window (R52). -/
def TICK_GUARD_NS : Field := ⟨0x2, 0x118, 0, 32, .rwl, 200000⟩
/-- TICK 0x11C [15:0] RWL (R73): Maintenance gate interval in ticks. -/
def TICK_MAINT_EVERY : Field := ⟨0x2, 0x11C, 0, 16, .rwl, 0⟩
/-- TICK 0x120 [63:0] RO (R73): Current tick number. -/
def TICK_NOW : Field := ⟨0x2, 0x120, 0, 64, .ro, 0⟩
/-- TICK 0x128 [63:0] RO (R73): HBM address of the plan ring. (set at boot) -/
def TICK_PLAN_BASE : Field := ⟨0x2, 0x128, 0, 64, .ro, 0⟩
/-- TICK 0x130 [0:0] W1C (R73): Beacon mismatch seen (R59). -/
def GROUP_MISMATCH : Field := ⟨0x2, 0x130, 0, 1, .w1c, 0⟩
/-- TICK 0x130 [1:1] RO (R73): Ticks are local-only (R60). -/
def LOCAL_ONLY : Field := ⟨0x2, 0x130, 1, 1, .ro, 1⟩
/-- TICK 0x138 [2:0] RO (R73): 0 the last checked write was accepted; 1 period refused and 2 change instant refused (R55); 3 guard refused (R52); 4 epoch refused (R50); 5–7 never reported. -/
def TICK_WRITE_STATUS : Field := ⟨0x2, 0x138, 0, 3, .ro, 0⟩
/-- Counter of the TICK page (R74). -/
def TICK_CARRIED_STEPS : Field := ⟨0x2, 0x40, 0, 64, .cnt, 0⟩
/-- Counter of the TICK page (R74). -/
def TICK_SYNC_CARRY : Field := ⟨0x2, 0x48, 0, 64, .cnt, 0⟩
/-- Counter of the TICK page (R74). -/
def TICK_MAINT_CARRY : Field := ⟨0x2, 0x50, 0, 64, .cnt, 0⟩
/-- Counter of the TICK page (R74). -/
def TICK_EMPTY_PLAN : Field := ⟨0x2, 0x58, 0, 64, .cnt, 0⟩
/-- PWR 0x100 [10:0] RW (R591): Cap, 400–1,600 W; a value outside the range acts as the nearer limit. -/
def POWER_CAP_W : Field := ⟨0x3, 0x100, 0, 11, .rw, 1600⟩
/-- PWR 0x104 [10:0] RO (R591): R580. -/
def POWER_CAP_EFF_W : Field := ⟨0x3, 0x104, 0, 11, .ro, 1600⟩
/-- PWR 0x108 [10:0] RO (R591): Mean input power over the last tick. -/
def POWER_MEAS_W : Field := ⟨0x3, 0x108, 0, 11, .ro, 0⟩
/-- PWR 0x10C [10:0] RO (R591): Estimate for the last sealed plan (R581). -/
def POWER_EST_W : Field := ⟨0x3, 0x10C, 0, 11, .ro, 0⟩
/-- PWR 0x110 [4:0] RO (R591): 0–16. -/
def PWR_PLANS_SEEN : Field := ⟨0x3, 0x110, 0, 5, .ro, 0⟩
/-- PWR 0x120 [15:0] RO (R591): E, units of 0.1 J. -/
def HOLDUP_E_DJ : Field := ⟨0x3, 0x120, 0, 16, .ro, 0⟩
/-- PWR 0x124 [15:0] RO (R591): C, mF. -/
def HOLDUP_C_MF : Field := ⟨0x3, 0x124, 0, 16, .ro, 0⟩
/-- PWR 0x128 [31:0] RO (R591): ESR, µΩ. -/
def HOLDUP_ESR_UOHM : Field := ⟨0x3, 0x128, 0, 32, .ro, 0⟩
/-- PWR 0x12C [15:0] RO (R591): Store voltage, mV. -/
def HOLDUP_V_MV : Field := ⟨0x3, 0x12C, 0, 16, .ro, 0⟩
/-- PWR 0x130 [7:0] RWL (R591): 12–80; outside acts as the nearer limit. -/
def HOLDUP_MIN_J : Field := ⟨0x3, 0x130, 0, 8, .rwl, 24⟩
/-- PWR 0x130 [15:8] RWL (R591): Below HOLDUP_MIN_J acts as it. -/
def HOLDUP_WARN_J : Field := ⟨0x3, 0x130, 8, 8, .rwl, 40⟩
/-- PWR 0x134 [7:0] RWL (R591): 0 acts as 1. -/
def HOLDUP_MEAS_HOURS : Field := ⟨0x3, 0x134, 0, 8, .rwl, 24⟩
/-- PWR 0x138 [0:0] WO (R591): 1 starts a measurement (R587). -/
def HOLDUP_MEAS_NOW : Field := ⟨0x3, 0x138, 0, 1, .wo, 0⟩
/-- PWR 0x138 [2:1] RO (R591): 0 CHARGING, 1 READY, 2 MEASURING, 3 DISCHARGING. -/
def HOLDUP_STATE : Field := ⟨0x3, 0x138, 1, 2, .ro, 0⟩
/-- PWR 0x200 + 4 * d [1:0] RO (R591): 0 ACTIVE, 1 CLOCK_GATED, 2 RETENTION, 3 OFF. -/
def DOM_STATE (d : Nat) : Field := ⟨0x3, 0x200 + 4 * d, 0, 2, .ro, 0⟩
/-- PWR 0x200 + 4 * d [3:2] RW (R591): Deepest state the chooser may use; deeper acts as the deepest allowed. -/
def DOM_MAX (d : Nat) : Field := ⟨0x3, 0x200 + 4 * d, 2, 2, .rw, domMaxReset d⟩
/-- PWR 0x200 + 4 * d [4:4] RO (R591): R577. -/
def DOM_UNPLANNED (d : Nat) : Field := ⟨0x3, 0x200 + 4 * d, 4, 1, .ro, 0⟩
/-- Counter of the PWR page (R592). -/
def PWR_STATE_CHANGES : Field := ⟨0x3, 0x40, 0, 64, .cnt, 0⟩
/-- Counter of the PWR page (R592). -/
def PWR_UNPLANNED_WAKES : Field := ⟨0x3, 0x48, 0, 64, .cnt, 0⟩
/-- Counter of the PWR page (R592). -/
def PWR_CAP_QUAD_TICKS : Field := ⟨0x3, 0x50, 0, 64, .cnt, 0⟩
/-- Counter of the PWR page (R592). -/
def HOLDUP_MEASUREMENTS : Field := ⟨0x3, 0x58, 0, 64, .cnt, 0⟩
/-- Counter of the PWR page (R592). -/
def HOLDUP_DISCHARGES : Field := ⟨0x3, 0x60, 0, 64, .cnt, 0⟩
/-- THERM 0x100 [31:0] RO (R591): Inlet, signed m°C. -/
def COOL_IN_MC : Field := ⟨0x4, 0x100, 0, 32, .ro, 0⟩
/-- THERM 0x104 [31:0] RO (R591): Outlet, signed m°C. -/
def COOL_OUT_MC : Field := ⟨0x4, 0x104, 0, 32, .ro, 0⟩
/-- THERM 0x108 [15:0] RO (R591): Flow, mL/min. -/
def COOL_FLOW_MLMIN : Field := ⟨0x4, 0x108, 0, 16, .ro, 0⟩
/-- THERM 0x10C [31:0] RO (R591): tp, signed m°C (R583). (set at boot) -/
def THERM_TP_MC : Field := ⟨0x4, 0x10C, 0, 32, .ro, 0⟩
/-- THERM 0x110 [10:0] RO (R591): R583, saturating at 1,600. -/
def THERM_CAP_W : Field := ⟨0x4, 0x110, 0, 11, .ro, 1600⟩
/-- THERM 0x114 [7:0] RO (R591): Hottest junction of CD0, °C. -/
def TJ_CD0_C : Field := ⟨0x4, 0x114, 0, 8, .ro, 0⟩
/-- THERM 0x114 [15:8] RO (R591): Hottest junction of CD1, °C. -/
def TJ_CD1_C : Field := ⟨0x4, 0x114, 8, 8, .ro, 0⟩
/-- THERM 0x118 [7:0] RWL (R591): 85–105; outside acts as the nearer limit. -/
def THERM_LIMIT_C : Field := ⟨0x4, 0x118, 0, 8, .rwl, 105⟩
/-- THERM 0x118 [15:8] RO (R591): R584. -/
def THERM_TRIP_C : Field := ⟨0x4, 0x118, 8, 8, .ro, 115⟩
/-- THERM 0x11C [15:0] RWL (R591): mL/min (R582). -/
def COOL_FLOW_MIN : Field := ⟨0x4, 0x11C, 0, 16, .rwl, 1000⟩
/-- THERM 0x120 [5:0] RWL (R591): 1–60; outside acts as the nearer limit. -/
def THERM_HORIZON_S : Field := ⟨0x4, 0x120, 0, 6, .rwl, 10⟩
/-- Counter of the THERM page (R592). -/
def THERM_CAP_TICKS : Field := ⟨0x4, 0x40, 0, 64, .cnt, 0⟩
/-- Counter of the THERM page (R592). -/
def THERM_LIMIT_TICKS : Field := ⟨0x4, 0x48, 0, 64, .cnt, 0⟩
/-- Counter of the THERM page (R592). -/
def THERM_FLOW_ALARMS : Field := ⟨0x4, 0x50, 0, 64, .cnt, 0⟩
/-- SEC 0x100 [0:0] RO (R618): Running bank: 0 A, 1 B. (set at boot) -/
def SEC_FW_BANK : Field := ⟨0x5, 0x100, 0, 1, .ro, 0⟩
/-- SEC 0x100 [1:1] RO (R618): R598. (set at boot) -/
def SEC_FW_FALLBACK : Field := ⟨0x5, 0x100, 1, 1, .ro, 0⟩
/-- SEC 0x100 [2:2] RO (R618): R613. -/
def SEC_DEBUG_UNLOCKED : Field := ⟨0x5, 0x100, 2, 1, .ro, 0⟩
/-- SEC 0x108 [63:0] RO (R618): Bit s: tenant slot s holds a key. (set at boot) -/
def SEC_TENANT_PRESENT : Field := ⟨0x5, 0x108, 0, 64, .ro, 0⟩
/-- SEC 0x110 [63:0] RO (R618): Bit s: tenant slot s is retired. (set at boot) -/
def SEC_TENANT_RETIRED : Field := ⟨0x5, 0x110, 0, 64, .ro, 0⟩
/-- SEC 0x118 [15:0] RO (R618): Bit s: fabric slot s holds a key. (set at boot) -/
def SEC_FABRIC_PRESENT : Field := ⟨0x5, 0x118, 0, 16, .ro, 0⟩
/-- SEC 0x118 [31:16] RO (R618): Bit s: fabric slot s is retired. (set at boot) -/
def SEC_FABRIC_RETIRED : Field := ⟨0x5, 0x118, 16, 16, .ro, 0⟩
/-- SEC 0x120 + 1 * p [6:0] RO (R618): [5:0] partition key of Pp; [6] set. -/
def SEC_PART_KEY (p : Nat) : Field := ⟨0x5, 0x120 + 1 * p, 0, 7, .ro, 0⟩
/-- SEC 0x128 [63:0] RO (R618): R603. (set at boot) -/
def SEC_ATTEST_LEFT : Field := ⟨0x5, 0x128, 0, 64, .ro, 0⟩
/-- SEC 0x130 + 8 * p [63:0] RO (R618): Objects of Pp with a copy in T2, T3 or T4: KV pages and range granules, index generations and side-list mirrors, and extents that this module wrote under the pa -/
def SEC_PART_OBJECTS (p : Nat) : Field := ⟨0x5, 0x130 + 8 * p, 0, 64, .ro, 0⟩
/-- SEC 0x180 + 32 * i [255:0] RO (R618): MRi, i = 0–7. -/
def SEC_MR (i : Nat) : Field := ⟨0x5, 0x180 + 32 * i, 0, 256, .ro, 0⟩
/-- Counter of the SEC page (R619). -/
def SEC_ATTESTS : Field := ⟨0x5, 0x40, 0, 64, .cnt, 0⟩
/-- Counter of the SEC page (R619). -/
def SEC_SIG_FAIL : Field := ⟨0x5, 0x48, 0, 64, .cnt, 0⟩
/-- Counter of the SEC page (R619). -/
def SEC_EXTENDS : Field := ⟨0x5, 0x50, 0, 64, .cnt, 0⟩
/-- Counter of the SEC page (R619). -/
def SEC_XTS_BYTES : Field := ⟨0x5, 0x58, 0, 64, .cnt, 0⟩
/-- Counter of the SEC page (R619). -/
def SEC_GCM_FRAMES : Field := ⟨0x5, 0x60, 0, 64, .cnt, 0⟩
/-- RAS 0x100 [0:0] RO (R635): R629. -/
def RAS_FATAL : Field := ⟨0x6, 0x100, 0, 1, .ro, 0⟩
/-- RAS 0x100 [1:1] RO (R635): R630. (set at boot) -/
def RAS_DUMP_PRESENT : Field := ⟨0x6, 0x100, 1, 1, .ro, 0⟩
/-- RAS 0x100 [18:16] RO (R635): Cause number, 0–4, in R628 order; 5–7 never reported. -/
def RAS_FATAL_CAUSE : Field := ⟨0x6, 0x100, 16, 3, .ro, 0⟩
/-- RAS 0x108 [63:0] RO (R635): HBM address of the dump region. (set at boot) -/
def RAS_DUMP_BASE : Field := ⟨0x6, 0x108, 0, 64, .ro, 0⟩
/-- RAS 0x110 [63:0] RO (R635): HBM address of the error log. (set at boot) -/
def RAS_LOG_BASE : Field := ⟨0x6, 0x110, 0, 64, .ro, 0⟩
/-- RAS 0x118 [63:0] RO (R635): R627. -/
def RAS_LOG_SEQ : Field := ⟨0x6, 0x118, 0, 64, .ro, 0⟩
/-- RAS 0x120 [15:0] RWL (R635): Watchdog period, 10–10,000 ms; a value outside the range acts as the nearer limit. -/
def RAS_WDT_MS : Field := ⟨0x6, 0x120, 0, 16, .rwl, 100⟩
/-- RAS 0x124 [15:0] RWL (R635): Quad test cycle; 0 turns periodic tests off. -/
def RAS_GAL_TEST_HOURS : Field := ⟨0x6, 0x124, 0, 16, .rwl, 24⟩
/-- RAS 0x128 [31:0] RWL (R635): R623; 0 acts as 1. -/
def RAS_HBM_CE_LIMIT : Field := ⟨0x6, 0x128, 0, 32, .rwl, 10000⟩
/-- RAS 0x12C [7:0] RWL (R635): R623; 0 acts as 1. -/
def RAS_GAL_UE_LIMIT : Field := ⟨0x6, 0x12C, 0, 8, .rwl, 3⟩
/-- RAS 0x130 [0:0] RWL (R635): R632. -/
def RAS_INJECT_EN : Field := ⟨0x6, 0x130, 0, 1, .rwl, 0⟩
/-- RAS 0x134 [1:0] RO (R635): Unused spare Galleries of CD0, 0–2. (set at boot) -/
def RAS_SPARE_GAL_CD0 : Field := ⟨0x6, 0x134, 0, 2, .ro, 0⟩
/-- RAS 0x134 [3:2] RO (R635): Unused spare Galleries of CD1, 0–2. (set at boot) -/
def RAS_SPARE_GAL_CD1 : Field := ⟨0x6, 0x134, 2, 2, .ro, 0⟩
/-- RAS 0x134 [15:8] RO (R635): Bit s: the spare channel of HBs is in use. (set at boot) -/
def RAS_SPARE_HBM_USED : Field := ⟨0x6, 0x134, 8, 8, .ro, 0⟩
/-- RAS 0x138 [63:0] RO (R635): KiB of HBM retired since manufacture. (set at boot) -/
def RAS_HBM_RETIRED_KIB : Field := ⟨0x6, 0x138, 0, 64, .ro, 0⟩
/-- Counter of the RAS page (R636). -/
def RAS_CE : Field := ⟨0x6, 0x40, 0, 64, .cnt, 0⟩
/-- Counter of the RAS page (R636). -/
def RAS_STEP_ERR : Field := ⟨0x6, 0x48, 0, 64, .cnt, 0⟩
/-- Counter of the RAS page (R636). -/
def RAS_OBJ_RECOVERED : Field := ⟨0x6, 0x50, 0, 64, .cnt, 0⟩
/-- Counter of the RAS page (R636). -/
def RAS_OBJ_LOST : Field := ⟨0x6, 0x58, 0, 64, .cnt, 0⟩
/-- Counter of the RAS page (R636). -/
def RAS_SPARES_USED : Field := ⟨0x6, 0x60, 0, 64, .cnt, 0⟩
/-- Counter of the RAS page (R636). -/
def RAS_WATCHDOG_RESTARTS : Field := ⟨0x6, 0x68, 0, 64, .cnt, 0⟩
/-- Counter of the RAS page (R636). -/
def RAS_SELFTESTS : Field := ⟨0x6, 0x70, 0, 64, .cnt, 0⟩
/-- MBOX 0x100 [1:0] RO (R666): 0 free, 1 I3C/SMBus, 2 management Ethernet; 3 never reported. -/
def MBOX_OWNER : Field := ⟨0x7, 0x100, 0, 2, .ro, 0⟩
/-- MBOX 0x104 [0:0] WO (R666): A write of 1 claims the mailbox for the interface that writes it, if the mailbox is free. -/
def MBOX_CLAIM : Field := ⟨0x7, 0x104, 0, 1, .wo, 0⟩
/-- MBOX 0x104 [1:1] WO (R666): A write of 1 by the owner frees the mailbox. -/
def MBOX_RELEASE : Field := ⟨0x7, 0x104, 1, 1, .wo, 0⟩
/-- MBOX 0x108 [7:0] RW (R666): Command. -/
def MBOX_OPCODE : Field := ⟨0x7, 0x108, 0, 8, .rw, 0⟩
/-- MBOX 0x108 [15:8] RW (R666): Returned in MBOX_STATUS. -/
def MBOX_TAG : Field := ⟨0x7, 0x108, 8, 8, .rw, 0⟩
/-- MBOX 0x10C [0:0] WO (R666): A write of 1 starts the command. -/
def MBOX_GO : Field := ⟨0x7, 0x10C, 0, 1, .wo, 0⟩
/-- MBOX 0x10C [1:1] RO (R666): A command is running. -/
def MBOX_BUSY : Field := ⟨0x7, 0x10C, 1, 1, .ro, 0⟩
/-- MBOX 0x110 [15:0] RO (R666): Status code of the last command. -/
def MBOX_STATUS : Field := ⟨0x7, 0x110, 0, 16, .ro, 0⟩
/-- MBOX 0x110 [23:16] RO (R666): Tag of the last command. -/
def MBOX_DONE_TAG : Field := ⟨0x7, 0x110, 16, 8, .ro, 0⟩
/-- MBOX 0x118 + 8 * a [63:0] RW (R666): Arguments, a = 0–3. -/
def MBOX_ARG (a : Nat) : Field := ⟨0x7, 0x118 + 8 * a, 0, 64, .rw, 0⟩
/-- MBOX 0x138 [63:0] RO (R666): Result. -/
def MBOX_RESULT : Field := ⟨0x7, 0x138, 0, 64, .ro, 0⟩
/-- MBOX 0x800 [16383:0] RW (R666): 2,048-byte data window. -/
def MBOX_DATA : Field := ⟨0x7, 0x800, 0, 16384, .rw, 0⟩
/-- Counter of the MBOX page (R667). -/
def MBOX_COMMANDS : Field := ⟨0x7, 0x40, 0, 64, .cnt, 0⟩
/-- Counter of the MBOX page (R667). -/
def MBOX_DENIED : Field := ⟨0x7, 0x48, 0, 64, .cnt, 0⟩
/-- Counter of the MBOX page (R667). -/
def MBOX_TIMEOUTS : Field := ⟨0x7, 0x50, 0, 64, .cnt, 0⟩
/-- PART 0x100 [0:0] RO (R572): The partition is enabled. -/
def PART_ENABLED (n : Nat) : Field := ⟨(0x8 + n), 0x100, 0, 1, .ro, if n = 0 then 1 else 0⟩
/-- PART 0x104 [31:0] RO (R572): Owned quads. -/
def PART_QUADS (n : Nat) : Field := ⟨(0x8 + n), 0x104, 0, 32, .ro, if n = 0 then 0xFFFFFFFF else 0⟩
/-- PART 0x108 [12:0] RO (R572): Contexts. -/
def PART_CONTEXTS (n : Nat) : Field := ⟨(0x8 + n), 0x108, 0, 13, .ro, if n = 0 then 4096 else 0⟩
/-- PART 0x10C [15:0] RO (R572): Weight at shared units. -/
def PART_WEIGHT (n : Nat) : Field := ⟨(0x8 + n), 0x10C, 0, 16, .ro, 1⟩
/-- PART 0x110 [24:0] RO (R572): Descriptor quota; 0 for none. -/
def PART_DESC_QUOTA (n : Nat) : Field := ⟨(0x8 + n), 0x110, 0, 25, .ro, 0⟩
/-- PART 0x114 [24:0] RO (R572): Descriptors in use. -/
def PART_DESC_USED (n : Nat) : Field := ⟨(0x8 + n), 0x114, 0, 25, .ro, 0⟩
/-- PART 0x118 [63:0] RO (R572): T1 quota, bytes; 0 for none. -/
def PART_T1_QUOTA (n : Nat) : Field := ⟨(0x8 + n), 0x118, 0, 64, .ro, 0⟩
/-- PART 0x120 [63:0] RO (R572): T1 bytes in use. -/
def PART_T1_USED (n : Nat) : Field := ⟨(0x8 + n), 0x120, 0, 64, .ro, 0⟩
/-- PART 0x128 [6:0] RW (R572): Admission budget (R560), 10–100; a value outside the range acts as the nearer limit. -/
def PART_FILL_PCT (n : Nat) : Field := ⟨(0x8 + n), 0x128, 0, 7, .rw, 90⟩
/-- PART 0x130 [63:0] RO (R572): HBM address of the context table. (set at boot) -/
def PART_CTX_BASE (n : Nat) : Field := ⟨(0x8 + n), 0x130, 0, 64, .ro, 0⟩
/-- PART 0x138 [31:0] RO (R572): Bit q: quad q holds a resident BOUND context. -/
def PART_RESIDENT_MAP (n : Nat) : Field := ⟨(0x8 + n), 0x138, 0, 32, .ro, 0⟩
/-- Counter of the PART page (R573). -/
def PART_UNITS (n : Nat) : Field := ⟨(0x8 + n), 0x40, 0, 64, .cnt, 0⟩
/-- Counter of the PART page (R573). -/
def PART_STEPS_ADMITTED (n : Nat) : Field := ⟨(0x8 + n), 0x48, 0, 64, .cnt, 0⟩
/-- Counter of the PART page (R573). -/
def PART_ADMIT_HELD (n : Nat) : Field := ⟨(0x8 + n), 0x50, 0, 64, .cnt, 0⟩
/-- Counter of the PART page (R573). -/
def PART_SWITCHES (n : Nat) : Field := ⟨(0x8 + n), 0x58, 0, 64, .cnt, 0⟩
/-- Counter of the PART page (R573). -/
def PART_SWITCH_NS (n : Nat) : Field := ⟨(0x8 + n), 0x60, 0, 64, .cnt, 0⟩
/-- HOST 0x100 [2:0] RO (R118): 0 UNBOUND, 1 BOUND, 2 UNBINDING, 3 LOST; 4–7 never reported. -/
def SLOT_STATE (n : Nat) : Field := ⟨(0x10 + n), 0x100, 0, 3, .ro, 0⟩
/-- HOST 0x100 [6:4] RO (R118): Partition from BIND_SLOT. -/
def SLOT_PART (n : Nat) : Field := ⟨(0x10 + n), 0x100, 4, 3, .ro, 0⟩
/-- HOST 0x100 [13:8] RO (R118): Tenant key slot from BIND_SLOT. -/
def SLOT_KEY (n : Nat) : Field := ⟨(0x10 + n), 0x100, 8, 6, .ro, 0⟩
/-- HOST 0x100 [16:16] RO (R118): ADMIN flag from BIND_SLOT. -/
def SLOT_ADMIN (n : Nat) : Field := ⟨(0x10 + n), 0x100, 16, 1, .ro, 0⟩
/-- HOST 0x104 [8:0] RO (R118): Host window size in units of 256 MiB, 1–256; 0 when unbound. -/
def WIN_SIZE (n : Nat) : Field := ⟨(0x10 + n), 0x104, 0, 9, .ro, 0⟩
/-- HOST 0x108 [63:0] RO (R118): Host window base in the session range. -/
def WIN_BASE (n : Nat) : Field := ⟨(0x10 + n), 0x108, 0, 64, .ro, 0⟩
/-- HOST 0x110 [63:0] RW (R118): SQ 0 base, aligned to 4 KiB. -/
def SQ0_BASE (n : Nat) : Field := ⟨(0x10 + n), 0x110, 0, 64, .rw, 0⟩
/-- HOST 0x118 [63:0] RW (R118): CQ 0 base, aligned to 4 KiB. -/
def CQ0_BASE (n : Nat) : Field := ⟨(0x10 + n), 0x118, 0, 64, .rw, 0⟩
/-- HOST 0x120 [63:0] RW (R118): Event ring 0 base, aligned to 4 KiB. -/
def EVT0_BASE (n : Nat) : Field := ⟨(0x10 + n), 0x120, 0, 64, .rw, 0⟩
/-- HOST 0x128 [63:0] RW (R118): Watched head line of event ring 0, aligned to 64 B. -/
def EVT0_HEAD_LINE (n : Nat) : Field := ⟨(0x10 + n), 0x128, 0, 64, .rw, 0⟩
/-- HOST 0x130 [4:0] RW (R118): m of SQ 0, 1–16. -/
def SQ0_LOG2 (n : Nat) : Field := ⟨(0x10 + n), 0x130, 0, 5, .rw, 0⟩
/-- HOST 0x130 [12:8] RW (R118): m of CQ 0, 1–16. -/
def CQ0_LOG2 (n : Nat) : Field := ⟨(0x10 + n), 0x130, 8, 5, .rw, 0⟩
/-- HOST 0x130 [20:16] RW (R118): m of event ring 0, 6–20. -/
def EVT0_LOG2 (n : Nat) : Field := ⟨(0x10 + n), 0x130, 16, 5, .rw, 0⟩
/-- HOST 0x130 [24:24] W1S (R118): Reads 1 while SQ 0, CQ 0 and event ring 0 are enabled. A write of 1 on a BOUND slot whose queues are not enabled checks the fields and enables the queues; SQ 0  -/
def Q0_ENABLE (n : Nat) : Field := ⟨(0x10 + n), 0x130, 24, 1, .w1s, 0⟩
/-- HOST 0x130 [25:25] RO (R118): Set if the last enable found an out-of-range field; the queues stay disabled. -/
def Q0_FAULT (n : Nat) : Field := ⟨(0x10 + n), 0x130, 25, 1, .ro, 0⟩
/-- HOST 0x134 [3:0] RW (R118): Entries per turn, 1–8; 0 and 9–15 act as 4. -/
def QUEUE_BURST (n : Nat) : Field := ⟨(0x10 + n), 0x134, 0, 4, .rw, 4⟩
/-- HOST 0x138 [15:0] RW (R118): Back-invalidate timeout, 10–10,000 µs; a value outside the range acts as the nearer limit. -/
def HOST_BI_TIMEOUT_US (n : Nat) : Field := ⟨(0x10 + n), 0x138, 0, 16, .rw, 100⟩
/-- HOST 0x13C [15:0] RW (R118): MSI-X holdoff (R106). -/
def INT_HOLDOFF_NS (n : Nat) : Field := ⟨(0x10 + n), 0x13C, 0, 16, .rw, 2000⟩
/-- HOST 0x140 [10:0] RW (R118): MSI-X vector of CQ 0. -/
def CQ0_VECTOR (n : Nat) : Field := ⟨(0x10 + n), 0x140, 0, 11, .rw, 0⟩
/-- HOST 0x140 [26:16] RW (R118): MSI-X vector of event ring 0. -/
def EVT0_VECTOR (n : Nat) : Field := ⟨(0x10 + n), 0x140, 16, 11, .rw, 0⟩
/-- Counter of the HOST page (R119). -/
def HOST_CMDS_ACCEPTED (n : Nat) : Field := ⟨(0x10 + n), 0x40, 0, 64, .cnt, 0⟩
/-- Counter of the HOST page (R119). -/
def HOST_DB_ERR (n : Nat) : Field := ⟨(0x10 + n), 0x48, 0, 64, .cnt, 0⟩
/-- Counter of the HOST page (R119). -/
def HOST_BI_TIMEOUTS (n : Nat) : Field := ⟨(0x10 + n), 0x50, 0, 64, .cnt, 0⟩
/-- Counter of the HOST page (R119). -/
def HOST_EVENT_DROPPED (n : Nat) : Field := ⟨(0x10 + n), 0x58, 0, 64, .cnt, 0⟩
/-- Counter of the HOST page (R119). -/
def HOST_STREAM_HELD (n : Nat) : Field := ⟨(0x10 + n), 0x60, 0, 64, .cnt, 0⟩
/-- Counter of the HOST page (R119). -/
def HOST_LINES_ABANDONED (n : Nat) : Field := ⟨(0x10 + n), 0x68, 0, 64, .cnt, 0⟩
/-- Counter of the HOST page (R119). -/
def HOST_WRITES_DISCARDED (n : Nat) : Field := ⟨(0x10 + n), 0x70, 0, 64, .cnt, 0⟩
/-- Counter of the HOST page (R119). -/
def HOST_WINDOW_MISS (n : Nat) : Field := ⟨(0x10 + n), 0x78, 0, 64, .cnt, 0⟩
/-- SESS 0x100 [63:0] RO (R161): HBM address of the descriptor table. (set at boot) -/
def SESS_TABLE_BASE : Field := ⟨0x20, 0x100, 0, 64, .ro, 0⟩
/-- SESS 0x108 [24:0] RO (R161): Descriptors in use, replicas included, 0–16,777,216. -/
def SESS_COUNT : Field := ⟨0x20, 0x108, 0, 25, .ro, 0⟩
/-- SESS 0x10C [31:0] RWL (R161): Grace period after expiry, ms. -/
def SESS_GRACE_MS : Field := ⟨0x20, 0x10C, 0, 32, .rwl, 60000⟩
/-- SESS 0x110 [16:0] RWL (R161): Tokens per intake step, 256–65,536; a value outside the range acts as the nearer limit. -/
def SESS_INTAKE_CHUNK : Field := ⟨0x20, 0x110, 0, 17, .rwl, 8192⟩
/-- SESS 0x114 [3:0] RWL (R161): Attempts of one step before STEP_ERROR, 1–15; 0 acts as 1. -/
def SESS_RETRY_LIMIT : Field := ⟨0x20, 0x114, 0, 4, .rwl, 3⟩
/-- Counter of the SESS page (R162, R193). -/
def SESS_CREATED : Field := ⟨0x20, 0x40, 0, 64, .cnt, 0⟩
/-- Counter of the SESS page (R162, R193). -/
def SESS_STEPS_COMMITTED : Field := ⟨0x20, 0x48, 0, 64, .cnt, 0⟩
/-- Counter of the SESS page (R162, R193). -/
def SESS_REWINDS : Field := ⟨0x20, 0x50, 0, 64, .cnt, 0⟩
/-- Counter of the SESS page (R162, R193). -/
def SESS_EXPIRED : Field := ⟨0x20, 0x58, 0, 64, .cnt, 0⟩
/-- Counter of the SESS page (R162, R193). -/
def SESS_FORKS : Field := ⟨0x20, 0x60, 0, 64, .cnt, 0⟩
/-- Counter of the SESS page (R162, R193). -/
def SESS_PUBLISH_CONFLICTS : Field := ⟨0x20, 0x68, 0, 64, .cnt, 0⟩
/-- Counter of the SESS page (R162, R193). -/
def SESS_FORWARDED : Field := ⟨0x20, 0x70, 0, 64, .cnt, 0⟩
/-- Counter of the SESS page (R162, R193). -/
def KV_PREFIX_HIT_TOKENS : Field := ⟨0x20, 0x78, 0, 64, .cnt, 0⟩
/-- Counter of the SESS page (R162, R193). -/
def KV_PREFIX_COLLISIONS : Field := ⟨0x20, 0x80, 0, 64, .cnt, 0⟩
/-- Counter of the SESS page (R162, R193). -/
def KV_COW_COPIES : Field := ⟨0x20, 0x88, 0, 64, .cnt, 0⟩
/-- Counter of the SESS page (R162, R193). -/
def KV_COMPACTIONS : Field := ⟨0x20, 0x90, 0, 64, .cnt, 0⟩
/-- Counter of the SESS page (R162, R193). -/
def KV_REF_SATURATED : Field := ⟨0x20, 0x98, 0, 64, .cnt, 0⟩
/-- Counter of the SESS page (R162, R193). -/
def SESS_EVENTS_DISCARDED : Field := ⟨0x20, 0xa0, 0, 64, .cnt, 0⟩
/-- STW 0x100 [63:0] RO (R389): Bytes of the fixed regions (R351). -/
def STW_T1_FIXED : Field := ⟨0x21, 0x100, 0, 64, .ro, 8942260224⟩
/-- STW 0x108 [63:0] RO (R389): Bytes of the T1 pool. (set at boot) -/
def STW_T1_POOL : Field := ⟨0x21, 0x108, 0, 64, .ro, 0⟩
/-- STW 0x110 [63:0] RO (R389): Free bytes of the T1 pool. (set at boot) -/
def STW_T1_FREE : Field := ⟨0x21, 0x110, 0, 64, .ro, 0⟩
/-- STW 0x118 [63:0] RWL (R389): Pressure watermark, bytes (R371). -/
def STW_T1_LOW : Field := ⟨0x21, 0x118, 0, 64, .rwl, 17179869184⟩
/-- STW 0x120 [3:0] RWL (R389): Tier order for policy-0 sessions under pressure, and for T3_REMOVE; 0 acts as 1. -/
def STW_PRESSURE_POLICY : Field := ⟨0x21, 0x120, 0, 4, .rwl, 1⟩
/-- STW 0x124 [12:0] RWL (R389): KV share of each Landing slice, KiB; values above 3,072 act as 3,072. -/
def STW_LANDING_KV_KIB : Field := ⟨0x21, 0x124, 0, 13, .rwl, 2048⟩
/-- STW 0x128 [31:0] RWL (R389): Estimate rate for T2, GB/s; 0 acts as 1. -/
def STW_RATE_T2 : Field := ⟨0x21, 0x128, 0, 32, .rwl, 400⟩
/-- STW 0x12C [31:0] RWL (R389): Estimate rate for T3, GB/s; 0 acts as 1. -/
def STW_RATE_T3 : Field := ⟨0x21, 0x12C, 0, 32, .rwl, 200⟩
/-- STW 0x130 [31:0] RWL (R389): Estimate rate for T4, GB/s; 0 acts as 1. -/
def STW_RATE_T4 : Field := ⟨0x21, 0x130, 0, 32, .rwl, 110⟩
/-- STW 0x138 [63:0] RO (R389): Bytes in T3 regions. -/
def STW_T3_BYTES : Field := ⟨0x21, 0x138, 0, 64, .ro, 0⟩
/-- STW 0x140 [6:0] RO (R389): T3 regions, 0–64. -/
def STW_T3_REGIONS : Field := ⟨0x21, 0x140, 0, 7, .ro, 0⟩
/-- STW 0x148 [63:0] RO (R389): Free bytes of T4; 0 on SZ-4100-M0. (set at boot) -/
def STW_T4_FREE : Field := ⟨0x21, 0x148, 0, 64, .ro, 0⟩
/-- STW 0x150 [63:0] RO (R389): Bytes of the longest run of free map units in T4 (R471); 0 on SZ-4100-M0. (set at boot) -/
def STW_T4_LARGEST : Field := ⟨0x21, 0x150, 0, 64, .ro, 0⟩
/-- STW 0x180 + 8 * p [63:0] RO (R389): HBM address of the range table root of partition Pp, p = 0–7. (set at boot) -/
def RANGE_ROOT (p : Nat) : Field := ⟨0x21, 0x180 + 8 * p, 0, 64, .ro, 0⟩
/-- Counter of the STW page (R390). -/
def STALL_T2_LATE : Field := ⟨0x21, 0x40, 0, 64, .cnt, 0⟩
/-- Counter of the STW page (R390). -/
def STALL_T3_LATE : Field := ⟨0x21, 0x48, 0, 64, .cnt, 0⟩
/-- Counter of the STW page (R390). -/
def STALL_T4_LATE : Field := ⟨0x21, 0x50, 0, 64, .cnt, 0⟩
/-- Counter of the STW page (R390). -/
def STALL_WEIGHT_LATE : Field := ⟨0x21, 0x58, 0, 64, .cnt, 0⟩
/-- Counter of the STW page (R390). -/
def STALL_COPY_BW : Field := ⟨0x21, 0x60, 0, 64, .cnt, 0⟩
/-- Counter of the STW page (R390). -/
def STALL_FABRIC_LOST : Field := ⟨0x21, 0x68, 0, 64, .cnt, 0⟩
/-- Counter of the STW page (R390). -/
def STW_PROMOTED_BYTES : Field := ⟨0x21, 0x70, 0, 64, .cnt, 0⟩
/-- Counter of the STW page (R390). -/
def STW_DEMOTED_BYTES : Field := ⟨0x21, 0x78, 0, 64, .cnt, 0⟩
/-- Counter of the STW page (R390). -/
def STW_CLEAN_DEMOTIONS : Field := ⟨0x21, 0x80, 0, 64, .cnt, 0⟩
/-- Counter of the STW page (R390). -/
def STW_DEMOTE_NOROOM : Field := ⟨0x21, 0x88, 0, 64, .cnt, 0⟩
/-- Counter of the STW page (R390). -/
def STW_PRESSURE_PARKS : Field := ⟨0x21, 0x90, 0, 64, .cnt, 0⟩
/-- Counter of the STW page (R390). -/
def STW_ADMIT_HELD : Field := ⟨0x21, 0x98, 0, 64, .cnt, 0⟩
/-- Counter of the STW page (R390). -/
def STW_PROMOTE_WAIT : Field := ⟨0x21, 0xa0, 0, 64, .cnt, 0⟩
/-- NEWEL 0x100 [1:0] RO (R344): First bank group of NT0. -/
def NT0_FIRST_GROUP : Field := ⟨0x22, 0x100, 0, 2, .ro, 0⟩
/-- NEWEL 0x100 [3:2] RO (R344): Bank groups of NT0, minus 1. -/
def NT0_GROUPS : Field := ⟨0x22, 0x100, 2, 2, .ro, 1⟩
/-- NEWEL 0x100 [4:4] RO (R344): 0 POSITION, 1 FIELD. -/
def NT0_PRIO_MODE : Field := ⟨0x22, 0x100, 4, 1, .ro, 0⟩
/-- NEWEL 0x100 [6:5] RO (R344): 0 FULL, 1 PREFILTER, 2 BANKSEL; 3 is never set. -/
def NT0_POWER_MODE : Field := ⟨0x22, 0x100, 5, 2, .ro, 2⟩
/-- NEWEL 0x100 [9:8] RO (R344): First bank group of NT1. -/
def NT1_FIRST_GROUP : Field := ⟨0x22, 0x100, 8, 2, .ro, 2⟩
/-- NEWEL 0x100 [11:10] RO (R344): Bank groups of NT1, minus 1. -/
def NT1_GROUPS : Field := ⟨0x22, 0x100, 10, 2, .ro, 1⟩
/-- NEWEL 0x100 [12:12] RO (R344): As for NT0. -/
def NT1_PRIO_MODE : Field := ⟨0x22, 0x100, 12, 1, .ro, 0⟩
/-- NEWEL 0x100 [14:13] RO (R344): As for NT0. -/
def NT1_POWER_MODE : Field := ⟨0x22, 0x100, 13, 2, .ro, 2⟩
/-- NEWEL 0x108 [63:0] RO (R344): HBM address of the backing directory. (set at boot) -/
def NEWEL_DIR_BASE : Field := ⟨0x22, 0x108, 0, 64, .ro, 0⟩
/-- NEWEL 0x110 [27:0] RO (R344): Entries in the backing directory, stash included. -/
def NEWEL_DIR_ENTRIES : Field := ⟨0x22, 0x110, 0, 28, .ro, 0⟩
/-- NEWEL 0x114 [12:0] RO (R344): Stash entries in use, 0–4,096. -/
def NEWEL_STASH_USED : Field := ⟨0x22, 0x114, 0, 13, .ro, 0⟩
/-- NEWEL 0x118 [20:0] RO (R344): Valid Newel rows, 0–1,048,576. -/
def NEWEL_ROWS_VALID : Field := ⟨0x22, 0x118, 0, 21, .ro, 0⟩
/-- Counter of the NEWEL page (R345). -/
def NEWEL_LOOKUPS : Field := ⟨0x22, 0x40, 0, 64, .cnt, 0⟩
/-- Counter of the NEWEL page (R345). -/
def NEWEL_HITS : Field := ⟨0x22, 0x48, 0, 64, .cnt, 0⟩
/-- Counter of the NEWEL page (R345). -/
def NEWEL_MISSES : Field := ⟨0x22, 0x50, 0, 64, .cnt, 0⟩
/-- Counter of the NEWEL page (R345). -/
def NEWEL_FALSE_HIT : Field := ⟨0x22, 0x58, 0, 64, .cnt, 0⟩
/-- Counter of the NEWEL page (R345). -/
def NEWEL_FALLBACK : Field := ⟨0x22, 0x60, 0, 64, .cnt, 0⟩
/-- Counter of the NEWEL page (R345). -/
def NEWEL_SHADOW_CE : Field := ⟨0x22, 0x68, 0, 64, .cnt, 0⟩
/-- Counter of the NEWEL page (R345). -/
def NEWEL_SHADOW_UE : Field := ⟨0x22, 0x70, 0, 64, .cnt, 0⟩
/-- Counter of the NEWEL page (R345). -/
def NEWEL_PREFIX_DROP : Field := ⟨0x22, 0x78, 0, 64, .cnt, 0⟩
/-- Counter of the NEWEL page (R345). -/
def NEWEL_PREFIX_EVICT : Field := ⟨0x22, 0x80, 0, 64, .cnt, 0⟩
/-- TXU 0x100 [0:0] RO (R317): The unit is working on an APPEND or on point 7. -/
def TXU_BUSY (n : Nat) : Field := ⟨(0x23 + n), 0x100, 0, 1, .ro, 0⟩
/-- TXU 0x104 [23:0] RO (R317): Size of the shared vocabulary cache, KiB. -/
def TXU_VCACHE_KIB (n : Nat) : Field := ⟨(0x23 + n), 0x104, 0, 24, .ro, 8192⟩
/-- TXU 0x108 [15:0] RO (R317): Vocabularies loaded on the module. -/
def TXU_VOCABS (n : Nat) : Field := ⟨(0x23 + n), 0x108, 0, 16, .ro, 0⟩
/-- Counter of the TXU page (R318). -/
def TXU_BYTES_IN (n : Nat) : Field := ⟨(0x23 + n), 0x40, 0, 64, .cnt, 0⟩
/-- Counter of the TXU page (R318). -/
def TXU_TOKENS_IN (n : Nat) : Field := ⟨(0x23 + n), 0x48, 0, 64, .cnt, 0⟩
/-- Counter of the TXU page (R318). -/
def TXU_IN_SUBPARTS (n : Nat) : Field := ⟨(0x23 + n), 0x50, 0, 64, .cnt, 0⟩
/-- Counter of the TXU page (R318). -/
def TXU_OUT_FFFD (n : Nat) : Field := ⟨(0x23 + n), 0x58, 0, 64, .cnt, 0⟩
/-- Counter of the TXU page (R318). -/
def TXU_STOPS (n : Nat) : Field := ⟨(0x23 + n), 0x60, 0, 64, .cnt, 0⟩
/-- Counter of the TXU page (R318). -/
def TXU_VCACHE_MISS (n : Nat) : Field := ⟨(0x23 + n), 0x68, 0, 64, .cnt, 0⟩
/-- Counter of the TXU page (R318). -/
def TXU_VCACHE_CARRY (n : Nat) : Field := ⟨(0x23 + n), 0x70, 0, 64, .cnt, 0⟩
/-- FRET 0x100 [31:0] RO (R317): KiB of grammar programs loaded, up to 1,048,576. -/
def FRET_PROG_KIB : Field := ⟨0x27, 0x100, 0, 32, .ro, 0⟩
/-- FRET 0x104 [31:0] RO (R317): Grammar programs loaded. -/
def FRET_PROGS : Field := ⟨0x27, 0x104, 0, 32, .ro, 0⟩
/-- FRET 0x108 [16:0] RO (R317): Stop sets loaded, 0–65,536. -/
def FRET_STOPSETS : Field := ⟨0x27, 0x108, 0, 17, .ro, 0⟩
/-- Counter of the FRET page (R318). -/
def FRET_MASKS : Field := ⟨0x27, 0x40, 0, 64, .cnt, 0⟩
/-- Counter of the FRET page (R318). -/
def FRET_MASK_TRIM : Field := ⟨0x27, 0x48, 0, 64, .cnt, 0⟩
/-- Counter of the FRET page (R318). -/
def FRET_FORCED_END : Field := ⟨0x27, 0x50, 0, 64, .cnt, 0⟩
/-- Counter of the FRET page (R318). -/
def FRET_DEAD : Field := ⟨0x27, 0x58, 0, 64, .cnt, 0⟩
/-- Counter of the FRET page (R318). -/
def FRET_LATE_CARRY : Field := ⟨0x27, 0x60, 0, 64, .cnt, 0⟩
/-- PLEC 0x100 [63:0] RO (R281): HBM address of the sampling record ring. (set at boot) -/
def PLEC_REC_BASE : Field := ⟨0x28, 0x100, 0, 64, .ro, 0⟩
/-- PLEC 0x108 [24:0] RO (R281): Bias entries loaded, 0–16,777,216. -/
def PLEC_BIAS_ENTRIES : Field := ⟨0x28, 0x108, 0, 25, .ro, 0⟩
/-- PLEC 0x10C [15:0] RO (R281): Bias lists loaded. -/
def PLEC_BIAS_LISTS : Field := ⟨0x28, 0x10C, 0, 16, .ro, 0⟩
/-- Counter of the PLEC page (R282). -/
def PLEC_DRAWS : Field := ⟨0x28, 0x40, 0, 64, .cnt, 0⟩
/-- Counter of the PLEC page (R282). -/
def PLEC_GREEDY : Field := ⟨0x28, 0x48, 0, 64, .cnt, 0⟩
/-- Counter of the PLEC page (R282). -/
def PLEC_EMPTY_MASK : Field := ⟨0x28, 0x50, 0, 64, .cnt, 0⟩
/-- Counter of the PLEC page (R282). -/
def PLEC_SCORE_SAT : Field := ⟨0x28, 0x58, 0, 64, .cnt, 0⟩
/-- Counter of the PLEC page (R282). -/
def PLEC_TIE_STEPS : Field := ⟨0x28, 0x60, 0, 64, .cnt, 0⟩
/-- Counter of the PLEC page (R282). -/
def PLEC_LIST_ERR : Field := ⟨0x28, 0x68, 0, 64, .cnt, 0⟩
/-- CKPT 0x100 [31:0] RO (R543): Epoch counter (R518). -/
def CKPT_EPOCH : Field := ⟨0x29, 0x100, 0, 32, .ro, 1⟩
/-- CKPT 0x104 [1:0] RO (R543): 0 IDLE, 1 CAPTURING, 2 RESTORING; 3 never reported. -/
def CKPT_PHASE : Field := ⟨0x29, 0x104, 0, 2, .ro, 0⟩
/-- CKPT 0x108 [15:0] RWL (R543): Store write rate, GB/s; 0 acts as 1. -/
def CKPT_RATE_GBPS : Field := ⟨0x29, 0x108, 0, 16, .rwl, 20⟩
/-- CKPT 0x10C [15:0] RWL (R543): Capture buffer, MiB, 64–16,384; a value outside the range acts as the nearer limit. -/
def CKPT_BUF_MIB : Field := ⟨0x29, 0x10C, 0, 16, .rwl, 1024⟩
/-- CKPT 0x110 [63:0] RO (R543): HBM address of the dedup table. (set at boot) -/
def CKPT_DEDUP_BASE : Field := ⟨0x29, 0x110, 0, 64, .ro, 0⟩
/-- CKPT 0x118 [24:0] RO (R543): Dedup entries in use, 0–16,777,216. -/
def CKPT_DEDUP_USED : Field := ⟨0x29, 0x118, 0, 25, .ro, 0⟩
/-- CKPT 0x120 + 8 * s [63:0] RO (R543): Free bytes of store s, s = 0–7. -/
def CKPT_STORE_FREE (s : Nat) : Field := ⟨0x29, 0x120 + 8 * s, 0, 64, .ro, 0⟩
/-- Counter of the CKPT page (R544). -/
def CKPT_CAPTURES : Field := ⟨0x29, 0x40, 0, 64, .cnt, 0⟩
/-- Counter of the CKPT page (R544). -/
def CKPT_BYTES_WRITTEN : Field := ⟨0x29, 0x48, 0, 64, .cnt, 0⟩
/-- Counter of the CKPT page (R544). -/
def CKPT_DEDUP_HITS : Field := ⟨0x29, 0x50, 0, 64, .cnt, 0⟩
/-- Counter of the CKPT page (R544). -/
def CKPT_DEDUP_FULL : Field := ⟨0x29, 0x58, 0, 64, .cnt, 0⟩
/-- Counter of the CKPT page (R544). -/
def CKPT_COW_COPIES : Field := ⟨0x29, 0x60, 0, 64, .cnt, 0⟩
/-- Counter of the CKPT page (R544). -/
def CKPT_COW_BYTES : Field := ⟨0x29, 0x68, 0, 64, .cnt, 0⟩
/-- Counter of the CKPT page (R544). -/
def CKPT_VERIFY_RETRIES : Field := ⟨0x29, 0x70, 0, 64, .cnt, 0⟩
/-- Counter of the CKPT page (R544). -/
def CKPT_RESTORES : Field := ⟨0x29, 0x78, 0, 64, .cnt, 0⟩
/-- Counter of the CKPT page (R544). -/
def CKPT_RESTORE_FALLBACK : Field := ⟨0x29, 0x80, 0, 64, .cnt, 0⟩
/-- VSRCH 0x100 [6:0] RO (R513): Indexes, 0–64. -/
def VS_INDEXES : Field := ⟨0x2a, 0x100, 0, 7, .ro, 0⟩
/-- VSRCH 0x108 [63:0] RO (R513): HBM address of the index table. (set at boot) -/
def VS_TABLE_BASE : Field := ⟨0x2a, 0x108, 0, 64, .ro, 0⟩
/-- VSRCH 0x110 [4:0] RWL (R513): Queries per pass, 1–16; 0 acts as 1, and values above 16 act as 16. -/
def VS_PASS_QUERIES : Field := ⟨0x2a, 0x110, 0, 5, .rwl, 16⟩
/-- VSRCH 0x118 [63:0] RO (R513): T1 bytes held by side lists. -/
def VS_SIDE_BYTES : Field := ⟨0x2a, 0x118, 0, 64, .ro, 0⟩
/-- Counter of the VSRCH page (R514). -/
def VS_SEARCHES : Field := ⟨0x2a, 0x40, 0, 64, .cnt, 0⟩
/-- Counter of the VSRCH page (R514). -/
def VS_PASSES : Field := ⟨0x2a, 0x48, 0, 64, .cnt, 0⟩
/-- Counter of the VSRCH page (R514). -/
def VS_CODES_SCANNED : Field := ⟨0x2a, 0x50, 0, 64, .cnt, 0⟩
/-- Counter of the VSRCH page (R514). -/
def DUP_MERGED : Field := ⟨0x2a, 0x58, 0, 64, .cnt, 0⟩
/-- Counter of the VSRCH page (R514). -/
def VS_TOMBSTONED : Field := ⟨0x2a, 0x60, 0, 64, .cnt, 0⟩
/-- Counter of the VSRCH page (R514). -/
def VS_FILTERED : Field := ⟨0x2a, 0x68, 0, 64, .cnt, 0⟩
/-- Counter of the VSRCH page (R514). -/
def VS_FILTER_SHORT : Field := ⟨0x2a, 0x70, 0, 64, .cnt, 0⟩
/-- Counter of the VSRCH page (R514). -/
def VS_LOST_UNITS : Field := ⟨0x2a, 0x78, 0, 64, .cnt, 0⟩
/-- Counter of the VSRCH page (R514). -/
def VS_MERGE_BACKS : Field := ⟨0x2a, 0x80, 0, 64, .cnt, 0⟩
/-- Counter of the FAB page (R466). -/
def FAB_FEC_CORR (n : Nat) : Field := ⟨(0x30 + n), 0x40, 0, 64, .cnt, 0⟩
/-- Counter of the FAB page (R466). -/
def FAB_FEC_UNCORR (n : Nat) : Field := ⟨(0x30 + n), 0x48, 0, 64, .cnt, 0⟩
/-- Counter of the FAB page (R466). -/
def FAB_RETRY (n : Nat) : Field := ⟨(0x30 + n), 0x50, 0, 64, .cnt, 0⟩
/-- Counter of the FAB page (R466). -/
def FAB_GCM_FAIL (n : Nat) : Field := ⟨(0x30 + n), 0x58, 0, 64, .cnt, 0⟩
/-- Counter of the FAB page (R466). -/
def FAB_LANE_SWAPS (n : Nat) : Field := ⟨(0x30 + n), 0x60, 0, 64, .cnt, 0⟩
/-- Counter of the FAB page (R466). -/
def FAB_RETRAINS (n : Nat) : Field := ⟨(0x30 + n), 0x68, 0, 64, .cnt, 0⟩
/-- Counter of the FAB page (R466). -/
def FAB_POLICE_DROP (n : Nat) : Field := ⟨(0x30 + n), 0x70, 0, 64, .cnt, 0⟩
/-- Counter of the FAB page (R466). -/
def FAB_TX_FLITS (n : Nat) : Field := ⟨(0x30 + n), 0x78, 0, 64, .cnt, 0⟩
/-- Counter of the FAB page (R466). -/
def FAB_RX_FLITS (n : Nat) : Field := ⟨(0x30 + n), 0x80, 0, 64, .cnt, 0⟩
/-- Counter of the FAB page (R466). -/
def FAB_TC0_FLITS (n : Nat) : Field := ⟨(0x30 + n), 0x88, 0, 64, .cnt, 0⟩
/-- Counter of the FAB page (R466). -/
def FAB_CAL_SKIPPED (n : Nat) : Field := ⟨(0x30 + n), 0x90, 0, 64, .cnt, 0⟩
/-- Counter of the FAB page (R466). -/
def FAB_SALT_ROLLS (n : Nat) : Field := ⟨(0x30 + n), 0x98, 0, 64, .cnt, 0⟩
/-- FABC 0x100 [9:0] RO (R429): Module number (R392). -/
def FAB_SELF : Field := ⟨0x40, 0x100, 0, 10, .ro, 0⟩
/-- FABC 0x100 [16:16] RO (R429): A routing table is in force. -/
def FAB_ROUTED : Field := ⟨0x40, 0x100, 16, 1, .ro, 0⟩
/-- FABC 0x104 [10:0] RO (R429): PRESENT modules, 1–1,024. -/
def FAB_MODULES : Field := ⟨0x40, 0x104, 0, 11, .ro, 1⟩
/-- FABC 0x104 [17:16] RO (R429): Copies of T2 objects, 1–3. -/
def FAB_COPY_T2 : Field := ⟨0x40, 0x104, 16, 2, .ro, 1⟩
/-- FABC 0x104 [19:18] RO (R429): Copies of T4 objects, 1–2. -/
def FAB_COPY_T4 : Field := ⟨0x40, 0x104, 18, 2, .ro, 1⟩
/-- FABC 0x108 [63:0] RO (R429): GEN in force. -/
def FAB_ROUTE_GEN : Field := ⟨0x40, 0x108, 0, 64, .ro, 0⟩
/-- FABC 0x110 [63:0] RO (R429): HBM address of the table in force. (set at boot) -/
def FAB_ROUTE_BASE : Field := ⟨0x40, 0x110, 0, 64, .ro, 0⟩
/-- FABC 0x118 [8:0] RO (R429): Export window, GiB (R397). -/
def FAB_EXPORT_GIB : Field := ⟨0x40, 0x118, 0, 9, .ro, 0⟩
/-- FABC 0x120 [63:0] RO (R429): HBM address of the export window. (set at boot) -/
def FAB_EXPORT_BASE : Field := ⟨0x40, 0x120, 0, 64, .ro, 0⟩
/-- FABC 0x128 [63:0] RO (R429): Bytes in extents of the export window. -/
def FAB_EXPORT_USED : Field := ⟨0x40, 0x128, 0, 64, .ro, 0⟩
/-- FABC 0x130 [20:0] RO (R429): Extent table entries in use. -/
def FAB_EXTENTS : Field := ⟨0x40, 0x130, 0, 21, .ro, 0⟩
/-- FABC 0x138 [63:0] RO (R429): HBM address of the push region; 0 until taken. -/
def FAB_PUSH_BASE : Field := ⟨0x40, 0x138, 0, 64, .ro, 0⟩
/-- FABC 0x140 [15:0] RWL (R429): Transaction timeout, 100–10,000 µs; a value outside the range acts as the nearer limit. -/
def FAB_TXN_TIMEOUT_US : Field := ⟨0x40, 0x140, 0, 16, .rwl, 500⟩
/-- FABC 0x144 [15:0] RWL (R429): Time in SUSPECT before LOST, 500–60,000 µs; a value outside the range acts as the nearer limit. -/
def FAB_PEER_TIMEOUT_US : Field := ⟨0x40, 0x144, 0, 16, .rwl, 2000⟩
/-- FABC 0x148 [15:0] RWL (R429): Repair rate, GB/s; 0 acts as 1. -/
def FAB_REPAIR_GBPS : Field := ⟨0x40, 0x148, 0, 16, .rwl, 50⟩
/-- FABC 0x150 [63:0] RO (R429): Objects below their factor. -/
def FAB_COPY_DEFICIT : Field := ⟨0x40, 0x150, 0, 64, .ro, 0⟩
/-- FABC 0x200 + 8 * w [63:0] RO (R429): SUSPECT peers, w = 0–15. -/
def FAB_SUSPECT_MAP (w : Nat) : Field := ⟨0x40, 0x200 + 8 * w, 0, 64, .ro, 0⟩
/-- FABC 0x280 + 8 * w [63:0] RO (R429): LOST peers, w = 0–15. -/
def FAB_LOST_MAP (w : Nat) : Field := ⟨0x40, 0x280 + 8 * w, 0, 64, .ro, 0⟩
/-- Counter of the FABC page (R430). -/
def FAB_TXN_SENT : Field := ⟨0x40, 0x40, 0, 64, .cnt, 0⟩
/-- Counter of the FABC page (R430). -/
def FAB_TXN_TIMEOUTS : Field := ⟨0x40, 0x48, 0, 64, .cnt, 0⟩
/-- Counter of the FABC page (R430). -/
def FAB_RX_MALFORMED : Field := ⟨0x40, 0x50, 0, 64, .cnt, 0⟩
/-- Counter of the FABC page (R430). -/
def FAB_RX_FENCED : Field := ⟨0x40, 0x58, 0, 64, .cnt, 0⟩
/-- Counter of the FABC page (R430). -/
def FAB_PEERS_LOST : Field := ⟨0x40, 0x60, 0, 64, .cnt, 0⟩
/-- Counter of the FABC page (R430). -/
def FAB_REPAIR_BYTES : Field := ⟨0x40, 0x68, 0, 64, .cnt, 0⟩
/-- Counter of the FABC page (R430). -/
def FAB_PUSH_WAIT : Field := ⟨0x40, 0x70, 0, 64, .cnt, 0⟩
/-- Counter of the FABC page (R430). -/
def FAB_GROUP_HELD : Field := ⟨0x40, 0x78, 0, 64, .cnt, 0⟩
/-- NME 0x100 [3:0] RO (R429): Remote attention pipelines. -/
def NME_PIPES : Field := ⟨0x41, 0x100, 0, 4, .ro, 8⟩
/-- NME 0x104 [2:0] RO (R429): Operation lanes. -/
def NME_LANES : Field := ⟨0x41, 0x104, 0, 3, .ro, 4⟩
/-- NME 0x108 [15:0] RO (R429): Requests waiting. -/
def NME_QUEUED : Field := ⟨0x41, 0x108, 0, 16, .ro, 0⟩
/-- Counter of the NME page (R430). -/
def NME_PATTN_SERVED : Field := ⟨0x41, 0x40, 0, 64, .cnt, 0⟩
/-- Counter of the NME page (R430). -/
def NME_OPS : Field := ⟨0x41, 0x48, 0, 64, .cnt, 0⟩
/-- Counter of the NME page (R430). -/
def NME_BYTES : Field := ⟨0x41, 0x50, 0, 64, .cnt, 0⟩
/-- Counter of the NME page (R430). -/
def NME_DENIED : Field := ⟨0x41, 0x58, 0, 64, .cnt, 0⟩
/-- Counter of the NME page (R430). -/
def NME_PAGE_ABSENT : Field := ⟨0x41, 0x60, 0, 64, .cnt, 0⟩
/-- Counter of the NME page (R430). -/
def NME_READ_ERR : Field := ⟨0x41, 0x68, 0, 64, .cnt, 0⟩
/-- TSCHED 0x100 [3:0] RO (R464): Gate list in force. -/
def GL_ACTIVE : Field := ⟨0x42, 0x100, 0, 4, .ro, 0⟩
/-- TSCHED 0x100 [4:4] RO (R464): A switch is armed. -/
def GL_ARMED : Field := ⟨0x42, 0x100, 4, 1, .ro, 0⟩
/-- TSCHED 0x108 [63:0] RW (R464): Host physical address of a list. -/
def GL_LOAD_ADDR : Field := ⟨0x42, 0x108, 0, 64, .rw, 0⟩
/-- TSCHED 0x110 [3:0] WO (R464): A write of 1–15 starts a load (R460); a write of 0 is ignored. -/
def GL_LOAD_ID : Field := ⟨0x42, 0x110, 0, 4, .wo, 0⟩
/-- TSCHED 0x114 [2:0] RO (R464): 0 done, 1 busy, 2 format invalid, 3 number in force or armed, 4 host read failed; 5–7 never reported. -/
def GL_LOAD_STATUS : Field := ⟨0x42, 0x114, 0, 3, .ro, 0⟩
/-- TSCHED 0x118 [3:0] RW (R464): List to switch to. -/
def GL_SWITCH_ID : Field := ⟨0x42, 0x118, 0, 4, .rw, 0⟩
/-- TSCHED 0x120 [63:0] RW (R464): A write arms the switch (R461). -/
def GL_SWITCH_AT : Field := ⟨0x42, 0x120, 0, 64, .rw, 0⟩
/-- TSCHED 0x128 [1:0] RO (R464): 0 accepted, 1 list not loaded, 2 plan already sealed; 3 never reported. -/
def GL_SWITCH_STATUS : Field := ⟨0x42, 0x128, 0, 2, .ro, 0⟩
/-- TSCHED 0x130 + 4 * (c - 1) [7:0] RWL (R464): WFQ weight; 0 acts as 1. -/
def WFQ_WEIGHT (c : Nat) : Field := ⟨0x42, 0x130 + 4 * (c - 1), 0, 8, .rwl, wfqReset c⟩
/-- TSCHED 0x150 [16:0] RWL (R464): Refill interval, 100–100,000 ns; a value outside the range acts as the nearer limit. -/
def TSCHED_REFILL_NS : Field := ⟨0x42, 0x150, 0, 17, .rwl, 1000⟩
/-- TSCHED 0x154 [15:0] RWL (R464): R454, MB/s per port; 0 acts as 1. -/
def TC0_INJECT_MBPS : Field := ⟨0x42, 0x154, 0, 16, .rwl, 1000⟩
/-- TSCHED 0x158 [7:0] RWL (R464): R458; bits 0 and 1 are ignored. -/
def COLL_CLOSE_MASK : Field := ⟨0x42, 0x158, 0, 8, .rwl, 0xF8⟩
/-- TSCHED 0x15C [15:0] RWL (R464): R459. -/
def GATE_GUARD_NS : Field := ⟨0x42, 0x15C, 0, 16, .rwl, 500⟩
/-- TSCHED 0x200 + 0x80 * p [0:0] RW (R464): Enables the port (R436). -/
def PORT_EN (p : Nat) : Field := ⟨0x42, 0x200 + 0x80 * p, 0, 1, .rw, 0⟩
/-- TSCHED 0x200 + 0x80 * p [1:1] WO (R464): A write of 1 moves an enabled port to TRAINING. -/
def PORT_RETRAIN (p : Nat) : Field := ⟨0x42, 0x200 + 0x80 * p, 1, 1, .wo, 0⟩
/-- TSCHED 0x200 + 0x80 * p [11:8] RW (R464): Fabric key slot (R445). -/
def KEY_SLOT (p : Nat) : Field := ⟨0x42, 0x200 + 0x80 * p, 8, 4, .rw, 0⟩
/-- TSCHED 0x200 + 0x80 * p [15:12] RW (R464): Next key slot (R448). -/
def KEY_NEXT (p : Nat) : Field := ⟨0x42, 0x200 + 0x80 * p, 12, 4, .rw, 0⟩
/-- TSCHED 0x204 + 0x80 * p [2:0] RO (R464): R436. -/
def PORT_STATE (p : Nat) : Field := ⟨0x42, 0x204 + 0x80 * p, 0, 3, .ro, 0⟩
/-- TSCHED 0x204 + 0x80 * p [6:4] RO (R464): R437. -/
def DOWN_REASON (p : Nat) : Field := ⟨0x42, 0x204 + 0x80 * p, 4, 3, .ro, 0⟩
/-- TSCHED 0x204 + 0x80 * p [16:8] RO (R464): Bit i: lane Li carries data. -/
def LANE_ACTIVE (p : Nat) : Field := ⟨0x42, 0x204 + 0x80 * p, 8, 9, .ro, 0⟩
/-- TSCHED 0x204 + 0x80 * p [25:17] RO (R464): Bit i: lane Li has failed since training. -/
def LANE_FAILED (p : Nat) : Field := ⟨0x42, 0x204 + 0x80 * p, 17, 9, .ro, 0⟩
/-- TSCHED 0x208 + 0x80 * p [9:0] RO (R464): Peer's module number from training. -/
def PEER_MODULE (p : Nat) : Field := ⟨0x42, 0x208 + 0x80 * p, 0, 10, .ro, 0⟩
/-- TSCHED 0x208 + 0x80 * p [19:16] RO (R464): Peer's port number. -/
def PEER_PORT (p : Nat) : Field := ⟨0x42, 0x208 + 0x80 * p, 16, 4, .ro, 0⟩
/-- TSCHED 0x208 + 0x80 * p [31:31] RO (R464): The two fields above are from the current training. -/
def PEER_VALID (p : Nat) : Field := ⟨0x42, 0x208 + 0x80 * p, 31, 1, .ro, 0⟩
/-- TSCHED 0x210 + 0x80 * p [63:0] RW (R464): Key switch instant; 0 means none armed. -/
def KEY_SWITCH_AT (p : Nat) : Field := ⟨0x42, 0x210 + 0x80 * p, 0, 64, .rw, 0⟩
/-- TSCHED 0x218 + 0x80 * p [31:0] RWL (R464): Corrected symbols per lane per 1 ms (R442). -/
def LANE_SER_LIMIT (p : Nat) : Field := ⟨0x42, 0x218 + 0x80 * p, 0, 32, .rwl, 65536⟩
/-- TSCHED 0x220 + 0x80 * p + 4 * (c - 1) [15:0] RW (R464): Units of 100 MB/s; 0 means not shaped. -/
def SHAPE_RATE (p : Nat) (c : Nat) : Field := ⟨0x42, 0x220 + 0x80 * p + 4 * (c - 1), 0, 16, .rw, 0⟩
/-- TSCHED 0x220 + 0x80 * p + 4 * (c - 1) [31:16] RW (R464): KiB (R452). -/
def SHAPE_BURST (p : Nat) (c : Nat) : Field := ⟨0x42, 0x220 + 0x80 * p + 4 * (c - 1), 16, 16, .rw, 72⟩
/-- TSCHED 0x240 + 0x80 * p + 4 * (c - 1) [15:0] RW (R464): Units of 100 MB/s; 0 means off. -/
def POLICE_RATE (p : Nat) (c : Nat) : Field := ⟨0x42, 0x240 + 0x80 * p + 4 * (c - 1), 0, 16, .rw, 0⟩
/-- TSCHED 0x240 + 0x80 * p + 4 * (c - 1) [31:16] RW (R464): KiB; below 72 acts as 72 (R453). -/
def POLICE_BURST (p : Nat) (c : Nat) : Field := ⟨0x42, 0x240 + 0x80 * p + 4 * (c - 1), 16, 16, .rw, 72⟩
/-- Counter of the TSCHED page (R465). -/
def TSCHED_GATE_WAITS : Field := ⟨0x42, 0x40, 0, 64, .cnt, 0⟩
/-- Counter of the TSCHED page (R465). -/
def TSCHED_GATE_OVERRUN : Field := ⟨0x42, 0x48, 0, 64, .cnt, 0⟩
/-- Counter of the TSCHED page (R465). -/
def TSCHED_GL_SWITCHES : Field := ⟨0x42, 0x50, 0, 64, .cnt, 0⟩
/-- Counter of the TSCHED page (R465). -/
def TSCHED_TC0_FULL : Field := ⟨0x42, 0x58, 0, 64, .cnt, 0⟩
/-- HBM 0x100 [1:0] RO (R665): 0 TRAINED, 1 SPARE_COPYING (R623), 2 SPARE_IN_USE; 3 never reported. -/
def HBM_STATE (n : Nat) : Field := ⟨(0x50 + n), 0x100, 0, 2, .ro, 0⟩
/-- HBM 0x104 [7:0] RO (R665): Stack temperature, signed °C. -/
def HBM_TEMP (n : Nat) : Field := ⟨(0x50 + n), 0x104, 0, 8, .ro, 0⟩
/-- HBM 0x108 [63:0] RO (R665): KiB of the stack retired since manufacture. (set at boot) -/
def HBM_RETIRED_KIB (n : Nat) : Field := ⟨(0x50 + n), 0x108, 0, 64, .ro, 0⟩
/-- Counter of the HBM page (R665). -/
def HBM_CE (n : Nat) : Field := ⟨(0x50 + n), 0x40, 0, 64, .cnt, 0⟩
/-- Counter of the HBM page (R665). -/
def HBM_UE (n : Nat) : Field := ⟨(0x50 + n), 0x48, 0, 64, .cnt, 0⟩
/-- Counter of the HBM page (R665). -/
def HBM_RETRAINS (n : Nat) : Field := ⟨(0x50 + n), 0x50, 0, 64, .cnt, 0⟩
/-- Counter of the HBM page (R665). -/
def HBM_SCRUB_LINES (n : Nat) : Field := ⟨(0x50 + n), 0x58, 0, 64, .cnt, 0⟩
/-- FLC 0x100 [1:0] RO (R492): 0 ONLINE, 1 REBUILDING, 2 OUT; 3 never reported. -/
def FLC_STATE (n : Nat) : Field := ⟨(0x60 + n), 0x100, 0, 2, .ro, 0⟩
/-- FLC 0x104 [3:0] RO (R492): Dies on the channel. -/
def FLC_DIES (n : Nat) : Field := ⟨(0x60 + n), 0x104, 0, 4, .ro, 8⟩
/-- FLC 0x108 [7:0] RO (R492): Hottest die, signed °C. -/
def FLC_TEMP (n : Nat) : Field := ⟨(0x60 + n), 0x108, 0, 8, .ro, 0⟩
/-- FLC 0x10C [9:0] RO (R492): Unused donor blocks, 0–512. (set at boot) -/
def FLC_SPARE_BLOCKS (n : Nat) : Field := ⟨(0x60 + n), 0x10C, 0, 10, .ro, 0⟩
/-- FLC 0x110 [31:0] RO (R492): Grown bad member blocks. (set at boot) -/
def FLC_BAD_BLOCKS (n : Nat) : Field := ⟨(0x60 + n), 0x110, 0, 32, .ro, 0⟩
/-- Counter of the FLC page (R493). -/
def FLC_READS (n : Nat) : Field := ⟨(0x60 + n), 0x40, 0, 64, .cnt, 0⟩
/-- Counter of the FLC page (R493). -/
def FLC_PROGRAMS (n : Nat) : Field := ⟨(0x60 + n), 0x48, 0, 64, .cnt, 0⟩
/-- Counter of the FLC page (R493). -/
def FLC_ERASES (n : Nat) : Field := ⟨(0x60 + n), 0x50, 0, 64, .cnt, 0⟩
/-- Counter of the FLC page (R493). -/
def FLC_READ_RETRY (n : Nat) : Field := ⟨(0x60 + n), 0x58, 0, 64, .cnt, 0⟩
/-- Counter of the FLC page (R493). -/
def FLC_SOFT_DECODE (n : Nat) : Field := ⟨(0x60 + n), 0x60, 0, 64, .cnt, 0⟩
/-- Counter of the FLC page (R493). -/
def FLC_LDPC_CORR_BITS (n : Nat) : Field := ⟨(0x60 + n), 0x68, 0, 64, .cnt, 0⟩
/-- Counter of the FLC page (R493). -/
def FLC_PROG_FAIL (n : Nat) : Field := ⟨(0x60 + n), 0x70, 0, 64, .cnt, 0⟩
/-- Counter of the FLC page (R493). -/
def FLC_ERASE_FAIL (n : Nat) : Field := ⟨(0x60 + n), 0x78, 0, 64, .cnt, 0⟩
/-- Counter of the FLC page (R493). -/
def FLC_SUSPENDS (n : Nat) : Field := ⟨(0x60 + n), 0x80, 0, 64, .cnt, 0⟩
/-- FTL 0x100 [2:0] RWL (R492): 1–6; 0 acts as 1, and 7 acts as 6. -/
def FTL_SLC_PCT : Field := ⟨0x80, 0x100, 0, 3, .rwl, 3⟩
/-- FTL 0x104 [15:0] RWL (R492): Free TLC superblocks that start GC. -/
def FTL_GC_LOW : Field := ⟨0x80, 0x104, 0, 16, .rwl, 64⟩
/-- FTL 0x108 [15:0] RWL (R492): R483. -/
def FTL_GC_URGENT : Field := ⟨0x80, 0x108, 0, 16, .rwl, 16⟩
/-- FTL 0x10C [15:0] RWL (R492): Free TLC superblocks that stop GC. -/
def FTL_GC_HIGH : Field := ⟨0x80, 0x10C, 0, 16, .rwl, 128⟩
/-- FTL 0x110 [6:0] RWL (R492): R477; values above 100 act as 100. -/
def FTL_FOLD_LOW_PCT : Field := ⟨0x80, 0x110, 0, 7, .rwl, 25⟩
/-- FTL 0x114 [6:0] RWL (R492): R477; a value below FTL_FOLD_LOW_PCT acts as it. -/
def FTL_FOLD_HIGH_PCT : Field := ⟨0x80, 0x114, 0, 7, .rwl, 50⟩
/-- FTL 0x118 [0:0] RWL (R492): R476. -/
def FTL_FOLD_BACKING : Field := ⟨0x80, 0x118, 0, 1, .rwl, 0⟩
/-- FTL 0x11C [15:0] RWL (R492): R481; 0 acts as 1. -/
def FTL_PATROL_DAYS : Field := ⟨0x80, 0x11C, 0, 16, .rwl, 7⟩
/-- FTL 0x120 [63:0] RO (R492): R470. -/
def FTL_LOGICAL_UNITS : Field := ⟨0x80, 0x120, 0, 64, .ro, 15032385536⟩
/-- FTL 0x128 [63:0] RO (R492): HBM address of the map. (set at boot) -/
def FTL_MAP_BASE : Field := ⟨0x80, 0x128, 0, 64, .ro, 0⟩
/-- FTL 0x130 [15:0] RO (R492): Free TLC superblocks. (set at boot) -/
def FTL_FREE_TLC : Field := ⟨0x80, 0x130, 0, 16, .ro, 0⟩
/-- FTL 0x134 [15:0] RO (R492): Free superblocks of the SLC set. (set at boot) -/
def FTL_FREE_SLC : Field := ⟨0x80, 0x134, 0, 16, .ro, 0⟩
/-- FTL 0x138 [1:0] RO (R492): 0 NORMAL, 1 READ_ONLY; 2–3 never reported. -/
def FTL_STATE : Field := ⟨0x80, 0x138, 0, 2, .ro, 0⟩
/-- FTL 0x138 [5:4] RO (R492): 0 ARMED, 1 OFF, 2 FLUSHING; 3 never reported. -/
def FTL_PLP : Field := ⟨0x80, 0x138, 4, 2, .ro, 0⟩
/-- FTL 0x140 [63:0] RW (R492): Host physical address for the log, in the memory of slot FTL_HEALTH_SLOT. -/
def FTL_HEALTH_ADDR : Field := ⟨0x80, 0x140, 0, 64, .rw, 0⟩
/-- FTL 0x148 [0:0] WO (R492): A write of 1 copies the log (R490). -/
def FTL_HEALTH_GET : Field := ⟨0x80, 0x148, 0, 1, .wo, 0⟩
/-- FTL 0x14C [1:0] RO (R492): 0 done, 1 busy, 2 host write failed, 3 slot not BOUND. -/
def FTL_HEALTH_STATUS : Field := ⟨0x80, 0x14C, 0, 2, .ro, 0⟩
/-- FTL 0x150 [3:0] RW (R492): Host slot whose memory receives the copy (R490). -/
def FTL_HEALTH_SLOT : Field := ⟨0x80, 0x150, 0, 4, .rw, 0⟩
/-- Counter of the FTL page (R493). -/
def FTL_WRITE_BYTES : Field := ⟨0x80, 0x40, 0, 64, .cnt, 0⟩
/-- Counter of the FTL page (R493). -/
def FTL_SLC_BYPASS : Field := ⟨0x80, 0x48, 0, 64, .cnt, 0⟩
/-- Counter of the FTL page (R493). -/
def FTL_FOLD_BYTES : Field := ⟨0x80, 0x50, 0, 64, .cnt, 0⟩
/-- Counter of the FTL page (R493). -/
def FTL_FOLD_RECLAIMED : Field := ⟨0x80, 0x58, 0, 64, .cnt, 0⟩
/-- Counter of the FTL page (R493). -/
def FTL_GC_BYTES : Field := ⟨0x80, 0x60, 0, 64, .cnt, 0⟩
/-- Counter of the FTL page (R493). -/
def FTL_GC_VICTIMS : Field := ⟨0x80, 0x68, 0, 64, .cnt, 0⟩
/-- Counter of the FTL page (R493). -/
def FTL_PARITY_RECOVER : Field := ⟨0x80, 0x70, 0, 64, .cnt, 0⟩
/-- Counter of the FTL page (R493). -/
def FTL_REMOTE_RECOVER : Field := ⟨0x80, 0x78, 0, 64, .cnt, 0⟩
/-- Counter of the FTL page (R493). -/
def FTL_UNCORRECTABLE : Field := ⟨0x80, 0x80, 0, 64, .cnt, 0⟩
/-- Counter of the FTL page (R493). -/
def FTL_PLP_FLUSHES : Field := ⟨0x80, 0x88, 0, 64, .cnt, 0⟩
/-- GAL 0x100 [7:0] RO (R665): Physical number, 0–131. -/
def GAL_PHYS (n : Nat) : Field := ⟨(0x100 + n), 0x100, 0, 8, .ro, n⟩
/-- GAL 0x100 [14:8] RO (R665): Logical number (R23). (set at boot) -/
def GAL_LOGICAL (n : Nat) : Field := ⟨(0x100 + n), 0x100, 8, 7, .ro, 0⟩
/-- GAL 0x100 [20:16] RO (R665): Quad (R24). (set at boot) -/
def GAL_QUAD (n : Nat) : Field := ⟨(0x100 + n), 0x100, 16, 5, .ro, 0⟩
/-- GAL 0x100 [24:24] RO (R665): The Gallery is retired with no replacement, so its quad is unavailable. -/
def GAL_UNAVAIL (n : Nat) : Field := ⟨(0x100 + n), 0x100, 24, 1, .ro, 0⟩
/-- GAL 0x104 [12:0] RO (R665): Resident BOUND context (R552); bit 12 is set while one is resident. -/
def GAL_RESIDENT_CTX (n : Nat) : Field := ⟨(0x100 + n), 0x104, 0, 13, .ro, 0⟩
/-- Counter of the GAL page (R230, R259). -/
def ATTN_KEYS_READ (n : Nat) : Field := ⟨(0x100 + n), 0x40, 0, 64, .cnt, 0⟩
/-- Counter of the GAL page (R230, R259). -/
def ATTN_SCORE_SAT (n : Nat) : Field := ⟨(0x100 + n), 0x48, 0, 64, .cnt, 0⟩
/-- Counter of the GAL page (R230, R259). -/
def ATTN_V_SAT (n : Nat) : Field := ⟨(0x100 + n), 0x50, 0, 64, .cnt, 0⟩
/-- Counter of the GAL page (R230, R259). -/
def ATTN_REMOTE_SENT (n : Nat) : Field := ⟨(0x100 + n), 0x58, 0, 64, .cnt, 0⟩
/-- Counter of the GAL page (R230, R259). -/
def ATTN_REMOTE_STALE (n : Nat) : Field := ⟨(0x100 + n), 0x60, 0, 64, .cnt, 0⟩
/-- Counter of the GAL page (R230, R259). -/
def ATTN_REMOTE_FAIL (n : Nat) : Field := ⟨(0x100 + n), 0x68, 0, 64, .cnt, 0⟩
/-- Counter of the GAL page (R230, R259). -/
def NUM_BLOCK_SAT (n : Nat) : Field := ⟨(0x100 + n), 0x70, 0, 64, .cnt, 0⟩
/-- Counter of the GAL page (R230, R259). -/
def NUM_ACC_SAT (n : Nat) : Field := ⟨(0x100 + n), 0x78, 0, 64, .cnt, 0⟩
/-- Counter of the GAL page (R230, R259). -/
def NUM_ACC_LOW (n : Nat) : Field := ⟨(0x100 + n), 0x80, 0, 64, .cnt, 0⟩
/-- Counter of the GAL page (R230, R259). -/
def NUM_NONFINITE (n : Nat) : Field := ⟨(0x100 + n), 0x88, 0, 64, .cnt, 0⟩
/-- Counter of the GAL page (R230, R259). -/
def NUM_CONV_SAT (n : Nat) : Field := ⟨(0x100 + n), 0x90, 0, 64, .cnt, 0⟩

/-- The register fields from 0x100 on and the counters of a page, by page kind and instance. -/
def ownFields (k : PageKind) (n : Nat) : List Field :=
  match k with
  | .glb => [DEG_LOCAL_ONLY, DEG_HOLDOVER, DEG_GROUP_MISMATCH, DEG_GROUP_HELD, DEG_CAP_QUADS, DEG_CAP_ZERO, DEG_WEIGHT_LATE, DEG_MAINT_TICK, DEG_TIER_ABSENT, DEG_PLP_OFF, DEG_COPY_DEFICIT, DEG_NO_HOST, GLB_PART_NUM, GLB_VARIANT, GLB_STEPPING, GLB_SERIAL_LO, GLB_SERIAL_HI, GLB_LOT, GLB_BOOT_STAGE, GLB_INT_VECTOR, GLB_ALERT_EN, GLB_LOCK_ALL] ++
      ((List.range 3).map GLB_GAL_ENABLED) ++
      ((List.range 3).map GLB_GAL_RETIRED) ++
      [GLB_QUAD_UNAVAIL] ++
      ((List.range 8).map GLB_INT_SUMMARY) ++
      [GLB_BAD_ACCESS]
  | .time => [TIME_NOW_NS, TIME_NOW_FRAC, TIME_SRC, TIME_PTP_DOMAIN, TIME_UP_PORT, TIME_SERVO, TIME_OFFSET, TIME_HOLD_BOUND, TIME_ALIGN_TOL, TIME_WRITE_STATUS] ++
      [TIME_SYNC_RX, TIME_SYNC_MISSED, TIME_STEP_CORRECTIONS, TIME_SERVO_CHANGES]
  | .tick => [TICK_EPOCH, TICK_PERIOD_NS, TICK_PERIOD_NEXT, TICK_CHANGE_AT, TICK_GUARD_NS, TICK_MAINT_EVERY, TICK_NOW, TICK_PLAN_BASE, GROUP_MISMATCH, LOCAL_ONLY, TICK_WRITE_STATUS] ++
      [TICK_CARRIED_STEPS, TICK_SYNC_CARRY, TICK_MAINT_CARRY, TICK_EMPTY_PLAN]
  | .pwr => [POWER_CAP_W, POWER_CAP_EFF_W, POWER_MEAS_W, POWER_EST_W, PWR_PLANS_SEEN, HOLDUP_E_DJ, HOLDUP_C_MF, HOLDUP_ESR_UOHM, HOLDUP_V_MV, HOLDUP_MIN_J, HOLDUP_WARN_J, HOLDUP_MEAS_HOURS, HOLDUP_MEAS_NOW, HOLDUP_STATE] ++
      ((List.range 68).map DOM_STATE) ++
      ((List.range 68).map DOM_MAX) ++
      ((List.range 68).map DOM_UNPLANNED) ++
      [PWR_STATE_CHANGES, PWR_UNPLANNED_WAKES, PWR_CAP_QUAD_TICKS, HOLDUP_MEASUREMENTS, HOLDUP_DISCHARGES]
  | .therm => [COOL_IN_MC, COOL_OUT_MC, COOL_FLOW_MLMIN, THERM_TP_MC, THERM_CAP_W, TJ_CD0_C, TJ_CD1_C, THERM_LIMIT_C, THERM_TRIP_C, COOL_FLOW_MIN, THERM_HORIZON_S] ++
      [THERM_CAP_TICKS, THERM_LIMIT_TICKS, THERM_FLOW_ALARMS]
  | .sec => [SEC_FW_BANK, SEC_FW_FALLBACK, SEC_DEBUG_UNLOCKED, SEC_TENANT_PRESENT, SEC_TENANT_RETIRED, SEC_FABRIC_PRESENT, SEC_FABRIC_RETIRED] ++
      ((List.range 8).map SEC_PART_KEY) ++
      [SEC_ATTEST_LEFT] ++
      ((List.range 8).map SEC_PART_OBJECTS) ++
      ((List.range 8).map SEC_MR) ++
      [SEC_ATTESTS, SEC_SIG_FAIL, SEC_EXTENDS, SEC_XTS_BYTES, SEC_GCM_FRAMES]
  | .ras => [RAS_FATAL, RAS_DUMP_PRESENT, RAS_FATAL_CAUSE, RAS_DUMP_BASE, RAS_LOG_BASE, RAS_LOG_SEQ, RAS_WDT_MS, RAS_GAL_TEST_HOURS, RAS_HBM_CE_LIMIT, RAS_GAL_UE_LIMIT, RAS_INJECT_EN, RAS_SPARE_GAL_CD0, RAS_SPARE_GAL_CD1, RAS_SPARE_HBM_USED, RAS_HBM_RETIRED_KIB] ++
      [RAS_CE, RAS_STEP_ERR, RAS_OBJ_RECOVERED, RAS_OBJ_LOST, RAS_SPARES_USED, RAS_WATCHDOG_RESTARTS, RAS_SELFTESTS]
  | .mbox => [MBOX_OWNER, MBOX_CLAIM, MBOX_RELEASE, MBOX_OPCODE, MBOX_TAG, MBOX_GO, MBOX_BUSY, MBOX_STATUS, MBOX_DONE_TAG] ++
      ((List.range 4).map MBOX_ARG) ++
      [MBOX_RESULT, MBOX_DATA] ++
      [MBOX_COMMANDS, MBOX_DENIED, MBOX_TIMEOUTS]
  | .part => [PART_ENABLED n, PART_QUADS n, PART_CONTEXTS n, PART_WEIGHT n, PART_DESC_QUOTA n, PART_DESC_USED n, PART_T1_QUOTA n, PART_T1_USED n, PART_FILL_PCT n, PART_CTX_BASE n, PART_RESIDENT_MAP n] ++
      [PART_UNITS n, PART_STEPS_ADMITTED n, PART_ADMIT_HELD n, PART_SWITCHES n, PART_SWITCH_NS n]
  | .host => [SLOT_STATE n, SLOT_PART n, SLOT_KEY n, SLOT_ADMIN n, WIN_SIZE n, WIN_BASE n, SQ0_BASE n, CQ0_BASE n, EVT0_BASE n, EVT0_HEAD_LINE n, SQ0_LOG2 n, CQ0_LOG2 n, EVT0_LOG2 n, Q0_ENABLE n, Q0_FAULT n, QUEUE_BURST n, HOST_BI_TIMEOUT_US n, INT_HOLDOFF_NS n, CQ0_VECTOR n, EVT0_VECTOR n] ++
      [HOST_CMDS_ACCEPTED n, HOST_DB_ERR n, HOST_BI_TIMEOUTS n, HOST_EVENT_DROPPED n, HOST_STREAM_HELD n, HOST_LINES_ABANDONED n, HOST_WRITES_DISCARDED n, HOST_WINDOW_MISS n]
  | .sess => [SESS_TABLE_BASE, SESS_COUNT, SESS_GRACE_MS, SESS_INTAKE_CHUNK, SESS_RETRY_LIMIT] ++
      [SESS_CREATED, SESS_STEPS_COMMITTED, SESS_REWINDS, SESS_EXPIRED, SESS_FORKS, SESS_PUBLISH_CONFLICTS, SESS_FORWARDED, KV_PREFIX_HIT_TOKENS, KV_PREFIX_COLLISIONS, KV_COW_COPIES, KV_COMPACTIONS, KV_REF_SATURATED, SESS_EVENTS_DISCARDED]
  | .stw => [STW_T1_FIXED, STW_T1_POOL, STW_T1_FREE, STW_T1_LOW, STW_PRESSURE_POLICY, STW_LANDING_KV_KIB, STW_RATE_T2, STW_RATE_T3, STW_RATE_T4, STW_T3_BYTES, STW_T3_REGIONS, STW_T4_FREE, STW_T4_LARGEST] ++
      ((List.range 8).map RANGE_ROOT) ++
      [STALL_T2_LATE, STALL_T3_LATE, STALL_T4_LATE, STALL_WEIGHT_LATE, STALL_COPY_BW, STALL_FABRIC_LOST, STW_PROMOTED_BYTES, STW_DEMOTED_BYTES, STW_CLEAN_DEMOTIONS, STW_DEMOTE_NOROOM, STW_PRESSURE_PARKS, STW_ADMIT_HELD, STW_PROMOTE_WAIT]
  | .newel => [NT0_FIRST_GROUP, NT0_GROUPS, NT0_PRIO_MODE, NT0_POWER_MODE, NT1_FIRST_GROUP, NT1_GROUPS, NT1_PRIO_MODE, NT1_POWER_MODE, NEWEL_DIR_BASE, NEWEL_DIR_ENTRIES, NEWEL_STASH_USED, NEWEL_ROWS_VALID] ++
      [NEWEL_LOOKUPS, NEWEL_HITS, NEWEL_MISSES, NEWEL_FALSE_HIT, NEWEL_FALLBACK, NEWEL_SHADOW_CE, NEWEL_SHADOW_UE, NEWEL_PREFIX_DROP, NEWEL_PREFIX_EVICT]
  | .txu => [TXU_BUSY n, TXU_VCACHE_KIB n, TXU_VOCABS n] ++
      [TXU_BYTES_IN n, TXU_TOKENS_IN n, TXU_IN_SUBPARTS n, TXU_OUT_FFFD n, TXU_STOPS n, TXU_VCACHE_MISS n, TXU_VCACHE_CARRY n]
  | .fret => [FRET_PROG_KIB, FRET_PROGS, FRET_STOPSETS] ++
      [FRET_MASKS, FRET_MASK_TRIM, FRET_FORCED_END, FRET_DEAD, FRET_LATE_CARRY]
  | .plec => [PLEC_REC_BASE, PLEC_BIAS_ENTRIES, PLEC_BIAS_LISTS] ++
      [PLEC_DRAWS, PLEC_GREEDY, PLEC_EMPTY_MASK, PLEC_SCORE_SAT, PLEC_TIE_STEPS, PLEC_LIST_ERR]
  | .ckpt => [CKPT_EPOCH, CKPT_PHASE, CKPT_RATE_GBPS, CKPT_BUF_MIB, CKPT_DEDUP_BASE, CKPT_DEDUP_USED] ++
      ((List.range 8).map CKPT_STORE_FREE) ++
      [CKPT_CAPTURES, CKPT_BYTES_WRITTEN, CKPT_DEDUP_HITS, CKPT_DEDUP_FULL, CKPT_COW_COPIES, CKPT_COW_BYTES, CKPT_VERIFY_RETRIES, CKPT_RESTORES, CKPT_RESTORE_FALLBACK]
  | .vsrch => [VS_INDEXES, VS_TABLE_BASE, VS_PASS_QUERIES, VS_SIDE_BYTES] ++
      [VS_SEARCHES, VS_PASSES, VS_CODES_SCANNED, DUP_MERGED, VS_TOMBSTONED, VS_FILTERED, VS_FILTER_SHORT, VS_LOST_UNITS, VS_MERGE_BACKS]
  | .fab => [FAB_FEC_CORR n, FAB_FEC_UNCORR n, FAB_RETRY n, FAB_GCM_FAIL n, FAB_LANE_SWAPS n, FAB_RETRAINS n, FAB_POLICE_DROP n, FAB_TX_FLITS n, FAB_RX_FLITS n, FAB_TC0_FLITS n, FAB_CAL_SKIPPED n, FAB_SALT_ROLLS n]
  | .fabc => [FAB_SELF, FAB_ROUTED, FAB_MODULES, FAB_COPY_T2, FAB_COPY_T4, FAB_ROUTE_GEN, FAB_ROUTE_BASE, FAB_EXPORT_GIB, FAB_EXPORT_BASE, FAB_EXPORT_USED, FAB_EXTENTS, FAB_PUSH_BASE, FAB_TXN_TIMEOUT_US, FAB_PEER_TIMEOUT_US, FAB_REPAIR_GBPS, FAB_COPY_DEFICIT] ++
      ((List.range 16).map FAB_SUSPECT_MAP) ++
      ((List.range 16).map FAB_LOST_MAP) ++
      [FAB_TXN_SENT, FAB_TXN_TIMEOUTS, FAB_RX_MALFORMED, FAB_RX_FENCED, FAB_PEERS_LOST, FAB_REPAIR_BYTES, FAB_PUSH_WAIT, FAB_GROUP_HELD]
  | .nme => [NME_PIPES, NME_LANES, NME_QUEUED] ++
      [NME_PATTN_SERVED, NME_OPS, NME_BYTES, NME_DENIED, NME_PAGE_ABSENT, NME_READ_ERR]
  | .tsched => [GL_ACTIVE, GL_ARMED, GL_LOAD_ADDR, GL_LOAD_ID, GL_LOAD_STATUS, GL_SWITCH_ID, GL_SWITCH_AT, GL_SWITCH_STATUS] ++
      ((List.range 7).map fun c => WFQ_WEIGHT (c + 1)) ++
      [TSCHED_REFILL_NS, TC0_INJECT_MBPS, COLL_CLOSE_MASK, GATE_GUARD_NS] ++
      ((List.range 16).map PORT_EN) ++
      ((List.range 16).map PORT_RETRAIN) ++
      ((List.range 16).map KEY_SLOT) ++
      ((List.range 16).map KEY_NEXT) ++
      ((List.range 16).map PORT_STATE) ++
      ((List.range 16).map DOWN_REASON) ++
      ((List.range 16).map LANE_ACTIVE) ++
      ((List.range 16).map LANE_FAILED) ++
      ((List.range 16).map PEER_MODULE) ++
      ((List.range 16).map PEER_PORT) ++
      ((List.range 16).map PEER_VALID) ++
      ((List.range 16).map KEY_SWITCH_AT) ++
      ((List.range 16).map LANE_SER_LIMIT) ++
      ((List.range 16).flatMap fun p => (List.range 7).map fun c => SHAPE_RATE p (c + 1)) ++
      ((List.range 16).flatMap fun p => (List.range 7).map fun c => SHAPE_BURST p (c + 1)) ++
      ((List.range 16).flatMap fun p => (List.range 7).map fun c => POLICE_RATE p (c + 1)) ++
      ((List.range 16).flatMap fun p => (List.range 7).map fun c => POLICE_BURST p (c + 1)) ++
      [TSCHED_GATE_WAITS, TSCHED_GATE_OVERRUN, TSCHED_GL_SWITCHES, TSCHED_TC0_FULL]
  | .hbm => [HBM_STATE n, HBM_TEMP n, HBM_RETIRED_KIB n] ++
      [HBM_CE n, HBM_UE n, HBM_RETRAINS n, HBM_SCRUB_LINES n]
  | .flc => [FLC_STATE n, FLC_DIES n, FLC_TEMP n, FLC_SPARE_BLOCKS n, FLC_BAD_BLOCKS n] ++
      [FLC_READS n, FLC_PROGRAMS n, FLC_ERASES n, FLC_READ_RETRY n, FLC_SOFT_DECODE n, FLC_LDPC_CORR_BITS n, FLC_PROG_FAIL n, FLC_ERASE_FAIL n, FLC_SUSPENDS n]
  | .ftl => [FTL_SLC_PCT, FTL_GC_LOW, FTL_GC_URGENT, FTL_GC_HIGH, FTL_FOLD_LOW_PCT, FTL_FOLD_HIGH_PCT, FTL_FOLD_BACKING, FTL_PATROL_DAYS, FTL_LOGICAL_UNITS, FTL_MAP_BASE, FTL_FREE_TLC, FTL_FREE_SLC, FTL_STATE, FTL_PLP, FTL_HEALTH_ADDR, FTL_HEALTH_GET, FTL_HEALTH_STATUS, FTL_HEALTH_SLOT] ++
      [FTL_WRITE_BYTES, FTL_SLC_BYPASS, FTL_FOLD_BYTES, FTL_FOLD_RECLAIMED, FTL_GC_BYTES, FTL_GC_VICTIMS, FTL_PARITY_RECOVER, FTL_REMOTE_RECOVER, FTL_UNCORRECTABLE, FTL_PLP_FLUSHES]
  | .gal => [GAL_PHYS n, GAL_LOGICAL n, GAL_QUAD n, GAL_UNAVAIL n, GAL_RESIDENT_CTX n] ++
      [ATTN_KEYS_READ n, ATTN_SCORE_SAT n, ATTN_V_SAT n, ATTN_REMOTE_SENT n, ATTN_REMOTE_STALE n, ATTN_REMOTE_FAIL n, NUM_BLOCK_SAT n, NUM_ACC_SAT n, NUM_ACC_LOW n, NUM_NONFINITE n, NUM_CONV_SAT n]

end Reg

/-- The kind and the instance of each page index in use (R662). -/
def pageKind (p : Nat) : Option (PageKind × Nat) :=
  if 0x0 ≤ p ∧ p < 0x1 then some (.glb, p - 0x0)
  else if 0x1 ≤ p ∧ p < 0x2 then some (.time, p - 0x1)
  else if 0x2 ≤ p ∧ p < 0x3 then some (.tick, p - 0x2)
  else if 0x3 ≤ p ∧ p < 0x4 then some (.pwr, p - 0x3)
  else if 0x4 ≤ p ∧ p < 0x5 then some (.therm, p - 0x4)
  else if 0x5 ≤ p ∧ p < 0x6 then some (.sec, p - 0x5)
  else if 0x6 ≤ p ∧ p < 0x7 then some (.ras, p - 0x6)
  else if 0x7 ≤ p ∧ p < 0x8 then some (.mbox, p - 0x7)
  else if 0x8 ≤ p ∧ p < 0x10 then some (.part, p - 0x8)
  else if 0x10 ≤ p ∧ p < 0x20 then some (.host, p - 0x10)
  else if 0x20 ≤ p ∧ p < 0x21 then some (.sess, p - 0x20)
  else if 0x21 ≤ p ∧ p < 0x22 then some (.stw, p - 0x21)
  else if 0x22 ≤ p ∧ p < 0x23 then some (.newel, p - 0x22)
  else if 0x23 ≤ p ∧ p < 0x27 then some (.txu, p - 0x23)
  else if 0x27 ≤ p ∧ p < 0x28 then some (.fret, p - 0x27)
  else if 0x28 ≤ p ∧ p < 0x29 then some (.plec, p - 0x28)
  else if 0x29 ≤ p ∧ p < 0x2a then some (.ckpt, p - 0x29)
  else if 0x2a ≤ p ∧ p < 0x2b then some (.vsrch, p - 0x2a)
  else if 0x30 ≤ p ∧ p < 0x40 then some (.fab, p - 0x30)
  else if 0x40 ≤ p ∧ p < 0x41 then some (.fabc, p - 0x40)
  else if 0x41 ≤ p ∧ p < 0x42 then some (.nme, p - 0x41)
  else if 0x42 ≤ p ∧ p < 0x43 then some (.tsched, p - 0x42)
  else if 0x50 ≤ p ∧ p < 0x58 then some (.hbm, p - 0x50)
  else if 0x60 ≤ p ∧ p < 0x80 then some (.flc, p - 0x60)
  else if 0x80 ≤ p ∧ p < 0x81 then some (.ftl, p - 0x80)
  else if 0x100 ≤ p ∧ p < 0x184 then some (.gal, p - 0x100)
  else none

/-- BLK_TYPE of each page kind (block type table of R660). -/
def blkType (k : PageKind) : Nat :=
  match k with
  | .glb => 1
  | .time => 2
  | .tick => 3
  | .pwr => 4
  | .therm => 5
  | .sec => 6
  | .ras => 7
  | .mbox => 8
  | .part => 9
  | .host => 10
  | .sess => 11
  | .stw => 12
  | .newel => 13
  | .txu => 14
  | .fret => 15
  | .plec => 16
  | .ckpt => 17
  | .vsrch => 18
  | .fab => 19
  | .fabc => 20
  | .nme => 21
  | .tsched => 22
  | .hbm => 23
  | .flc => 24
  | .ftl => 25
  | .gal => 26

/-- Interrupt causes that each page defines (R492, R588, R592, R654, R663, R664, R671). -/
def intMask (k : PageKind) : Nat :=
  match k with
  | .glb => 3
  | .time => 15
  | .tick => 31
  | .pwr => 15
  | .therm => 7
  | .sec => 0
  | .ras => 0
  | .mbox => 0
  | .part => 0
  | .host => 0
  | .sess => 0
  | .stw => 0
  | .newel => 0
  | .txu => 0
  | .fret => 0
  | .plec => 0
  | .ckpt => 0
  | .vsrch => 0
  | .fab => 0
  | .fabc => 0
  | .nme => 0
  | .tsched => 0
  | .hbm => 0
  | .flc => 0
  | .ftl => 31
  | .gal => 0

/-- CAP_LOCK: the page holds RWL fields. -/
def capLock (k : PageKind) : Nat :=
  match k with
  | .glb => 1
  | .time => 1
  | .tick => 1
  | .pwr => 1
  | .therm => 1
  | .sec => 0
  | .ras => 1
  | .mbox => 0
  | .part => 0
  | .host => 0
  | .sess => 1
  | .stw => 1
  | .newel => 0
  | .txu => 0
  | .fret => 0
  | .plec => 0
  | .ckpt => 1
  | .vsrch => 1
  | .fab => 0
  | .fabc => 1
  | .nme => 0
  | .tsched => 1
  | .hbm => 0
  | .flc => 0
  | .ftl => 1
  | .gal => 0

/-- CAP_COUNTERS: counters at 0x040 onward. -/
def capCounters (k : PageKind) : Nat :=
  match k with
  | .glb => 1
  | .time => 4
  | .tick => 4
  | .pwr => 5
  | .therm => 3
  | .sec => 5
  | .ras => 7
  | .mbox => 3
  | .part => 5
  | .host => 8
  | .sess => 13
  | .stw => 13
  | .newel => 9
  | .txu => 7
  | .fret => 5
  | .plec => 6
  | .ckpt => 9
  | .vsrch => 9
  | .fab => 12
  | .fabc => 8
  | .nme => 6
  | .tsched => 4
  | .hbm => 4
  | .flc => 9
  | .ftl => 10
  | .gal => 11

/-- Page indices in use (R662). -/
def pagesInUse : List Nat :=
  (List.range 1).map (· + 0x0) ++ (List.range 1).map (· + 0x1) ++ (List.range 1).map (· + 0x2) ++ (List.range 1).map (· + 0x3) ++ (List.range 1).map (· + 0x4) ++ (List.range 1).map (· + 0x5) ++ (List.range 1).map (· + 0x6) ++ (List.range 1).map (· + 0x7) ++ (List.range 8).map (· + 0x8) ++ (List.range 16).map (· + 0x10) ++ (List.range 1).map (· + 0x20) ++ (List.range 1).map (· + 0x21) ++ (List.range 1).map (· + 0x22) ++ (List.range 4).map (· + 0x23) ++ (List.range 1).map (· + 0x27) ++ (List.range 1).map (· + 0x28) ++ (List.range 1).map (· + 0x29) ++ (List.range 1).map (· + 0x2a) ++ (List.range 16).map (· + 0x30) ++ (List.range 1).map (· + 0x40) ++ (List.range 1).map (· + 0x41) ++ (List.range 1).map (· + 0x42) ++ (List.range 8).map (· + 0x50) ++ (List.range 32).map (· + 0x60) ++ (List.range 1).map (· + 0x80) ++ (List.range 132).map (· + 0x100)


/-- BLK_PWR of each page (R685): the domain, or 0x7F. A GAL page reads its quad, which is set at boot. -/
def blkPwr (k : PageKind) (n : Nat) : Nat :=
  match k with
  | .glb | .time | .tick | .pwr | .therm | .ras => 0x7F
  | .sec | .mbox | .ftl => 67
  | .part | .sess | .stw | .ckpt => 0x7F
  | .host => 60
  | .newel => 0x7F
  | .txu | .fret => 65
  | .plec | .vsrch => 66
  | .fab => 40 + n
  | .fabc | .nme | .tsched => 0x7F
  | .hbm => 32 + n
  | .flc => 56 + n / 8
  | .gal => n / 4

namespace Reg

/-- BLK_TYPE of page p (R660). -/
def BLK_TYPE (p : Nat) (k : PageKind) : Field := ⟨p, 0x000, 0, 16, .ro, blkType k⟩
/-- BLK_INST (R660). -/
def BLK_INST (p n : Nat) : Field := ⟨p, 0x000, 16, 9, .ro, n⟩
/-- BLK_VER_MINOR (R660). -/
def BLK_VER_MINOR (p : Nat) : Field := ⟨p, 0x004, 0, 8, .ro, 0⟩
/-- BLK_VER_MAJOR (R660). -/
def BLK_VER_MAJOR (p : Nat) : Field := ⟨p, 0x004, 8, 8, .ro, 1⟩
/-- CAP_LOCK (R660). -/
def CAP_LOCK (p : Nat) (k : PageKind) : Field := ⟨p, 0x008, 0, 1, .ro, capLock k⟩
/-- CAP_INT (R660). -/
def CAP_INT (p : Nat) (k : PageKind) : Field := ⟨p, 0x008, 1, 1, .ro, if intMask k = 0 then 0 else 1⟩
/-- CAP_COUNTERS (R660). -/
def CAP_COUNTERS (p : Nat) (k : PageKind) : Field := ⟨p, 0x008, 8, 5, .ro, capCounters k⟩
/-- LOCK, bit 0 of BLK_CTRL (R8, R660). -/
def LOCK (p : Nat) : Field := ⟨p, 0x00C, 0, 1, .w1s, 0⟩
/-- CNT_FREEZE (R660). -/
def CNT_FREEZE (p : Nat) : Field := ⟨p, 0x00C, 1, 1, .rw, 0⟩
/-- CNT_CLEAR (R660). -/
def CNT_CLEAR (p : Nat) : Field := ⟨p, 0x00C, 2, 1, .wo, 0⟩
/-- PRESENT (R660): the page of an absent block reads 0 in every byte (R659). -/
def PRESENT (p : Nat) : Field := ⟨p, 0x010, 0, 1, .ro, 1⟩
/-- LOCKED, the mirror of LOCK (R660). -/
def LOCKED (p : Nat) : Field := ⟨p, 0x010, 1, 1, .ro, 0⟩
/-- DOM_STATE_M (R660). -/
def DOM_STATE_M (p : Nat) : Field := ⟨p, 0x010, 2, 2, .ro, 0⟩
/-- BLK_INT_STATUS (R660). -/
def BLK_INT_STATUS (p : Nat) : Field := ⟨p, 0x014, 0, 32, .w1c, 0⟩
/-- BLK_INT_ENABLE (R660). -/
def BLK_INT_ENABLE (p : Nat) : Field := ⟨p, 0x018, 0, 32, .rw, 0⟩
/-- BLK_INT_SET (R660). -/
def BLK_INT_SET (p : Nat) : Field := ⟨p, 0x01C, 0, 32, .wo, 0⟩
/-- BLK_ERR_LOG0-3: bytes 0-15 of the block's newest error log record (R627, R660). -/
def BLK_ERR_LOG (p : Nat) : Field := ⟨p, 0x020, 0, 128, .ro, 0⟩
/-- BLK_PWR (R685). -/
def BLK_PWR (p : Nat) (k : PageKind) (n : Nat) : Field := ⟨p, 0x030, 0, 7, .ro, blkPwr k n⟩
/-- BLK_PART (R660): 0xFF for shared blocks; the others follow from other state. -/
def BLK_PART (p : Nat) (k : PageKind) : Field :=
  ⟨p, 0x034, 0, 8, .ro, match k with
    | .part => 2 ^ (p - 8)
    | .host => 0
    | .gal => 1
    | _ => 0xFF⟩

/-- The common header of page p (R660). -/
def header (p : Nat) (k : PageKind) (n : Nat) : List Field :=
  [BLK_TYPE p k, BLK_INST p n, BLK_VER_MINOR p, BLK_VER_MAJOR p, CAP_LOCK p k, CAP_INT p k,
   CAP_COUNTERS p k, LOCK p, CNT_FREEZE p, CNT_CLEAR p, PRESENT p, LOCKED p, DOM_STATE_M p,
   BLK_INT_STATUS p, BLK_INT_ENABLE p, BLK_INT_SET p, BLK_ERR_LOG p, BLK_PWR p k n, BLK_PART p k]

end Reg

/-- Every field of a page in use, header first; none for a page index the map does not list (R659). -/
def pageFields (p : Nat) : List Field :=
  match pageKind p with
  | some (k, n) => Reg.header p k n ++ Reg.ownFields k n
  | none => []


end Sys2Proof.Machine
end

