-- ==== Sys2Proof/Machine/State/Common.lean ====
section
/-! DEFINITION. Commands on their way through the device, and the record of everything the device
sends outside: completions, records, messages, pin changes. -/

namespace Sys2Proof.Machine

open Sys2Proof

/-- Where a command came from: a submission queue of a slot (R95), or another module that forwarded it
at control endpoint 0x0001 (R125). -/
inductive Origin where
  | host (slot sq cid sqHead : Nat)
  | peer (src tag : Nat)
  deriving DecidableEq, Repr

/-- What a command waits for after its acceptance (R91, R134, R136, R287). -/
inductive Wait where
  /-- Accepted with its `t` of R68 fixed. -/
  | none
  /-- Its inbox snapshot is running (R91): lines left to read. -/
  | snapshot (lines : List Nat)
  /-- Its tokenisation pass is running or queued (R287). -/
  | tokenise
  /-- Its effect waits for a unit and completes later (a load, a copy, a search): the owner chapter. -/
  | unit
  deriving DecidableEq, Repr

/-- A command with its origin, the partition and the ADMIN flag of the slot it was issued from, its
instant and order of acceptance, the plan it enters (R68), and its inbox snapshot (R91). -/
structure Cmd where
  c : HostCmd
  origin : Origin
  part : Nat
  admin : Bool
  t : Nat
  order : Nat
  plan : Nat
  wait : Wait
  inbox : Bytes
  /-- The code that its checks at acceptance gave, written at the seal (R103, R130). -/
  fail : Option Nat
  deriving DecidableEq, Repr

/-- A message to a control endpoint of another module (R402, endpoints 0x0000-0x000F) or to the
collective and attention endpoints. -/
inductive Msg where
  /-- Tick beacon (R59). -/
  | beacon (number period epoch : Nat)
  /-- Step announcement (R61). -/
  | announce (key : SessKey) (step tick : Nat)
  /-- Commit vote (R145). -/
  | vote (key : SessKey) (step : Nat)
  /-- Forwarded command (R125). -/
  | forward (tag part : Nat) (c : HostCmd) (inbox : Bytes)
  /-- Completion of a forwarded command (R125). -/
  | completion (tag status result step : Nat) (data : Bytes)
  /-- Partial-attention request or response (R219, R224). -/
  | pattnRequest (tag keySlot : Nat) (body : Bytes)
  | pattnResponse (body : Bytes)
  /-- All-reduce partial and all-gather shard of a layer half (R252, R253). -/
  | layerPartial (key : SessKey) (step layer half : Nat) (elems : List Nat)
  | layerShard (key : SessKey) (step layer half : Nat) (elems : List Nat)
  /-- Top-k list of a step (R263). -/
  | peerList (key : SessKey) (step : Nat) (entries : List (Nat × Int))
  /-- Remainder message (R268). -/
  | remainder (body : Bytes)
  /-- Token ids of a home tokenisation (R288). -/
  | tokens (key : SessKey) (ids : List Nat)
  /-- Loaded data and its confirmation (R277, R313, R314). -/
  | load (kind : LoadKind) (handle model : Nat) (data : Bytes)
  | loadConfirm (kind : LoadKind) (handle model : Nat)
  /-- The receiver has no T1 room for loaded data (R683): the message completes with NO_SPACE. -/
  | loadNoRoom (kind : LoadKind) (handle model : Nat)
  /-- Region pin and unpin (R158, R159). -/
  | regionPin (name version : Nat) (pin : Bool)
  /-- Capture announcement, shard vote and restore (R521, R529, R532). -/
  | capture (a : CaptureMsg)
  | shardVote (model ckpt : Nat)
  | restore (r : RestoreMsg)
  /-- Session migration: the state of one member (R137). -/
  | migrate (key : SessKey) (data : Bytes)
  deriving DecidableEq, Repr

/-- One thing the device has done towards the outside, oldest first in `Dev.out`. -/
inductive Out where
  /-- A write into host memory: a completion entry, a ring record, or command output data. -/
  | hostWrite (slot addr : Nat) (data : Bytes)
  /-- An MSI-X message (R106, R661). -/
  | msix (slot vector : Nat)
  /-- A back-invalidate of a host window line (R88-R91). -/
  | backInv (slot line : Nat)
  /-- Data of a CXL.mem read (R85). -/
  | memData (slot addr : Nat) (data : Bytes)
  /-- Status of a fabric manager command (R79). -/
  | fmStatus (slot status : Nat)
  /-- Data of a register read. -/
  | regData (via : Via) (offset size value : Nat)
  /-- A message to another module. -/
  | msg (dst : Nat) (m : Msg)
  /-- A fabric transaction or completion handed to the port parts (R402). -/
  | txn (t : FabTxn)
  /-- A frame or flit put on a port (R431-R433, R449). -/
  | frame (port : Nat) (f : Frame)
  | flit (port : Nat) (kind : Nat) (seq : Nat)
  /-- A plan entry launched at a counter value (R29, R50). -/
  | launch (at_ : Nat) (e : PlanEntry)
  /-- PPS_OUT rises (R46). -/
  | pps (at_ : Nat)
  /-- The alert line changes (R629, R661). -/
  | alert (on : Bool)
  /-- A read of host memory (a watched line, a loaded file, a gate list). -/
  | hostRead (slot addr len : Nat)
  deriving DecidableEq, Repr

end Sys2Proof.Machine
end

