-- ==== Sys2Proof/Machine/State/Kv.lean ====
section
/-! DEFINITION. State of key-value pages and of the memory tiers (spec/05, spec/11). -/

namespace Sys2Proof.Machine

open Sys2Proof

/-- A KV page on this module: its header (R169), its token array, and its page reference table entry
(R177, R349, R412). `t0` is its Landing location while it is placed there (R358). The plane bytes are
the free function Config.planeByte of the page's history (log entry 8). -/
structure Page where
  id : Nat
  cls : Nat
  fmt : Nat
  layers : Nat
  heads : Nat
  headDim : Nat
  firstPos : Nat
  valid : Nat
  epoch : Nat
  model : Nat
  tokens : List Nat
  /-- Tokens of the history before the page's first position: its planes depend on them (log entry 8). -/
  prior : List Nat
  /-- Profile, partition and tenant key slot under which the page is kept (R181, R350). -/
  profile : Nat
  part : Nat
  keySlot : Nat
  /-- Plane bytes that came from another module (R418) or a checkpoint; none for planes computed here. -/
  planes : Option Bytes
  count : Nat
  tier : Nat
  loc : Nat
  backTier : Nat
  backLoc : Nat
  t0 : Option Nat
  copies : Nat
  copyIndex : Nat
  /-- A context has pinned the page in Landing, or a backward pass is pending (R227, R552). -/
  pinned : Bool
  /-- The HBM stack of its T1 copy (R568). -/
  stack : Nat
  /-- References at the last seal: a page shared then is private for no append until the next (R178, R180). -/
  sealRefs : Nat
  deriving DecidableEq, Repr

/-- A compaction build (R188-R191): the run's short pages and the pages being built. -/
structure KvBuild where
  key : SessKey
  run : Nat
  firstPos : Nat
  endPos : Nat
  old : List Nat
  new_ : List Nat
  park : Bool
  /-- The park that began it was a pressure park (R371). -/
  pressure : Bool
  done : Bool
  deriving DecidableEq, Repr

structure KvSt where
  pages : List Page
  builds : List KvBuild
  /-- Index of the next PAGE_ID this module makes (R169). -/
  nextPage : Nat
  /-- HBM address of the page reference table, which no register names (R177); 0 before HBM is initialised. -/
  refBase : Nat
  deriving DecidableEq, Repr

/-- A range granule and its range table entry (R353, R354). -/
structure Granule where
  part : Nat
  idx : Nat
  tier : Nat
  pinT1 : Bool
  hostWindow : Bool
  lost : Bool
  backTier : Nat
  backLoc : Nat
  copies : Nat
  epoch : Nat
  loc : Nat
  copyIndex : Nat
  deriving DecidableEq, Repr

/-- A T3 region (R373). -/
structure T3Region where
  num : Nat
  slot : Nat
  base : Nat
  len : Nat
  deriving DecidableEq, Repr

/-- A park policy (R368): tier order and KEEP_TOKENS. -/
structure Policy where
  order : List Nat
  keep : Nat
  deriving DecidableEq, Repr

/-- A promotion in flight (R359-R362): its source tier, bytes, and the T1 location it is copied to. -/
structure Promo where
  obj : ObjRef
  srcTier : Nat
  bytes : Nat
  loc : Nat
  deriving DecidableEq, Repr

/-- A demotion in flight (R366, R367): the object, its bytes, the tier it is being written to and the
location there (T3 and T4), the tiers left to try, the command it serves, and the session whose park ordered it. -/
structure Demo where
  obj : ObjRef
  bytes : Nat
  tier : Nat
  loc : Nat
  /-- Copies made in T2, and their copy table entry (R412). -/
  copies : Nat
  copyIndex : Nat
  rest : List Nat
  cmd : Option Cmd
  park : Option SessKey
  deriving DecidableEq, Repr

/-- What a Stairwell copy of class 1 to 4 is for (R363): a private copy of a shared open page, the copy of what a commit
writes into a capture buffer, a T0 write-back, a range copy, a slice image. -/
inductive CopyKind where
  | privatePage (key : SessKey) (page : Nat)
  | capture (key : SessKey)
  | writeBack (obj : ObjRef)
  | rangeIn (cmd : Cmd)
  | rangeOut (cmd : Cmd)
  | image (cmd : Cmd) (handle : Nat)
  deriving DecidableEq, Repr

/-- A copy in flight and the identifier STAIRWELL_COPY_DONE names. A private copy that is `done` stays until the append that
it was made for commits. -/
structure StwCopy where
  id : Nat
  cls : Nat
  kind : CopyKind
  bytes : Nat
  done : Bool
  deriving DecidableEq, Repr

/-- A loaded slice image (R247, R376-R379). `window` is W, 0 for RESIDENT. `content` is the SHA-256 of its
bytes, which stands for its content in the free forward pass. -/
structure Model where
  handle : Nat
  layers : Nat
  hidden : Nat
  qHeads : Nat
  kvHeads : Nat
  /-- KV heads of the whole model. -/
  kvHeadsAll : Nat
  headDim : Nat
  vocab : Nat
  kvFormat : Nat
  group : Nat
  slice : Nat
  members : List Nat
  /-- One layer attention record per layer: score scale, mask kind, out format, window, sink, mask
  handle (R205). -/
  attn : List (Nat × Nat × Nat × Nat × Nat × Nat)
  len : Nat
  content : Bytes
  bytes : Nat
  window : Nat
  srcTier : Nat
  src : Nat
  srcSlot : Nat
  srcLost : Bool
  /-- Layers now in the window's slots, and the next layer to fill (R377). -/
  filled : List Nat
  nextFill : Nat
  part : Nat
  deriving DecidableEq, Repr

/-- Key-value pages at reset: none. -/
def KvSt.reset : KvSt := { pages := [], builds := [], nextPage := 0, refBase := 0 }

structure TierSt where
  granules : List Granule
  t3 : List T3Region
  policies : List (Nat × Policy)
  promos : List Promo
  demos : List Demo
  copies : List StwCopy
  nextCopy : Nat
  models : List Model
  /-- Partitions held by PARTITION_PULL (R386). -/
  pulled : List Nat
  /-- Range, load and pull commands that wait for their transfers (R384, R386). -/
  waiting : List Cmd
  /-- T1_LOW has been posted for the present shortage (R371). -/
  lowSeen : Bool
  /-- Parks in progress whose pages may find no room: session and pages that stayed (R367). -/
  noRoom : List (SessKey × Nat)
  deriving DecidableEq, Repr

/-- The tiers at reset: nothing mapped or loaded, and the policies of R368. -/
def TierSt.reset : TierSt :=
  { granules := []
    t3 := []
    policies := [(1, ⟨[4, 3], 0⟩), (2, ⟨[2, 4], 0⟩), (3, ⟨[3, 4], 0⟩)]
    promos := []
    demos := []
    copies := []
    nextCopy := 0
    models := []
    pulled := []
    waiting := []
    lowSeen := false
    noRoom := [] }

end Sys2Proof.Machine
end

