-- ==== Sys2Proof/Machine/Text.lean ====
section
/-! DEFINITION. Vocabularies, UTF-8 segmentation, tokenisation, output text and stop strings (spec/09). -/

namespace Sys2Proof.Machine

open Sys2Proof

/-- A token entry of a vocabulary with its byte string (R284). -/
structure Token where
  str : Bytes
  special : Bool
  byte_ : Bool
  score : Int
  deriving DecidableEq, Repr

/-- A merge entry (R284). -/
structure Merge where
  left : Nat
  right : Nat
  result : Nat
  rank : Nat
  deriving DecidableEq, Repr

/-- A class range (R284). -/
structure ClassRange where
  first : Nat
  last : Nat
  cls : Nat
  deriving DecidableEq, Repr

/-- A vocabulary as loaded (R284). -/
structure Vocab where
  model : Nat
  bpe : Bool
  presplit : Bool
  endToken : Nat
  replace : Option Nat
  byteBase : Option Nat
  tokens : List Token
  merges : List Merge
  classes : List ClassRange
  deriving DecidableEq, Repr

/-- 0xFFFF_FFFF names nothing. -/
def optWord (v : Nat) : Option Nat := if v = 0xFFFFFFFF then none else some v

/-- Decode vocabulary data (R284). -/
def vocabOf (b : Bytes) : Vocab :=
  let tokAt := fieldAt b 40 8
  let mo := fieldAt b 48 8
  let co := fieldAt b 56 8
  { model := fieldAt b 32 8
    bpe := decide (byteAt b 6 = 0)
    presplit := decide (byteAt b 7 = 1)
    endToken := fieldAt b 12 4
    replace := optWord (fieldAt b 16 4)
    byteBase := optWord (fieldAt b 20 4)
    tokens := (chunks (fieldAt b 8 4) 16 (b.drop tokAt)).map fun e =>
      { str := (b.drop (fieldAt e 0 4)).take (byteAt e 4)
        special := bitAt (byteAt e 5) 0
        byte_ := bitAt (byteAt e 5) 1
        score := signedOf 32 (fieldAt e 8 4) }
    merges := (chunks (fieldAt b 24 4) 16 (b.drop mo)).map fun e =>
      { left := fieldAt e 0 4, right := fieldAt e 4 4, result := fieldAt e 8 4, rank := fieldAt e 12 4 }
    classes := (chunks (fieldAt b 28 4) 8 (b.drop co)).map fun e =>
      { first := fieldAt e 0 4, last := fieldAt e 4 3, cls := byteAt e 7 } }

/-- The string of a token id; empty beyond the vocabulary. -/
def tokenStr (v : Vocab) (t : Nat) : Bytes :=
  match v.tokens[t]? with
  | some k => k.str
  | none => []

/-- The token id is SPECIAL. -/
def tokenSpecial (v : Vocab) (t : Nat) : Bool :=
  match v.tokens[t]? with
  | some k => k.special
  | none => false

/-- Ids of a token list, in ascending order, that satisfy a test. -/
def tokenIds (i : Nat) (p : Token → Bool) (l : List Token) : List Nat :=
  match l with
  | [] => []
  | t :: r => if p t then i :: tokenIds (i + 1) p r else tokenIds (i + 1) p r

/-- The byte token of `x` (R292): the lowest non-SPECIAL id whose string is that byte. -/
def byteToken (v : Vocab) (x : Byte) : Option Nat :=
  (tokenIds 0 (fun t => !t.special && t.str == [x]) v.tokens).head?

/-- Pairwise distinct. -/
def allDistinct {α : Type} [BEq α] (l : List α) : Bool :=
  match l with
  | [] => true
  | x :: r => !(r.contains x) && allDistinct r

/-- Ranges of the tables of a vocabulary: tokens, merges, classes (R285). -/
def vocabTables (b : Bytes) : List (Nat × Nat) :=
  [(fieldAt b 40 8, 16 * fieldAt b 8 4), (fieldAt b 48 8, 16 * fieldAt b 24 4),
   (fieldAt b 56 8, 8 * fieldAt b 28 4)]

/-- A range lies after a 64-byte header and inside `len` bytes. -/
def insideData (len : Nat) (r : Nat × Nat) : Bool := decide (64 ≤ r.1 ∧ r.1 + r.2 ≤ len)

/-- Two ranges share a byte. -/
def overlaps (a b : Nat × Nat) : Bool :=
  decide (a.2 ≠ 0 ∧ b.2 ≠ 0 ∧ a.1 < b.1 + b.2 ∧ b.1 < a.1 + a.2)

/-- No two of a list overlap. -/
def noOverlap (l : List (Nat × Nat)) : Bool :=
  match l with
  | [] => true
  | x :: r => r.all (fun y => !overlaps x y) && noOverlap r

/-- Class ranges are ascending and disjoint (R285). -/
def classesOk (l : List ClassRange) : Bool :=
  match l with
  | [] => true
  | x :: r =>
    decide (x.first ≤ x.last ∧ x.last ≤ 0x10FFFF ∧ x.cls ≤ 3)
    && (match r with | [] => true | y :: _ => decide (x.last < y.first)) && classesOk r

/-- Field and reserved-field checks of the header and the token entries (R284, R285). -/
def vocabFieldsOk (b : Bytes) : Bool :=
  decide (fieldAt b 0 4 = 0x54564F43 ∧ fieldAt b 4 2 = 1 ∧ byteAt b 6 ≤ 1 ∧ byteAt b 7 ≤ 1)
  && (decide (byteAt b 6 = 0) || decide (fieldAt b 24 4 = 0))
  && (chunks (fieldAt b 8 4) 16 (b.drop (fieldAt b 40 8))).all fun e =>
    decide (byteAt e 4 ≤ 128 ∧ byteAt e 5 < 4 ∧ fieldAt e 6 2 = 0 ∧ fieldAt e 12 4 = 0)
    && decide (signedOf 32 (fieldAt e 8 4) ≤ 0)
    && (decide (byteAt b 6 = 1) || decide (fieldAt e 8 4 = 0))

/-- Places of the strings (R285). -/
def vocabStringsOk (b : Bytes) : Bool :=
  (chunks (fieldAt b 8 4) 16 (b.drop (fieldAt b 40 8))).all fun e =>
    let r := (fieldAt e 0 4, byteAt e 4)
    decide (r.2 = 0) || (insideData b.length r && (vocabTables b).all fun t => !overlaps r t)

/-- R285: the data is a vocabulary of a model with `vocab` tokens. -/
def vocabOk (model vocab : Nat) (b : Bytes) : Bool :=
  let v := vocabOf b
  vocabFieldsOk b && (vocabTables b).all (insideData b.length) && noOverlap (vocabTables b)
  && vocabStringsOk b
  && decide (fieldAt b 8 4 = vocab ∧ v.model = model)
  && tokenSpecial v v.endToken
  && (match v.replace with
      | none => true
      | some t => decide (t < v.tokens.length) && !tokenSpecial v t)
  && (match v.byteBase with
      | none => true
      | some base => (List.range 256).all fun x =>
        match v.tokens[base + x]? with
        | some t => t.byte_ && t.str == [BitVec.ofNat 8 x]
        | none => false)
  && v.tokens.all (fun t => t.special || t.str != [])
  && (if v.bpe then
        (List.range 256).all (fun x => (byteToken v (BitVec.ofNat 8 x)).isSome)
        && v.merges.all (fun m =>
          decide (m.left < v.tokens.length ∧ m.right < v.tokens.length ∧ m.result < v.tokens.length)
          && tokenStr v m.result == tokenStr v m.left ++ tokenStr v m.right)
        && allDistinct (v.merges.map fun m => m.rank)
        && allDistinct (v.merges.map fun m => (m.left, m.right))
      else true)
  && classesOk v.classes

/-- The ranges of the trailing bytes of a well-formed sequence by its first byte (the well-formed byte
sequences of the Unicode Standard, R294); none for a byte that begins no sequence. -/
def utf8Tail (b0 : Nat) : Option (List (Nat × Nat)) :=
  let t := (0x80, 0xBF)
  if b0 < 0x80 then some []
  else if b0 < 0xC2 then none
  else if b0 < 0xE0 then some [t]
  else if b0 = 0xE0 then some [(0xA0, 0xBF), t]
  else if b0 = 0xED then some [(0x80, 0x9F), t]
  else if b0 < 0xF0 then some [t, t]
  else if b0 = 0xF0 then some [(0x90, 0xBF), t, t]
  else if b0 < 0xF4 then some [t, t, t]
  else if b0 = 0xF4 then some [(0x80, 0x8F), t, t]
  else none

/-- How many of the trailing bytes match. -/
def tailMatch (rs : List (Nat × Nat)) (b : Bytes) : Nat :=
  match rs, b with
  | (lo, hi) :: rs', x :: r =>
    if lo ≤ x.toNat ∧ x.toNat ≤ hi then 1 + tailMatch rs' r else 0
  | _, _ => 0

/-- What stands at the start of a byte string (R294, R298). -/
inductive Piece where
  | chr (b : Bytes)
  | subpart (b : Bytes)
  /-- A truncated prefix that the end of the input cuts. -/
  | cut (b : Bytes)
  deriving DecidableEq, Repr

/-- The bytes of a piece. -/
def pieceBytes (p : Piece) : Bytes :=
  match p with
  | .chr b => b
  | .subpart b => b
  | .cut b => b

/-- The first character, maximal subpart or final truncated prefix of a non-empty string (R294). -/
def firstPiece (x : Byte) (r : Bytes) : Piece :=
  match utf8Tail x.toNat with
  | none => .subpart [x]
  | some rs =>
    let n := tailMatch rs r
    if n = rs.length then .chr (x :: r.take n)
    else if n = r.length then .cut (x :: r)
    else .subpart (x :: r.take n)

/-- Cut a byte string into characters, maximal subparts and a final truncated prefix. -/
def segment (fuel : Nat) (b : Bytes) : List Piece :=
  match fuel, b with
  | k + 1, x :: r =>
    let p := firstPiece x r
    p :: segment k (r.drop ((pieceBytes p).length - 1))
  | _, _ => []

/-- Segmentation of a whole string. -/
def segments (b : Bytes) : List Piece := segment b.length b

/-- The bytes of a final truncated prefix, if any. -/
def cutBytes (ps : List Piece) : Bytes :=
  match ps.getLast? with
  | some (.cut b) => b
  | _ => []

/-- The code point of a well-formed character. -/
def codePoint (c : Bytes) : Nat :=
  match c.map BitVec.toNat with
  | [a] => a
  | [a, b] => (a - 0xC0) * 64 + (b - 0x80)
  | [a, b, d] => (a - 0xE0) * 4096 + (b - 0x80) * 64 + (d - 0x80)
  | [a, b, d, e] => (a - 0xF0) * 262144 + (b - 0x80) * 4096 + (d - 0x80) * 64 + (e - 0x80)
  | _ => 0

/-- The class of a character (R284): class 3 outside every range. -/
def charClass (v : Vocab) (c : Bytes) : Nat :=
  let p := codePoint c
  match v.classes.find? fun r => decide (r.first ≤ p ∧ p ≤ r.last) with
  | some r => r.cls
  | none => 3

/-- Runs of one class (R291); a U+0020 that stands directly before a letter or digit run belongs to it.
`acc` is the run being built, newest character first, and `cls` its class. -/
def classRuns (v : Vocab) (acc : List Bytes) (cls : Nat) (cs : List Bytes) : List (List Bytes) :=
  let done := if acc = [] then [] else [acc.reverse]
  match cs with
  | [] => done
  | c :: r =>
    let joins := match r with
      | d :: _ => if c = [0x20] ∧ charClass v d < 2 then some (charClass v d) else none
      | [] => none
    match joins with
    | some k => done ++ classRuns v [c] k r
    | none =>
      let k := charClass v c
      if acc ≠ [] ∧ k = cls then classRuns v (c :: acc) cls r
      else done ++ classRuns v [c] k r

/-- Cut a run after the last whole character that fits in 1,024 bytes (R291). -/
def cutRun (acc : List Bytes) (n : Nat) (cs : List Bytes) : List (List Bytes) :=
  match cs with
  | [] => if acc = [] then [] else [acc.reverse]
  | c :: r =>
    if acc ≠ [] ∧ 1024 < n + c.length then acc.reverse :: cutRun [c] c.length r
    else cutRun (c :: acc) (n + c.length) r

/-- What tokenisation works on: a run of characters, or one maximal subpart (R291). -/
inductive TextPiece where
  | run (cs : List Bytes)
  | bad (b : Bytes)
  deriving DecidableEq, Repr

/-- Group the characters between subparts; a `cut` counts as a subpart here (R295, R313). -/
def textPieces (v : Vocab) (acc : List Bytes) (ps : List Piece) : List TextPiece :=
  let flush :=
    let cs := acc.reverse
    let runs := if cs = [] then [] else if v.presplit then classRuns v [] 0 cs else [cs]
    (runs.flatMap (cutRun [] 0)).map TextPiece.run
  match ps with
  | [] => flush
  | .chr c :: r => textPieces v (c :: acc) r
  | .subpart b :: r => flush ++ TextPiece.bad b :: textPieces v [] r
  | .cut b :: r => flush ++ TextPiece.bad b :: textPieces v [] r

/-- The merge entry of a pair. -/
def mergeOf (v : Vocab) (a b : Nat) : Option Merge :=
  v.merges.find? fun m => decide (m.left = a ∧ m.right = b)

/-- The lowest rank over adjacent pairs (R292). -/
def lowestRank (v : Vocab) (sym : List Nat) : Option Nat :=
  ((sym.zip (sym.drop 1)).filterMap fun p => (mergeOf v p.1 p.2).map fun m => m.rank).min?

/-- Replace the leftmost pair of rank `r` (R292). -/
def mergeLeftmost (v : Vocab) (r : Nat) (sym : List Nat) : List Nat :=
  match sym with
  | [] => []
  | a :: rest =>
    match rest with
    | [] => [a]
    | b :: tl =>
      match mergeOf v a b with
      | some m => if m.rank = r then m.result :: tl else a :: mergeLeftmost v r rest
      | none => a :: mergeLeftmost v r rest

/-- The loop of R292. -/
def bpeLoop (v : Vocab) (fuel : Nat) (sym : List Nat) : List Nat :=
  match fuel with
  | 0 => sym
  | k + 1 =>
    match lowestRank v sym with
    | none => sym
    | some r => bpeLoop v k (mergeLeftmost v r sym)

/-- Byte-level BPE of one piece (R292). -/
def bpe (v : Vocab) (b : Bytes) : List Nat :=
  let sym := b.map fun x => (byteToken v x).getD 0
  bpeLoop v sym.length sym

/-- Non-SPECIAL tokens whose string starts the input, ids ascending. -/
def matching (v : Vocab) (b : Bytes) : List Nat :=
  tokenIds 0 (fun t => !t.special && t.str != [] && t.str.isPrefixOf b) v.tokens

/-- Lower id at the first position where two sequences differ. -/
def seqLower (a b : List Nat) : Bool :=
  match a, b with
  | x :: r, y :: s => if x = y then seqLower r s else decide (x < y)
  | _, _ => false

/-- The better of two sequences (R293): higher sum, then fewer tokens, then the lower id. -/
def betterSeq (a b : Int × List Nat) : Int × List Nat :=
  if b.1 < a.1 then a
  else if a.1 < b.1 then b
  else if a.2.length < b.2.length then a
  else if b.2.length < a.2.length then b
  else if seqLower b.2 a.2 then b else a

/-- The best sequence from the start of a segment that reaches its end or has exactly `k` tokens (R293). -/
def bestSeq (v : Vocab) (k : Nat) (b : Bytes) : Option (Int × List Nat) :=
  if b = [] then some (0, [])
  else match k with
    | 0 => some (0, [])
    | n + 1 =>
      (matching v b).foldl (fun acc t =>
        match bestSeq v n (b.drop (tokenStr v t).length) with
        | none => acc
        | some (s, l) =>
          let sc := match v.tokens[t]? with | some k => k.score | none => 0
          let c := (s + sc, t :: l)
          match acc with
          | none => some c
          | some a => some (betterSeq a c)) none

/-- What tokenisation of a piece yields: tokens, or bytes that R296 handles. -/
inductive Tok where
  | token (t : Nat)
  | uncovered (b : Bytes)
  deriving DecidableEq, Repr

/-- Bytes from the start of `b` to the next character boundary, from the lengths of the characters that
remain (`cs`) when the first `off` bytes of the first are already consumed. -/
def toBoundary (off : Nat) (cs : List Bytes) : Nat :=
  match cs with
  | [] => 0
  | c :: _ => c.length - off

/-- Drop `n` bytes from characters of which `off` bytes are consumed. -/
def dropBytes (off n : Nat) (cs : List Bytes) : Nat × List Bytes :=
  match cs with
  | [] => (0, [])
  | c :: r => if off + n < c.length then (off + n, c :: r) else dropBytes 0 (off + n - c.length) r

/-- Unigram over one segment of covered characters (R293). -/
def unigramSeg (v : Vocab) (fuel off : Nat) (cs : List Bytes) : List Tok :=
  match fuel with
  | 0 => []
  | k + 1 =>
    let b := cs.flatten.drop off
    if b = [] then []
    else match bestSeq v 64 b with
      | some (_, t :: _) =>
        let (o, r) := dropBytes off (tokenStr v t).length cs
        .token t :: unigramSeg v k o r
      | _ =>
        let n := toBoundary off cs
        let (o, r) := dropBytes off n cs
        .uncovered (b.take n) :: unigramSeg v k o r

/-- Split a piece at its uncovered characters (R293): a character whose first byte starts no token match
against the rest of the piece. -/
def unigramSplit (v : Vocab) (acc : List Bytes) (cs : List Bytes) : List (List Bytes ⊕ Bytes) :=
  let done := if acc = [] then [] else [.inl acc.reverse]
  match cs with
  | [] => done
  | c :: r =>
    if matching v (c :: r).flatten = [] then done ++ .inr c :: unigramSplit v [] r
    else unigramSplit v (c :: acc) r

/-- Unigram of one piece (R293). -/
def unigram (v : Vocab) (cs : List Bytes) : List Tok :=
  (unigramSplit v [] cs).flatMap fun x =>
    match x with
    | .inl seg => unigramSeg v (seg.flatten.length + 1) 0 seg
    | .inr c => [.uncovered c]

/-- Result of a tokenisation pass. -/
structure Tokenised where
  ids : List Nat
  /-- Subparts and uncovered characters that produced tokens (R296, INPUT_REPLACED). -/
  replaced : Nat
  subparts : Nat
  invalid : Bool
  deriving DecidableEq, Repr

/-- R296 for a maximal subpart (`isBad`) or an uncovered character. -/
def replaceTokens (v : Vocab) (strict isBad : Bool) (b : Bytes) : Tokenised :=
  if isBad && strict then ⟨[], 0, 0, true⟩
  else match v.byteBase, v.replace with
    | some base, _ => ⟨b.map fun x => base + x.toNat, 1, 1, false⟩
    | none, some t => ⟨[t], 1, 1, false⟩
    | none, none => ⟨[], 0, 0, true⟩

/-- Join two results in order. -/
def tokJoin (a b : Tokenised) : Tokenised :=
  ⟨a.ids ++ b.ids, a.replaced + b.replaced, a.subparts + b.subparts, a.invalid || b.invalid⟩

/-- Tokenise a byte string whose final truncated prefix counts as a maximal subpart (R287-R296). -/
def tokenise (v : Vocab) (strict : Bool) (b : Bytes) : Tokenised :=
  (textPieces v [] (segments b)).foldl (fun acc p =>
    match p with
    | .bad x => tokJoin acc (replaceTokens v strict true x)
    | .run cs =>
      if v.bpe then tokJoin acc ⟨bpe v cs.flatten, 0, 0, false⟩
      else (unigram v cs).foldl (fun a t =>
        match t with
        | .token i => tokJoin a ⟨[i], 0, 0, false⟩
        | .uncovered x => tokJoin a (replaceTokens v strict false x)) acc) ⟨[], 0, 0, false⟩

/-- An APPEND's input: pending bytes go first; with GENERATE 0 a final truncated prefix of 1 to 3 bytes
becomes pending (R295). The answer is the result and the new pending bytes. -/
def tokeniseAppend (v : Vocab) (strict generate : Bool) (pend input : Bytes) : Tokenised × Bytes :=
  let all := pend ++ input
  let p := if generate then [] else cutBytes (segments all)
  (tokenise v strict (all.take (all.length - p.length)), p)

/-- U+FFFD. -/
def fffd : Bytes := [0xEF, 0xBF, 0xBD]

/-- Divide output bytes (R298): complete text with U+FFFD for each maximal subpart, the number of them,
and the truncated prefix that stays held; with `final`, the prefix becomes U+FFFD too (R299). -/
def divideOut (b : Bytes) : Bytes × Nat × Bytes :=
  let ps := segments b
  let held := cutBytes ps
  let body := ps.filter fun p => match p with | .cut _ => false | _ => true
  (body.flatMap fun p => match p with | .chr c => c | _ => fffd,
    (body.filter fun p => match p with | .subpart _ => true | _ => false).length, held)

/-- Stop strings of a stop set (R302). -/
def stopStrings (b : Bytes) : List Bytes :=
  (chunks (fieldAt b 0 2) 68 (b.drop 16)).map fun e => (e.drop 4).take (byteAt e 0)

/-- R302 on the bytes of a stop set. -/
def stopsetOk (b : Bytes) : Bool :=
  let n := fieldAt b 0 2
  decide (1 ≤ n ∧ n ≤ 16 ∧ b.length = 16 + 68 * n) && allZero ((b.drop 2).take 14)
  && (chunks n 68 (b.drop 16)).all fun e =>
    decide (1 ≤ byteAt e 0 ∧ byteAt e 0 ≤ 64) && allZero ((e.drop 1).take 3)
    && allZero (e.drop (4 + byteAt e 0))
    && (segments ((e.drop 4).take (byteAt e 0))).all fun p => match p with | .chr _ => true | _ => false

/-- The first position at which a string of the set ends (R304): the end, and the longest length there. -/
def stopFind (stops : List Bytes) (text : Bytes) (fuel pos : Nat) : Option (Nat × Nat) :=
  match fuel with
  | 0 => none
  | k + 1 =>
    let here := stops.filter fun s => decide (s.length ≤ pos) && (text.take pos).drop (pos - s.length) == s
    match (here.map List.length).max? with
    | some n => some (pos, n)
    | none => stopFind stops text k (pos + 1)

/-- Length of the longest suffix that is a proper prefix of some stop string (R303): tries `n` downward. -/
def stopHold (stops : List Bytes) (text : Bytes) (n : Nat) : Nat :=
  match n with
  | 0 => 0
  | k + 1 =>
    if n ≤ text.length ∧ stops.any (fun s => decide (n < s.length) && s.take n == text.drop (text.length - n))
    then n else stopHold stops text k

/-- The text unit's state of a session (R311). -/
structure TextGen where
  inPend : Bytes
  outHeld : Bytes
  stopHeld : Bytes
  deriving DecidableEq, Repr

/-- The state of a turn's start: no held bytes and an empty matcher (R299). -/
def textGenNew (pend : Bytes) : TextGen := ⟨pend, [], []⟩

/-- What a step's text work gives: emitted text, HELD, a completed stop, whether the stopping token is
trailing, U+FFFD written, and the next state. -/
structure TextOut where
  text : Bytes
  held : Nat
  stopped : Bool
  trailing : Bool
  fffds : Nat
  gen : TextGen
  deriving DecidableEq, Repr

/-- Point 7 of a step that draws `str` (R298, R303, R304); `final` is an end of the turn by another cause
(END_TOKEN, TOKEN_LIMIT), which releases the held bytes (R299). -/
def textStep (stops : List Bytes) (trim final : Bool) (g : TextGen) (str : Bytes) : TextOut :=
  let (complete, n, held) := divideOut (g.outHeld ++ str)
  let text := g.stopHeld ++ complete
  match stopFind stops text (complete.length) (g.stopHeld.length + 1) with
  | some (e, len) =>
    let trailing := decide (e < text.length ∨ held ≠ [])
    let cutAt := if trim && trailing then min (e - len) g.stopHeld.length else e - len
    ⟨text.take cutAt, 0, true, trailing, n, ⟨g.inPend, [], []⟩⟩
  | none =>
    if final then
      let tail := if held = [] then [] else fffd
      ⟨text ++ tail, 0, false, false, n + (if held = [] then 0 else 1), ⟨g.inPend, [], []⟩⟩
    else
      let h := stopHold stops text 63
      ⟨text.take (text.length - h), held.length, false, false, n,
        ⟨g.inPend, held, text.drop (text.length - h)⟩⟩

/-- DETOKENIZE (R313): R298 over all tokens, the held bytes at the end as at FINAL, no stop matching. -/
def detokenise (v : Vocab) (ids : List Nat) : Bytes :=
  let b := ids.flatMap fun t => if tokenSpecial v t then [] else tokenStr v t
  let (complete, _, held) := divideOut b
  complete ++ (if held = [] then [] else fffd)

/-- One generation of the text state block (R311): 128 bytes. -/
def textGenBytes (g : TextGen) : Bytes :=
  le 1 g.inPend.length ++ padTo 3 g.inPend ++ le 1 g.outHeld.length ++ padTo 3 g.outHeld
    ++ le 1 g.stopHeld.length ++ zeros 7 ++ padTo 63 g.stopHeld ++ zeros 49

end Sys2Proof.Machine
end

