-- ==== Sys2Proof/Machine/Grammar.lean ====
section
/-! DEFINITION. Grammar programs and the Fretboard (spec/09, R305-R311). -/

namespace Sys2Proof.Machine

open Sys2Proof

structure GState where
  edgeFirst : Nat
  edgeCount : Nat
  accept : Bool
  mask : Nat
  topFirst : Nat
  topCount : Nat
  deriving DecidableEq, Repr

structure GEdge where
  first : Nat
  last : Nat
  next : Nat
  top : Nat
  action : Nat
  symbol : Nat
  deriving DecidableEq, Repr

/-- A grammar program as loaded (R305). `masks` holds first and count of a run of intervals, `tops` the
top-mask entries as stack top and mask. -/
structure Grammar where
  model : Nat
  push : Bool
  start : Nat
  symbols : Nat
  states : List GState
  edges : List GEdge
  masks : List (Nat × Nat)
  intervals : List (Nat × Nat)
  tops : List (Nat × Nat)
  deriving DecidableEq, Repr

/-- The five tables of a program: offset, entries, entry size (R305). -/
def grammarTables (b : Bytes) : List (Nat × Nat × Nat) :=
  [(fieldAt b 40 4, fieldAt b 8 4, 16), (fieldAt b 44 4, fieldAt b 16 4, 16),
   (fieldAt b 48 4, fieldAt b 20 4, 8), (fieldAt b 52 4, fieldAt b 24 4, 8),
   (fieldAt b 56 4, fieldAt b 28 4, 8)]

/-- The entries of table `i`. -/
def grammarEntries (b : Bytes) (i : Nat) : List Bytes :=
  match (grammarTables b)[i]? with
  | some (off, n, sz) => chunks n sz (b.drop off)
  | none => []

/-- Decode a grammar program (R305). -/
def grammarOf (b : Bytes) : Grammar :=
  { model := fieldAt b 32 8
    push := decide (byteAt b 6 = 1)
    start := fieldAt b 12 2
    symbols := fieldAt b 14 2
    states := (grammarEntries b 0).map fun e =>
      ⟨fieldAt e 0 4, fieldAt e 4 2, bitAt (byteAt e 6) 0, fieldAt e 8 4, fieldAt e 12 3, byteAt e 15⟩
    edges := (grammarEntries b 1).map fun e =>
      ⟨fieldAt e 0 4, fieldAt e 4 4, fieldAt e 8 2, fieldAt e 10 2, byteAt e 12, fieldAt e 14 2⟩
    masks := (grammarEntries b 2).map fun e => (fieldAt e 0 4, fieldAt e 4 4)
    intervals := (grammarEntries b 3).map fun e => (fieldAt e 0 4, fieldAt e 4 4)
    tops := (grammarEntries b 4).map fun e => (fieldAt e 0 2, fieldAt e 4 4) }

/-- Reserved bytes of the entries are 0 and the header's fields are in range (R305, R306). -/
def grammarFieldsOk (b : Bytes) : Bool :=
  decide (fieldAt b 0 4 = 0x46524554 ∧ fieldAt b 4 2 = 1 ∧ byteAt b 6 ≤ 1 ∧ byteAt b 7 = 0)
  && decide (1 ≤ fieldAt b 8 4 ∧ fieldAt b 8 4 ≤ 65536 ∧ fieldAt b 60 4 ≤ 268435456)
  && (decide (byteAt b 6 = 1) || decide (fieldAt b 14 2 = 0))
  && (grammarEntries b 0).all (fun e => decide (byteAt e 6 < 2 ∧ byteAt e 7 = 0 ∧ fieldAt e 4 2 ≤ 4096))
  && (grammarEntries b 1).all (fun e => decide (byteAt e 12 ≤ 3 ∧ byteAt e 13 = 0))
  && (grammarEntries b 4).all (fun e => decide (fieldAt e 2 2 = 0))

/-- The tables lie after the header, inside TOTAL_LEN, and do not overlap; empty tables are exempt. -/
def grammarPlacesOk (b : Bytes) : Bool :=
  let rs := ((grammarTables b).filter fun t => decide (t.2.1 ≠ 0)).map fun t => (t.1, t.2.1 * t.2.2)
  rs.all (fun r => decide (64 ≤ r.1 ∧ r.1 + r.2 ≤ fieldAt b 60 4)) && noOverlap rs

/-- A run of intervals is ascending and disjoint, with every id below `vocab`. -/
def intervalsOk (vocab : Nat) (l : List (Nat × Nat)) : Bool :=
  match l with
  | [] => true
  | x :: r =>
    decide (x.1 ≤ x.2 ∧ x.2 < vocab) && (match r with | [] => true | y :: _ => decide (x.2 < y.1))
    && intervalsOk vocab r

/-- The intervals of mask `m`. -/
def maskIntervals (g : Grammar) (m : Nat) : List (Nat × Nat) :=
  match g.masks[m]? with
  | some (f, n) => (g.intervals.drop f).take n
  | none => []

/-- The edges of a state. -/
def stateEdges (g : Grammar) (s : GState) : List GEdge := (g.edges.drop s.edgeFirst).take s.edgeCount

/-- The top-mask entries of a state. -/
def stateTops (g : Grammar) (s : GState) : List (Nat × Nat) := (g.tops.drop s.topFirst).take s.topCount

/-- R306: the bytes are a program for `model`, whose vocabulary has `vocab` tokens. -/
def grammarOk (model vocab : Nat) (b : Bytes) : Bool :=
  let g := grammarOf b
  grammarFieldsOk b && grammarPlacesOk b && decide (fieldAt b 60 4 = b.length ∧ g.model = model)
  && decide (g.start < g.states.length)
  && g.states.all (fun s =>
    decide (s.edgeFirst + s.edgeCount ≤ g.edges.length ∧ s.mask < g.masks.length
      ∧ s.topFirst + s.topCount ≤ g.tops.length)
    && (g.push || decide (s.topCount = 0))
    && allDistinct ((stateTops g s).map (·.1)))
  && g.masks.all (fun m => decide (m.1 + m.2 ≤ g.intervals.length)
    && intervalsOk vocab ((g.intervals.drop m.1).take m.2))
  && g.intervals.all (fun i => decide (i.1 ≤ i.2 ∧ i.2 < vocab))
  && g.tops.all (fun t => decide (t.1 < g.symbols ∧ t.2 < g.masks.length))
  && g.edges.all (fun e =>
    decide (e.first ≤ e.last ∧ e.last < vocab ∧ e.next < g.states.length)
    && (if g.push then
          (decide (e.top = 0xFFFF) || decide (e.top < g.symbols))
          && (decide (e.action = 0 ∨ e.action = 2) || decide (e.symbol < g.symbols))
        else decide (e.top = 0xFFFF ∧ e.action = 0)))

/-- The Fretboard's state of a session (R311): stack top first. -/
structure FretGen where
  state : Nat
  stack : List Nat
  deriving DecidableEq, Repr

/-- START with an empty stack (R307). -/
def fretStart (g : Grammar) : FretGen := ⟨g.start, []⟩

/-- An edge that R307 would allow with this stack, but for the token. -/
def edgeAllowed (e : GEdge) (stack : List Nat) : Bool :=
  (decide (e.top = 0xFFFF) || (match stack with | [] => false | t :: _ => t == e.top))
  && !(decide (e.action = 2 ∨ e.action = 3) && stack.isEmpty)
  && !(decide (e.action = 1) && decide (1024 ≤ stack.length))

/-- The edge's action on the stack (R305). -/
def edgeApply (e : GEdge) (stack : List Nat) : List Nat :=
  match e.action with
  | 1 => e.symbol :: stack
  | 2 => stack.drop 1
  | 3 => e.symbol :: stack.drop 1
  | _ => stack

/-- Advance by a drawn token (R307): unchanged when no edge qualifies, which the mask rules out. -/
def fretAdvance (g : Grammar) (f : FretGen) (token : Nat) : FretGen :=
  match g.states[f.state]? with
  | none => f
  | some s =>
    match (stateEdges g s).find? fun e =>
        decide (e.first ≤ token ∧ token ≤ e.last) && edgeAllowed e f.stack with
    | some e => ⟨e.next, edgeApply e f.stack⟩
    | none => f

/-- The mask in force in a state (R308). -/
def fretMask (g : Grammar) (f : FretGen) (s : GState) : Nat :=
  match f.stack with
  | [] => s.mask
  | t :: _ =>
    match (stateTops g s).find? fun e => e.1 == t with
    | some e => e.2
    | none => s.mask

/-- Token `t` lies in a list of ranges. -/
def inRanges (l : List (Nat × Nat)) (t : Nat) : Bool := l.any fun i => decide (i.1 ≤ t ∧ t ≤ i.2)

/-- The mask bit of token `t` (R308), and whether the edges removed it (FRET_MASK_TRIM). -/
def maskBit (g : Grammar) (endToken : Nat) (f : FretGen) (t : Nat) : Bool × Bool :=
  match g.states[f.state]? with
  | none => (false, false)
  | some s =>
    let byMask := inRanges (maskIntervals g (fretMask g f s)) t
    let byEdge := (stateEdges g s).any fun e =>
      decide (e.first ≤ t ∧ t ≤ e.last) && edgeAllowed e f.stack
    if t = endToken then (s.accept, byMask && !byEdge) else (byMask && byEdge, byMask && !byEdge)

/-- One generation of the FRET_STATE block (R311): 2,112 bytes. -/
def fretGenBytes (f : FretGen) : Bytes :=
  le 2 f.state ++ le 2 f.stack.length ++ zeros 60 ++ padTo 2048 (f.stack.reverse.flatMap (le 2))

end Sys2Proof.Machine
end

