-- ==== Sys2Proof/Machine/Numerics.lean ====
section
/-! DEFINITION. Element formats, exact products and sums, long accumulators and rounding (spec/07). -/

namespace Sys2Proof.Machine

open Sys2Proof

/-- An exact dyadic number m * 2^e. -/
structure Dy where
  m : Int
  e : Int
  deriving DecidableEq, Repr

/-- 2^n for an integer n at or above 0, else 1. -/
def pow2 (n : Int) : Int := ((2 ^ n.toNat : Nat) : Int)

/-- The mantissa of `d` in units of 2^e, for e at or below its exponent. -/
def dyAt (d : Dy) (e : Int) : Int := d.m * pow2 (d.e - e)

/-- Exact sum. -/
def dyAdd (a b : Dy) : Dy :=
  let e := min a.e b.e
  ⟨dyAt a e + dyAt b e, e⟩

/-- Exact product. -/
def dyMul (a b : Dy) : Dy := ⟨a.m * b.m, a.e + b.e⟩

/-- Exact sum of a list. -/
def dySum (l : List Dy) : Dy := l.foldl dyAdd ⟨0, 0⟩

/-- `d` in units of 2^e, truncated toward zero (R211, R241). -/
def dyTrunc (d : Dy) (e : Int) : Int :=
  if e ≤ d.e then dyAt d e
  else if d.m < 0 then - ((d.m.natAbs / 2 ^ (e - d.e).toNat : Nat) : Int)
  else ((d.m.natAbs / 2 ^ (e - d.e).toNat : Nat) : Int)

/-- `d` in units of 2^e, rounded to nearest, ties to even (R204). -/
def dyRne (d : Dy) (e : Int) : Int :=
  if e ≤ d.e then dyAt d e else rneInt d.m (2 ^ (e - d.e).toNat)

/-- Element formats (R231), in the order of the tensor format codes (R235). -/
inductive Fmt where
  | b8
  | b6
  | b4
  | i8
  | bf16
  | fp32
  deriving DecidableEq, Repr

/-- The format a tensor format code names (R235). -/
def fmtOfCode (c : Nat) : Option Fmt :=
  match c with
  | 0 => some .b8
  | 1 => some .b6
  | 2 => some .b4
  | 3 => some .i8
  | 4 => some .bf16
  | 5 => some .fp32
  | _ => none

/-- Bits of one element. -/
def fmtBits (f : Fmt) : Nat :=
  match f with
  | .b8 => 8
  | .b6 => 6
  | .b4 => 4
  | .i8 => 8
  | .bf16 => 16
  | .fp32 => 32

/-- Unit exponents of the block formats (R236); 0 for the others, which carry no block scale. -/
def unitExp (f : Fmt) : Int :=
  match f with
  | .b8 => -9
  | .b6 => -4
  | .b4 => -1
  | _ => 0

/-- A sign-magnitude minifloat in units of its subnormal step: `eb` exponent bits, `mb` mantissa bits. -/
def miniUnits (eb mb v : Nat) : Int :=
  let m := v % 2 ^ mb
  let e := v / 2 ^ mb % 2 ^ eb
  let a : Nat := if e = 0 then m else (2 ^ mb + m) * 2 ^ (e - 1)
  if v / 2 ^ (eb + mb) % 2 = 1 then - (a : Int) else (a : Int)

/-- The value of an element of a block format in units of 2^unitExp, and whether it is one of the
encodings that read as 0 and are counted (R231, R233, R236). -/
def elemUnits (f : Fmt) (v : Nat) : Int × Bool :=
  match f with
  | .b8 => if v % 128 = 127 then (0, true) else (miniUnits 4 3 v, false)
  | .b6 => (miniUnits 3 2 v, false)
  | .b4 => (miniUnits 2 1 v, false)
  | .i8 => (signedOf 8 v, false)
  | _ => (0, false)

/-- A BF16 or FP32 value with `p` mantissa bits, and whether it counts in NUM_NONFINITE (R231, R233). -/
def floatVal (p v : Nat) : Dy × Bool :=
  let m := v % 2 ^ p
  let e := v / 2 ^ p % 256
  let s : Int := if v / 2 ^ (p + 8) % 2 = 1 then -1 else 1
  if e = 0 then (⟨0, 0⟩, false)
  else if e = 255 then
    if m = 0 then (⟨s * ((2 ^ (p + 1) - 1 : Nat) : Int), 127 - (p : Int)⟩, true) else (⟨0, 0⟩, true)
  else (⟨s * ((2 ^ p + m : Nat) : Int), (e : Int) - 127 - (p : Int)⟩, false)

def fp32Val (v : Nat) : Dy := (floatVal 23 v).1
def bf16Val (v : Nat) : Dy := (floatVal 7 v).1

/-- ⌊log2 (a / b)⌋ for a, b > 0. -/
def floorLog2 (a b : Nat) : Int :=
  let k : Int := (Nat.log2 a : Int) - (Nat.log2 b : Int)
  let ge : Bool := if 0 ≤ k then decide (b * 2 ^ k.toNat ≤ a) else decide (b ≤ a * 2 ^ (-k).toNat)
  if ge then k else k - 1

/-- The exact quotient num / den rounded once to a float with `p` mantissa bits and 8 exponent bits, to
nearest, ties to even (R243): below the smallest normal value it is +0, and an overflow gives the
largest finite value of its sign (R244). The flag marks the overflow. -/
def roundFloat (p : Nat) (num : Int) (den : Nat) : Nat × Bool :=
  if num = 0 then (0, false)
  else
    let a := num.natAbs
    let s : Nat := if num < 0 then 2 ^ (p + 8) else 0
    let e := floorLog2 a den
    let sh : Int := (p : Int) - e
    let m := if 0 ≤ sh then rneNat (a * 2 ^ sh.toNat) den else rneNat a (den * 2 ^ (-sh).toNat)
    let e2 : Int := if m = 2 ^ (p + 1) then e + 1 else e
    let m2 : Nat := if m = 2 ^ (p + 1) then 2 ^ p else m
    if e2 < -126 then (0, false)
    else if 127 < e2 then (s + 254 * 2 ^ p + (2 ^ p - 1), true)
    else (s + (e2 + 127).toNat * 2 ^ p + (m2 - 2 ^ p), false)

/-- A dyadic number rounded to a float (R243). -/
def dyFloat (p : Nat) (d : Dy) : Nat × Bool :=
  if 0 ≤ d.e then roundFloat p (d.m * pow2 d.e) 1 else roundFloat p d.m (2 ^ (-d.e).toNat)

/-- rne32 of R210: an exact value rounded once to FP32. -/
def rne32 (d : Dy) : Nat := (dyFloat 23 d).1

/-- An exact value rounded once to BF16 (R253). -/
def rneBf16 (d : Dy) : Nat := (dyFloat 7 d).1

/-- The block sum of R237: the exact sum of the products of 32 element pairs, saturated once to 40 bits;
the flag counts in NUM_BLOCK_SAT. -/
def blockSum (pairs : List (Int × Int)) : Int × Bool :=
  let s := pairs.foldl (fun a p => a + p.1 * p.2) 0
  if (2 ^ 39 - 1 : Int) < s then (2 ^ 39 - 1, true)
  else if s < -(2 ^ 39 : Int) then (-(2 ^ 39), true)
  else (s, false)

/-- A contribution to a long accumulator whose least significant bit is 2^-64 (R240, R241): flushed low
(first flag, NUM_ACC_LOW) and saturated high (second flag, NUM_ACC_SAT). -/
def contribution (c : Dy) : Int × Bool × Bool :=
  if (if 0 ≤ c.e then (2 ^ 15 : Int) ≤ (c.m.natAbs : Int) * pow2 c.e
      else (2 ^ 15 : Int) * pow2 (-c.e) ≤ (c.m.natAbs : Int)) then
    (if c.m < 0 then -(2 ^ 79 - 1 : Int) else 2 ^ 79 - 1, false, true)
  else
    let t := dyTrunc c (-64)
    (t, decide (¬ (c.e ≥ -64) ∧ t * pow2 (-64 - c.e) ≠ c.m), false)

/-- The contribution of one block of a matrix accumulation (R241). -/
def blockContribution (fa fb : Fmt) (xa xb : Nat) (pairs : List (Int × Int)) : Int × Bool × Bool :=
  contribution ⟨(blockSum pairs).1, unitExp fa + unitExp fb + (xa : Int) + (xb : Int) - 254⟩

/-- The result of a matrix accumulation in FP32 (R243), from the accumulator in units of 2^-64. -/
def accToFp32 (acc : Int) : Nat := rne32 ⟨acc, -64⟩

/-- One EXACT all-reduce element: bits [95:0] of the accumulator (R253). -/
def exactElem (acc : Int) : Nat := twos 96 acc

/-- What the receiver of an EXACT element adds (R253). -/
def exactValue (v : Nat) : Int := signedOf 96 v

/-- One FAST all-reduce element (R253, R254). -/
def fastElem (acc : Int) : Nat := rneBf16 ⟨acc, -64⟩

/-- What a FAST element adds to the owner's sum (R254). -/
def fastValue (v : Nat) : Int := (contribution (bf16Val v)).1

/-- One element of the owner's sum (R252, R255): all partials and the residual, added exactly and rounded
once to FP32. -/
def reduceElem (exact : Bool) (partials : List Nat) (residual : Nat) : Nat :=
  let terms := partials.map fun v => if exact then exactValue v else fastValue v
  accToFp32 (terms.foldl (· + ·) (contribution (fp32Val residual)).1)

/-- EMAX of R245. -/
def fmtEmax (f : Fmt) : Int :=
  match f with
  | .b8 => 8
  | .b6 => 4
  | .b4 => 2
  | _ => 6

/-- MAXF of R245 in units of 2^unitExp. -/
def fmtMaxUnits (f : Fmt) : Nat :=
  match f with
  | .b8 => 448 * 512
  | .b6 => 28 * 16
  | .b4 => 12
  | _ => 127

/-- Encode a magnitude, given in units of the subnormal step times 2^-k exactly as num / 2^k, in a
minifloat with `mb` mantissa bits, to nearest, ties to even, subnormals kept, saturating at `maxU`
units: the code without its sign, and whether it saturated. -/
def miniEncode (mb maxU : Nat) (num den : Nat) : Nat × Bool :=
  let whole := num / den
  let lg := if whole < 2 ^ (mb + 1) then 0 else Nat.log2 whole - mb
  let r := rneNat num (den * 2 ^ lg) * 2 ^ lg
  let sat := decide (maxU < r)
  let u := if sat then maxU else r
  if u < 2 ^ mb then (u, sat)
  else
    let e := Nat.log2 u - mb
    ((e + 1) * 2 ^ mb + (u / 2 ^ e - 2 ^ mb), sat)

/-- One element of R245: the value times 2^(127 - x), rounded to the format. -/
def encodeElem (f : Fmt) (v : Dy) (x : Nat) : Nat × Bool :=
  let k : Int := v.e + 127 - (x : Int) - unitExp f
  let num := if 0 ≤ k then v.m.natAbs * 2 ^ k.toNat else v.m.natAbs
  let den := if 0 ≤ k then 1 else 2 ^ (-k).toNat
  match f with
  | .i8 =>
    let r := rneNat num den
    let sat := decide (127 < r)
    let u := if sat then 127 else r
    (if v.m < 0 then (256 - u) % 256 else u, sat)
  | _ =>
    let mb := match f with | .b8 => 3 | .b6 => 2 | _ => 1
    let (c, sat) := miniEncode mb (fmtMaxUnits f) num den
    (if v.m < 0 ∧ c ≠ 0 then c + 2 ^ (fmtBits f - 1) else c, sat)

/-- The scale of a block of 32 exact values (R245). -/
def blockScale (f : Fmt) (vs : List Dy) : Nat :=
  let e := (vs.map fun d => d.e).foldl min 0
  let a := (vs.map fun d => (dyAt d e).natAbs).foldl max 0
  if a = 0 then 0
  else
    let l : Int := (Nat.log2 a : Int) + e
    let x := l - fmtEmax f + 127
    if x < 0 then 0 else if 254 < x then 254 else x.toNat

/-- Conversion of a block to a block format (R245): scale, elements, and the number saturated. -/
def convertBlock (f : Fmt) (vs : List Dy) : Nat × List Nat × Nat :=
  if vs.all (fun d => d.m == 0) then (0, vs.map (fun _ => 0), 0)
  else
    let x := blockScale f vs
    let qs := vs.map fun d => encodeElem f d x
    (x, qs.map (·.1), (qs.filter (·.2)).length)

/-- EXP2_TAB (R246): entry j is 2^(15 + j/256) rounded to the nearest integer. -/
def exp2Tab : List Nat :=
  [32768, 32857, 32946, 33035, 33125, 33215, 33305, 33395, 33486, 33576, 33667, 33759, 33850, 33942, 34034, 34126] ++
  [34219, 34312, 34405, 34498, 34591, 34685, 34779, 34874, 34968, 35063, 35158, 35253, 35349, 35445, 35541, 35637] ++
  [35734, 35831, 35928, 36025, 36123, 36221, 36319, 36417, 36516, 36615, 36715, 36814, 36914, 37014, 37114, 37215] ++
  [37316, 37417, 37518, 37620, 37722, 37824, 37927, 38030, 38133, 38236, 38340, 38444, 38548, 38653, 38757, 38863] ++
  [38968, 39074, 39180, 39286, 39392, 39499, 39606, 39714, 39821, 39929, 40037, 40146, 40255, 40364, 40473, 40583] ++
  [40693, 40804, 40914, 41025, 41136, 41248, 41360, 41472, 41584, 41697, 41810, 41923, 42037, 42151, 42265, 42380] ++
  [42495, 42610, 42726, 42841, 42958, 43074, 43191, 43308, 43425, 43543, 43661, 43780, 43898, 44017, 44137, 44256] ++
  [44376, 44497, 44617, 44738, 44859, 44981, 45103, 45225, 45348, 45471, 45594, 45718, 45842, 45966, 46091, 46216] ++
  [46341, 46467, 46593, 46719, 46846, 46973, 47100, 47228, 47356, 47484, 47613, 47742, 47871, 48001, 48131, 48262] ++
  [48393, 48524, 48655, 48787, 48920, 49052, 49185, 49319, 49452, 49586, 49721, 49856, 49991, 50126, 50262, 50399] ++
  [50535, 50672, 50810, 50947, 51085, 51224, 51363, 51502, 51642, 51782, 51922, 52063, 52204, 52346, 52488, 52630] ++
  [52773, 52916, 53059, 53203, 53347, 53492, 53637, 53782, 53928, 54074, 54221, 54368, 54515, 54663, 54811, 54960] ++
  [55109, 55258, 55408, 55558, 55709, 55860, 56012, 56163, 56316, 56468, 56622, 56775, 56929, 57083, 57238, 57393] ++
  [57549, 57705, 57861, 58018, 58176, 58333, 58491, 58650, 58809, 58968, 59128, 59289, 59449, 59611, 59772, 59934] ++
  [60097, 60260, 60423, 60587, 60751, 60916, 61081, 61247, 61413, 61579, 61746, 61914, 62081, 62250, 62419, 62588] ++
  [62757, 62928, 63098, 63269, 63441, 63613, 63785, 63958, 64132, 64306, 64480, 64655, 64830, 65006, 65182, 65359]

/-- Entry `j` mod 256 of EXP2_TAB. -/
def exp2At (j : Nat) : Nat := exp2Tab.getD (j % 256) 0

/-- R246 as a check of one entry: the nearest integer to 2^(15 + j/256), with no tie. -/
def exp2Nearest (j e : Nat) : Bool :=
  decide ((2 * e - 1) ^ 256 < 2 ^ (4096 + j) ∧ 2 ^ (4096 + j) < (2 * e + 1) ^ 256)

end Sys2Proof.Machine
end

