-- ==== Sys2Proof/Machine/Sampling.lean ====
section
/-! DEFINITION. The sampling block, scores, selection order, masses, cuts, generator and draw, and the
selection result (spec/08). -/

namespace Sys2Proof.Machine

open Sys2Proof

/-- The sampling parameter block (R260). -/
structure Sampler where
  temperature : Nat
  topK : Nat
  window : Nat
  topP : Nat
  minP : Nat
  rep : Nat
  presence : Nat
  frequency : Nat
  bias : Nat
  reserved : Nat
  deriving DecidableEq, Repr

/-- Decode bytes 144-175 of a descriptor (R260). -/
def samplerOf (b : Bytes) : Sampler :=
  { temperature := fieldAt b 0 4, topK := fieldAt b 4 2, window := fieldAt b 6 2,
    topP := fieldAt b 8 4, minP := fieldAt b 12 4, rep := fieldAt b 16 4,
    presence := fieldAt b 20 4, frequency := fieldAt b 24 4, bias := fieldAt b 28 2,
    reserved := fieldAt b 30 2 }

/-- The 32 bytes of a sampling block (R260). -/
def samplerBytes (s : Sampler) : Bytes :=
  le 4 s.temperature ++ le 2 s.topK ++ le 2 s.window ++ le 4 s.topP ++ le 4 s.minP ++ le 4 s.rep
    ++ le 4 s.presence ++ le 4 s.frequency ++ le 2 s.bias ++ le 2 s.reserved

/-- An FP32 field as stored (R260): none for NaN, infinity and a non-zero subnormal; -0 is 0. -/
def storedFp32 (v : Nat) : Option Dy :=
  let e := v / 2 ^ 23 % 256
  if e = 255 then none
  else if e = 0 then (if v % 2 ^ 23 = 0 then some ⟨0, 0⟩ else none)
  else some (fp32Val v)

/-- a ≤ b for exact numbers. -/
def dyLe (a b : Dy) : Bool :=
  let e := min a.e b.e
  decide (dyAt a e ≤ dyAt b e)

/-- Range of an FP32 field: lo ≤ v ≤ hi, the lower bound excluded when `strict`. -/
def fp32In (v : Nat) (lo hi : Dy) (strict : Bool) : Bool :=
  match storedFp32 v with
  | none => false
  | some d => dyLe lo d && dyLe d hi && !(strict && dyLe d lo)

/-- The ranges of R260, but for BIAS_HANDLE's list, which the caller checks. -/
def samplerOk (s : Sampler) : Bool :=
  (fp32In s.temperature ⟨0, 0⟩ ⟨0, 0⟩ false || fp32In s.temperature ⟨1, -10⟩ ⟨1, 10⟩ false)
  && decide (s.topK ≤ 4096)
  && fp32In s.topP ⟨0, 0⟩ ⟨1, 0⟩ true && fp32In s.minP ⟨0, 0⟩ ⟨1, 0⟩ false
  && fp32In s.rep ⟨0, 0⟩ ⟨16, 0⟩ true && fp32In s.presence ⟨-64, 0⟩ ⟨64, 0⟩ false
  && fp32In s.frequency ⟨-64, 0⟩ ⟨64, 0⟩ false

/-- K of R262: TOP_K, or 4,096 when TOP_K is 0. -/
def samplerK (s : Sampler) : Nat := if s.topK = 0 then 4096 else s.topK

/-- The exact quotient of two FP32 values rounded once to FP32 (R261). -/
def divFp32 (a b : Dy) : Nat :=
  let e := a.e - b.e
  let num : Int := if b.m < 0 then -a.m else a.m
  if 0 ≤ e then (roundFloat 23 (num * pow2 e) b.m.natAbs).1
  else (roundFloat 23 num (b.m.natAbs * 2 ^ (-e).toNat)).1

/-- Round half to even of an exact number. -/
def dyRound (d : Dy) : Int := dyRne d 0

/-- The score of a vocabulary row from its FP32 logit, in the order of R261: `c` occurrences in the
history window, `bias` the row's bias when the list holds it. The flag counts in PLEC_SCORE_SAT. -/
def rowScore (s : Sampler) (logit c : Nat) (bias : Option Nat) : Int × Bool :=
  let l1 :=
    if 0 < s.window ∧ 0 < c then
      let v := fp32Val logit
      let a := if 0 < v.m then divFp32 v (fp32Val s.rep) else rne32 (dyMul v (fp32Val s.rep))
      let b := rne32 (dyAdd (fp32Val a) (dyMul ⟨-1, 0⟩ (fp32Val s.presence)))
      rne32 (dyAdd (fp32Val b) (dyMul ⟨-(c : Int), 0⟩ (fp32Val s.frequency)))
    else logit
  let l2 := match bias with
    | some w => rne32 (dyAdd (fp32Val l1) (fp32Val w))
    | none => l1
  let t := fp32Val s.temperature
  let u := if t.m = 0 then rne32 (fp32Val l2) else divFp32 (fp32Val l2) t
  let x := dyRound (dyMul (fp32Val u) (fp32Val 0x43B8AA3B))
  if (2 ^ 30 - 1 : Int) < x then (2 ^ 30 - 1, true)
  else if x < -(2 ^ 30 : Int) then (-(2 ^ 30), true)
  else (x, false)

/-- The selection order of R266: the entry (index, key) `a` comes before `b`. -/
def before (desc : Bool) (a b : Nat × Int) : Bool :=
  if a.2 = b.2 then decide (a.1 < b.1) else if desc then decide (b.2 < a.2) else decide (a.2 < b.2)

/-- Insert an entry into an ordered list. -/
def insertEntry (desc : Bool) (x : Nat × Int) (l : List (Nat × Int)) : List (Nat × Int) :=
  match l with
  | [] => [x]
  | y :: r => if before desc y x then y :: insertEntry desc x r else x :: y :: r

/-- Order a list of entries (R266). -/
def sortEntries (desc : Bool) (l : List (Nat × Int)) : List (Nat × Int) :=
  l.foldr (insertEntry desc) []

/-- The first k entries in order, and those left out (R262, R275). -/
def selectTop (desc : Bool) (k : Nat) (l : List (Nat × Int)) : List (Nat × Int) × List (Nat × Int) :=
  let s := sortEntries desc l
  (s.take k, s.drop k)

/-- TIE_BEYOND (R267, R275): entries left out whose key equals that of slot K - 1; 0 when N_VALID < K. -/
def tieBeyond (k : Nat) (sel rest : List (Nat × Int)) : Nat :=
  if sel.length < k then 0
  else match sel.getLast? with
    | none => 0
    | some z => (rest.filter fun e => e.2 == z.2).length

/-- The mass of a valid entry of score `s` when entry 0 has score `m` (R268). -/
def massOf (m s : Int) : Nat :=
  let x := s - m
  let n := x / 256
  let t := exp2At (x % 256).toNat
  if -65 ≤ n then t * 2 ^ (n + 65).toNat else t / 2 ^ (-(n + 65)).toNat

/-- Masses of a list whose entry 0 has score `m`. -/
def masses (m : Int) (l : List (Nat × Int)) : List Nat := l.map fun e => massOf m e.2

/-- Entries that top-p keeps (R269): up to the smallest index whose cumulated mass reaches
TOP_P * SEL, compared exactly. -/
def topPKeep (topP : Dy) (sel acc : Nat) (ms : List Nat) : Nat :=
  match ms with
  | [] => 0
  | x :: r =>
    if dyLe (dyMul topP ⟨(sel : Int), 0⟩) ⟨((acc + x : Nat) : Int), 0⟩ then 1
    else 1 + topPKeep topP sel (acc + x) r

/-- KEPT of R269: top-p, then min-p; at least entry 0 remains. -/
def keptOf (s : Sampler) (ms : List Nat) : Nat :=
  let a := topPKeep (fp32Val s.topP) ms.sum 0 ms
  let minMass := dyMul (fp32Val s.minP) ⟨1, 80⟩
  max 1 (((ms.take a).takeWhile fun (w : Nat) => dyLe minMass ⟨(w : Int), 0⟩).length)

/-- 32-bit word. -/
def w32 (v : Nat) : Nat := v % 4294967296

/-- The ten rounds of Philox-4x32 (R270). -/
def philoxRounds (n k0 k1 c0 c1 c2 c3 : Nat) : Nat × Nat :=
  match n with
  | 0 => (c0, c1)
  | r + 1 =>
    let p0 := 0xD2511F53 * c0
    let p1 := 0xCD9E8D57 * c2
    philoxRounds r (w32 (k0 + 0x9E3779B9)) (w32 (k1 + 0xBB67AE85))
      (Nat.xor (Nat.xor (p1 / 4294967296) c1) k0) (w32 p1)
      (Nat.xor (Nat.xor (p0 / 4294967296) c3) k1) (w32 p0)

/-- The 64-bit uniform of a draw (R270). -/
def uniform (seed step drawIndex : Nat) : Nat :=
  let r := philoxRounds 10 (w32 seed) (w32 (seed / 4294967296)) (w32 step)
    (step / 4294967296 % 65536 + drawIndex * 65536) 0 0
  r.2 * 4294967296 + r.1

/-- The first entry whose cumulated mass is above the target (R271). -/
def drawWalk (target acc : Nat) (l : List (Nat × Nat)) : Nat :=
  match l with
  | [] => 0
  | (t, w) :: r => if target < acc + w then t else drawWalk target (acc + w) r

/-- What a draw decides. -/
structure Drawn where
  token : Nat
  kept : Nat
  greedy : Bool
  deriving DecidableEq, Repr

/-- Points 2 to 4 of R263 on a merged list with a valid entry (R265, R268-R271). -/
def drawToken (s : Sampler) (u : Nat) (l : List (Nat × Int)) : Drawn :=
  let m := (l.headD (0, 0)).2
  let ms := masses m l
  let kept := keptOf s ms
  let greedy := decide ((fp32Val s.temperature).m = 0 ∨ samplerK s = 1)
  if greedy then ⟨(l.headD (0, 0)).1, kept, true⟩
  else
    let w := (ms.take kept).sum
    ⟨drawWalk (u * w / two64) 0 (((l.map (·.1)).zip ms).take kept), kept, false⟩

/-- A sampling record's fields (R278). -/
structure SampleRec where
  sid : Nat
  step : Nat
  kept : Nat
  token : Nat
  k : Nat
  nValid : Nat
  tie : Nat
  m : Int
  selSum : Nat
  outSum : Nat
  deriving DecidableEq, Repr

/-- The 64 bytes of a sampling record (R278). -/
def sampleRecBytes (r : SampleRec) : Bytes :=
  le 8 r.sid ++ le 6 r.step ++ le 2 r.kept ++ le 4 r.token ++ le 2 r.k ++ le 2 r.nValid ++ le 4 r.tie
    ++ le 4 (twos 32 r.m) ++ le 16 r.selSum ++ le 16 r.outSum

/-- Key types of a selection (R267). -/
inductive KeyType where
  | score
  | fp32
  | uint32
  deriving DecidableEq, Repr

/-- KEY_TYPE codes (R267). -/
def keyTypeOf (c : Nat) : Option KeyType :=
  match c with
  | 0 => some .score
  | 1 => some .fp32
  | 2 => some .uint32
  | _ => none

/-- The order of FP32 values as read under R233: an integer that grows with the value. -/
def fp32Rank (v : Nat) : Int :=
  let d := (floatVal 23 v).1
  dyAt d (-149)

/-- The comparison value of a 32-bit key (R267). -/
def keyRank (t : KeyType) (v : Nat) : Int :=
  match t with
  | .score => signedOf 32 v
  | .fp32 => fp32Rank v
  | .uint32 => (v : Int)

/-- The key as a result slot writes it: a selected FP32 zero is +0, and other FP32 keys are as read
(R233, R267). -/
def keyWritten (t : KeyType) (v : Nat) : Nat :=
  match t with
  | .fp32 => rne32 (fp32Val v)
  | _ => v

/-- What a key adds to a KEY sum (R267): an FP32 key its contribution in units of 2^-64, a SCORE or UINT32 key the integer
itself, as the worked example of spec/15 writes SEL_SUM. -/
def keySummand (t : KeyType) (v : Nat) : Int :=
  match t with
  | .fp32 => (contribution (fp32Val v)).1
  | .score => signedOf 32 v
  | .uint32 => (v : Int)

/-- The encodings of unused slots (R267, R275). -/
def keyFill (t : KeyType) (desc : Bool) : Nat :=
  match t with
  | .score => if desc then 0x80000000 else 0x7FFFFFFF
  | .fp32 => if desc then 0xFF800000 else 0x7F800000
  | .uint32 => 0xFFFFFFFF

/-- The selection result of R267 over entries (index, key): padding entries are not valid. The keys are summed
(SUM_KIND 1); `desc` is the direction, and `dup` the DUP_MERGED count. -/
def selectionResult (t : KeyType) (desc : Bool) (k dup : Nat) (entries : List (Nat × Nat)) : Bytes :=
  let valid := entries.filter fun e => e.1 != 0xFFFFFFFF
  let ranked := valid.map fun e => (e.1, keyRank t e.2)
  let (sel, rest) := selectTop desc k ranked
  let keyFor := fun i => keyWritten t ((valid.find? fun e => e.1 == i).getD (0, 0)).2
  let sumOf := fun (l : List (Nat × Int)) =>
    (l.map fun e => keySummand t ((valid.find? fun z => z.1 == e.1).getD (0, 0)).2).foldl (· + ·) 0
  le 4 k ++ le 4 sel.length ++ le 4 (tieBeyond k sel rest) ++ le 1 (if desc then 0 else 1)
    ++ le 1 (match t with | .score => 0 | .fp32 => 1 | .uint32 => 2) ++ le 1 1 ++ le 1 0 ++ le 4 dup
    ++ zeros 12 ++ le 16 (twos 128 (sumOf sel)) ++ le 16 (twos 128 (sumOf rest))
    ++ (sel.flatMap fun e => le 4 e.1 ++ le 4 (keyFor e.1))
    ++ ((List.replicate (k - sel.length) ()).flatMap fun _ => le 4 0xFFFFFFFF ++ le 4 (keyFill t desc))

/-- A bias list (R276): token and FP32 bias, as loaded. -/
def biasEntriesOf (b : Bytes) : List (Nat × Nat) :=
  (chunks (b.length / 8) 8 b).map fun e => (fieldAt e 0 4, fieldAt e 4 4)

/-- Strictly ascending. -/
def strictAsc (l : List Nat) : Bool :=
  match l with
  | [] => true
  | x :: r => (match r with | [] => true | y :: _ => decide (x < y)) && strictAsc r

/-- The conditions of R276 for a vocabulary of `vocab` tokens. -/
def biasOk (vocab : Nat) (b : Bytes) : Bool :=
  let es := biasEntriesOf b
  decide (b.length % 8 = 0 ∧ 1 ≤ es.length ∧ es.length ≤ 65536)
  && es.all (fun e => decide (e.1 < vocab ∧ e.1 < 2 ^ 20) && decide (e.2 / 2 ^ 23 % 256 ≠ 255)
    && dyLe (fp32Val (e.2 % 2 ^ 31)) ⟨65536, 0⟩)
  && strictAsc (es.map (·.1))

end Sys2Proof.Machine
end

