-- ==== Sys2Proof/Machine/State/Time.lean ====
section
/-! DEFINITION. State of the time and tick unit beside its registers (spec/02). -/

namespace Sys2Proof.Machine

open Sys2Proof

/-- Servo states, encoded as TIME_SERVO (R47, R73). -/
def servoFreeRun : Nat := 0
def servoAcquiring : Nat := 1
def servoLocked : Nat := 2
def servoHoldover : Nat := 3
def servoExpired : Nat := 4

/-- The disciplined counter's fraction, the servo and the waiting EDGE TIME_SET. The whole part of the
counter is the register TIME_NOW_NS. -/
structure TimeSt where
  /-- Fraction in units of 2^-16 ns (R39). -/
  frac : Nat
  /-- Nanoseconds of the local oscillator since the boot ROM started (R56). -/
  localNs : Nat
  /-- Consecutive sync intervals with an offset of at most 100 ns (R47). -/
  good : Nat
  /-- The single step of ACQUIRING has been used (R47, R56). -/
  stepped : Bool
  /-- A TIME_SET with EDGE 1 has taken effect (R75). -/
  edgeSet : Bool
  /-- A TIME_SET with EDGE 1 that waits for its edge, and its value (R75). -/
  edgeCmd : Option (Cmd × Nat)
  /-- Elapsed instant from which the holdover bound runs, and the bound there in units of 10^-11 ns (R48, R679). -/
  holdAt : Nat
  holdBase : Nat
  /-- CLK10M_IN is valid (R674). -/
  clk10m : Bool
  /-- CLK10M_IN has been invalid in the running second (R674). -/
  clkMissed : Bool
  /-- Rate correction in force, ppb (R40), and what it has gathered below 2^-16 ns, in units of 10^-9 of that. -/
  slew : Int
  sub : Int
  /-- Path delays measured by delay request-response, newest per source (R44). -/
  pathDelay : List (SyncSrc × Nat)
  deriving DecidableEq, Repr

/-- A step that a plan holds: the session, its step number, whether it was carried into the plan
(R63), and whether it is an intake step (R127). -/
structure PlanStep where
  key : SessKey
  step : Nat
  carried : Bool
  intake : Bool
  /-- How often the step has run before (R219). -/
  attempt : Nat
  deriving DecidableEq, Repr

/-- A tick plan (R65): header fields, entries in ascending offset, the steps of its batch, the quads
available to it (R581), and the digest of its entries. -/
structure Plan where
  number : Nat
  start : Nat
  period : Nat
  localOnly : Bool
  maint : Bool
  empty : Bool
  entries : List PlanEntry
  steps : List PlanStep
  quads : Nat
  digest : Bytes
  deriving DecidableEq, Repr

/-- A maintenance request (R70-R72): what it does, the unit class and unit, its length, the tick it has
been placed in, counted as `fired` counts, and whether it was placed as a maintenance tick. -/
structure MaintReq where
  kind : Nat
  unitClass : Nat
  unit : Nat
  sub : Nat
  length : Nat
  cmd : Option Cmd
  placed : Option Nat
  asTick : Bool
  deriving DecidableEq, Repr

/-- One PUBLISH waiting for the publication batch (R156). -/
structure PubReq where
  version : Nat
  module_ : Nat
  slot : Nat
  cmd : Cmd
  data : Bytes
  deriving DecidableEq, Repr

/-- A window that a plan entry has opened on a port (R458): class, port, and its end in elapsed time. -/
structure Window where
  tc : Nat
  port : Nat
  until_ : Nat
  deriving DecidableEq, Repr

/-- The tick, its plans and what waits for a plan. -/
structure TickSt where
  /-- The first tick has fired (R680). -/
  running : Bool
  /-- Counter value and local instant at which the running tick began, and its length (R50, R56). Before the first tick: the
  counter value and the instant from which its boundary is looked for (R680). -/
  start : Nat
  startLocal : Nat
  period : Nat
  /-- The running plan, and the plan sealed for the next tick (R62). -/
  plan : Option Plan
  next : Option Plan
  /-- The last 64 sealed plans, newest first (R65). -/
  ring : List Plan
  /-- The running tick's deadline has passed (R53, R62). -/
  sealed : Bool
  /-- A step or grid correction since the last tick fired (R56, R57), and the counter value that the last step correction
  gave. -/
  corrected : Bool
  corrTo : Nat
  /-- Ticks fired since reset: what "the last n ticks" counts in (R654). -/
  fired : Nat
  /-- Value of `fired` at the last maintenance tick and at the last weight-late carry (R654). -/
  lastMaint : Option Nat
  lastWeightLate : Option Nat
  /-- The last sealed plan had quads removed by the cap, or left an enabled partition none (R654). -/
  capQuads : Bool
  capZero : Bool
  /-- Maintenance requests placed or waiting (R70). -/
  maint : List MaintReq
  /-- The requests whose units are under maintenance in the running tick (R72). -/
  maintNow : List MaintReq
  /-- The publication batch of the next tick (R156). -/
  pubBatch : List PubReq
  /-- Modules whose beacon differed while GROUP_MISMATCH is set (R59). -/
  mismatch : List Nat
  /-- Running collective and checkpoint windows (R458). -/
  windows : List Window
  deriving DecidableEq, Repr

end Sys2Proof.Machine
end

