-- ==== Sys2Proof/Machine/State/Sess.lean ====
section
/-! DEFINITION. State of sessions, steps, sampling and text (spec/04, spec/06 to spec/09). -/

namespace Sys2Proof.Machine

open Sys2Proof

/-- Session state codes (R126). -/
def ssFree : Nat := 0
def ssCreated : Nat := 1
def ssActive : Nat := 2
def ssStopped : Nat := 3
def ssWaiting : Nat := 4
def ssParked : Nat := 5
def ssMigrating : Nat := 6
def ssExpired : Nat := 7

/-- A page entry of a session's page table (R174). -/
structure PageEnt where
  firstPos : Nat
  cls : Nat
  valid : Nat
  page : Nat
  staged : Bool
  prefixRef : Bool
  region : Bool
  forked : Bool
  deriving DecidableEq, Repr

/-- Why a prefix match ends: its pages cover what the hits allow, a page holds a differing token, or a page has no room in
its count (R179, R185, R186). -/
inductive MatchEnd where
  | covered | differs | saturated
  deriving DecidableEq, Repr

/-- The running turn of a session: inputs not yet ingested, what the APPEND asked for, the regions it pins
and where its text generation began (R129, R136, R157, R158). -/
structure Turn where
  input : List Nat
  generate : Bool
  /-- The APPEND that waits for its last intake step, none once completed (R136). -/
  cmd : Option Cmd
  /-- Regions pinned for the turn: name and version (R157). -/
  regions : List (Nat × Nat)
  /-- Tokens that a prefix match or a KV region supplies: intake over them computes nothing (R187). -/
  matched : Nat
  /-- The first step waits for a promotion ordered at this plan (R134). -/
  revive : Option Nat
  /-- Token IDs generated in this turn, oldest first, for session memory (R142). -/
  generated : List Nat
  /-- A prefix match made in the seal that runs, which stands when the seal admits the turn's first step (R180, R184). -/
  tried : Option MatchEnd
  deriving DecidableEq, Repr

/-- A session on this module: its descriptor (R139) and what hangs off it. -/
structure Desc where
  index : Nat
  sid : Nat
  ns : Nat
  state : Nat
  stopReason : Nat
  context : Nat
  part : Nat
  home : Nat
  committed : Nat
  flags : Nat
  ctxLen : Nat
  prevCtxLen : Nat
  tokensLeft : Nat
  /-- A HOST_LOST that waits for an event ring, with the slot that was lost (R113). -/
  hostLost : Option Nat
  retries : Nat
  policy : Nat
  profile : Nat
  seed : Nat
  model : Nat
  pageTable : Nat
  tokenLog : Nat
  inboxBase : Nat
  inboxLen : Nat
  streamRing : Nat
  eventRing : Nat
  smemBase : Nat
  smemLen : Nat
  ttlMs : Nat
  parkMs : Nat
  timerStart : Nat
  wakeHint : Nat
  grammar : Nat
  stopSet : Nat
  fretState : Nat
  sampler : Sampler
  parent : Nat
  textState : Nat
  turnStarts : List (Nat × Nat)
  lastCommit : Nat
  /-- This module holds the home entry; otherwise a replica descriptor (R122, R323). -/
  isHome : Bool
  /-- The token record: the committed history (R147). -/
  tokens : List Nat
  /-- The page table's entries in FIRST_POS order (R174, R175). -/
  table : List PageEnt
  /-- Fretboard and text generations of COMMITTED_STEP and of the step before it (R144, R311). -/
  text : TextGen
  textPrev : TextGen
  fret : FretGen
  fretPrev : FretGen
  turn : Option Turn
  /-- Prefix blocks this session recorded: block number and hash (R182, R183). -/
  blocks : List (Nat × Nat)
  /-- State to return to from MIGRATING, the target home, and the members that have not reported (R138). -/
  migrFrom : Nat
  migrHome : Nat
  migrWait : List Nat
  migrCmd : Option Cmd
  /-- The tenant key slot of the window or slot the session was created from (R608). -/
  keySlot : Nat
  /-- The instant of the session's expiry, from which its grace period runs (R151). -/
  expiry : Nat
  /-- Epoch words of the descriptor, page table, token log, text block and Fretboard block (R519). -/
  epochs : List Nat
  deriving DecidableEq, Repr

/-- A published region (R156-R158): its current version and those still referenced. -/
structure Region where
  name : Nat
  version : Nat
  hash : Bytes
  /-- Byte region data; empty for a KV region. -/
  data : Bytes
  /-- KV region: model, partition, profile, format, tokens and pages. -/
  kv : Bool
  model : Nat
  part : Nat
  profile : Nat
  format : Nat
  tokens : List Nat
  pages : List Nat
  current : Bool
  setThisTick : Bool
  /-- Pins held: modules and local sessions that reference the version (R157, R419). -/
  pins : Nat
  remotePins : List Nat
  deriving DecidableEq, Repr

structure SessSt where
  descs : List Desc
  regions : List Region
  deriving DecidableEq, Repr

/-- An outstanding remote attention request (R219, R225). -/
structure RemoteReq where
  tag : Nat
  owner : Nat
  layer : Nat
  head : Nat
  pages : List Nat
  attempt : Nat
  rows : Nat
  deriving DecidableEq, Repr

/-- Why a step cannot complete in its tick (R67, R380). -/
inductive Cause where
  | fabricLost
  | weightLate
  | t4Late
  | t3Late
  | t2Late
  | copyBw
  | sync
  | maint
  | vcache
  | fretLate
  | stepErr
  deriving DecidableEq, Repr

/-- What a committed step leaves for the seal: its records, stop and sampling record (R107, R128, R278). `cut` is the rewind
of STOP_TRIM (R304), `from_` the first prefix block to record (R182). -/
structure StepDone where
  time : Nat
  token : Nat
  text : Bytes
  held : Nat
  reason : Option Nat
  cut : Bool
  last : Bool
  from_ : Nat
  deriving DecidableEq, Repr

/-- A running step (R32): the point it has reached and everything it has staged (R143). -/
structure Step where
  key : SessKey
  step : Nat
  intake : Bool
  /-- Input tokens this step ingests, and whether it ends with a draw (R127). -/
  take : Nat
  draws : Bool
  attempt : Nat
  started : Bool
  /-- Layers that LAYER_START has launched, layers begun, and halves whose partials have been sent (R252). -/
  reach : Nat
  layer : Nat
  halves : Nat
  requests : List RemoteReq
  /-- Partials and shards received, by layer, half and slice (R252, R255). -/
  partials : List (Nat × Nat × Nat × List Nat)
  shards : List (Nat × Nat × Nat × List Nat)
  /-- Peer lists and remainders received, by slice (R263, R268). -/
  lists : List (Nat × List (Nat × Int))
  remainders : List (Nat × Nat × Nat)
  votes : List Nat
  causes : List Cause
  /-- Merged list and draw, once point 6 is done. -/
  merged : Option (List (Nat × Int))
  token : Option Nat
  kept : Nat
  /-- Empty-mask outcome with GRAMMAR_DEAD_FAIL (R310). -/
  dead : Bool
  /-- Point 10 is complete and the commit waits for host copies of its lines or for votes (R90, R145). -/
  ready : Bool
  /-- The member has committed the step before and only replays it (R146). -/
  replay : Bool
  committed : Bool
  done : Option StepDone
  /-- Error detected in the step (R148). -/
  error : Bool
  /-- T1 bytes reserved for the step at its admission (R372). -/
  reserve : Nat
  /-- Units charged to the step (R559). -/
  charge : Nat
  deriving DecidableEq, Repr

structure RunSt where
  steps : List Step
  /-- Steps carried out of the ending tick, in the order they ran (R63). -/
  carried : List PlanStep
  /-- Stream records of the commits of the running tick: slot, ring, SID, records (R107). -/
  batch : List (Nat × Nat × Nat × List Bytes)
  /-- Layer whose launch waits for its weights, by model (R378). -/
  waitWeights : List (Nat × Nat)
  /-- Votes and announcements held for an unsealed plan (R61). -/
  announced : List (SessKey × Nat × Nat)
  deriving DecidableEq, Repr

/-- A loaded bias list (R276, R277). -/
structure BiasList where
  handle : Nat
  model : Nat
  entries : List (Nat × Nat)
  deriving DecidableEq, Repr

structure SampSt where
  /-- The sampling record ring, newest first, at most 1,048,576 (R278). -/
  records : List SampleRec
  bias : List BiasList
  deriving DecidableEq, Repr

/-- A tokenisation pass on a text unit, or waiting for one (R288): its command by order, and its unit. -/
structure TextPass where
  order : Nat
  unit : Option Nat
  deriving DecidableEq, Repr

/-- Loaded data on its way to the other members (R313, R314): the data, the command, members that have
not confirmed, and the export extent it lies in. -/
structure LoadWork where
  kind : LoadKind
  handle : Nat
  model : Nat
  data : Bytes
  cmd : Option Cmd
  wait : List Nat
  extent : Option Nat
  /-- The bytes that the data takes in T1, and the partition that pays for them (R549, R683). -/
  part : Nat
  deriving DecidableEq, Repr

structure TextSt where
  vocabs : List Vocab
  grammars : List (Nat × Nat × Nat × Grammar)
  stops : List (Nat × Nat × List Bytes)
  passes : List TextPass
  loads : List LoadWork
  /-- T1 bytes of what is loaded: kind, handle, model, bytes and partition (R683). -/
  held : List (LoadKind × Nat × Nat × Nat × Nat)
  deriving DecidableEq, Repr

/-- Sessions, steps, sampling and text at reset: none (R343, R648). -/
def SessSt.reset : SessSt := { descs := [], regions := [] }
def RunSt.reset : RunSt := { steps := [], carried := [], batch := [], waitWeights := [], announced := [] }
def SampSt.reset : SampSt := { records := [], bias := [] }
def TextSt.reset : TextSt := { vocabs := [], grammars := [], stops := [], passes := [], loads := [], held := [] }

end Sys2Proof.Machine
end

