-- ==== Sys2Proof/Machine/State/Ckpt.lean ====
section
/-! DEFINITION. State of checkpoint and restore (spec/16). -/

namespace Sys2Proof.Machine

open Sys2Proof

/-- A checkpoint store (R516): its number, KIND, module or region, and capacity. -/
structure CkStore where
  num : Nat
  kind : Nat
  target : Nat
  cap : Nat
  deriving DecidableEq, Repr

/-- A chunk list entry (R530) with its bytes in the store. -/
structure CkChunk where
  hash : Bytes
  loc : Nat
  len : Nat
  deriving DecidableEq, Repr

/-- An object entry of a shard manifest (R530), its chunks, and its bytes as captured. `ns` is the namespace of the session
and `page` tells a page from a session in a GONE entry. `image` is the loaded image that a slice image was captured from. -/
structure CkObj where
  kind : Nat
  source : Nat
  valid : Nat
  object : Nat
  ns : Nat
  page : Bool
  bytes : Bytes
  image : Option Model
  chunks : List CkChunk
  deriving DecidableEq, Repr

/-- A shard (R530, R531) in the store of KIND `kind` and module or region `target`. -/
structure Shard where
  kind : Nat
  target : Nat
  ckptId : Nat
  tick : Nat
  epoch : Nat
  baseEpoch : Nat
  baseTick : Nat
  model : Nat
  group : Nat
  slice : Nat
  module_ : Nat
  full : Bool
  baseWeights : Bool
  committed : Bool
  verifyFailed : Bool
  chainLen : Nat
  manLoc : Nat
  entries : List CkObj
  deriving DecidableEq, Repr

/-- An entry of the dedup table (R527). -/
structure Dedup where
  hash : Bytes
  kind : Nat
  target : Nat
  refs : Nat
  loc : Nat
  len : Nat
  deriving DecidableEq, Repr

/-- A capture (R521-R526), or the import of a shard (R537). `shard` is none until the capture seal; its entries are the
objects written. `todo` are the objects left to write and `chunks` the chunks of the first of them already done.
`buffered` are the objects copied into the capture buffer (kind, namespace and object) and `bufUsed` their bytes. A capture
stays until the votes of its members are settled. -/
structure Capture where
  model : Nat
  ckptId : Nat
  tick : Nat
  kind : Nat
  target : Nat
  full : Bool
  baseWeights : Bool
  part : Nat
  regions : List Nat
  cmd : Option Cmd
  import_ : Bool
  shard : Option Shard
  todo : List CkObj
  chunks : List CkChunk
  /-- The location of the chunk being written in a REMOTE store, once its extent is sealed. -/
  placed : Option Nat
  buffered : List (Nat × Nat × Nat)
  bufUsed : Nat
  bufBytes : Nat
  votes : List Nat
  committed : Bool
  deriving DecidableEq, Repr

/-- A restore (R532-R536): the candidates left, newest first, the one being built, its objects, the T1 bytes reserved, and
whether every member has finished. -/
structure Restore where
  model : Nat
  kind : Nat
  target : Nat
  part : Nat
  cmd : Option Cmd
  cands : List (Nat × Nat)
  chosen : Nat × Nat
  built : List CkObj
  reserve : Nat
  ready : Bool
  deriving DecidableEq, Repr

structure CkptSt where
  stores : List CkStore
  shards : List Shard
  dedup : List Dedup
  captures : List Capture
  restores : List Restore
  deriving DecidableEq, Repr

/-- No store and no shard is known at reset (log entry 5). -/
def CkptSt.reset : CkptSt :=
  { stores := []
    shards := []
    dedup := []
    captures := []
    restores := [] }

end Sys2Proof.Machine
end

