-- ==== Sys2Proof/Machine/State/Fabric.lean ====
section
/-! DEFINITION. State of the fabric memory space (spec/12). -/

namespace Sys2Proof.Machine

open Sys2Proof

/-- A module entry of a routing table (R398). -/
structure RouteEnt where
  module_ : Nat
  routeA : Nat
  routeB : Nat
  present : Bool
  self : Bool
  spare : Bool
  flashCopy : Bool
  hopsA : Nat
  hopsB : Nat
  fdom : Nat
  deriving DecidableEq, Repr

/-- A routing table (R398): its non-zero module entries and its pool list. -/
structure RouteTable where
  gen : Nat
  entries : List RouteEnt
  pool : List Nat
  deriving DecidableEq, Repr

/-- An extent table entry (R394). -/
structure Extent where
  base : Nat
  len : Nat
  allocator : Nat
  keySlot : Nat
  sealed : Bool
  scratch : Bool
  shared : Bool
  flash : Bool
  tag : Nat
  deriving DecidableEq, Repr

/-- What an outstanding transaction serves. -/
inductive TxnUse where
  /-- A placement of copies (R411). -/
  | place (id : Nat)
  | promote (obj : ObjRef)
  | repairRead (obj : ObjRef)
  | pattn (key : SessKey) (layer : Nat)
  | push (key : SessKey)
  | nmOp (cmd : Cmd)
  | free (cmd : Option Cmd)
  | weight (model layer : Nat)
  | load (kind : LoadKind) (handle model : Nat)
  | forward
  | probe
  | control
  deriving DecidableEq, Repr

/-- An outstanding transaction (R402, R405): the instant it was sent, the port set it left by (R401), and whether it has
timed out. -/
structure TxnOut where
  txn : FabTxn
  at_ : Nat
  ports : List Nat
  use : TxnUse
  late : Bool
  deriving DecidableEq, Repr

/-- What a placement of copies in other modules serves (R411). -/
inductive PlaceWhat where
  | demote (obj : ObjRef)
  | repair (obj : ObjRef)
  | put (cmd : Cmd)
  | ckpt (model : Nat)
  deriving DecidableEq, Repr

/-- A placement of copies (R411): the copies still to make, those sealed, the owner and extent now being
written, owners whose ALLOC failed, whether the FDOM condition has been dropped, and the bytes. -/
structure Placing where
  id : Nat
  what : PlaceWhat
  need : Nat
  got : List (Nat × Nat)
  cur : Option (Nat × Option Nat)
  tried : List Nat
  anyDom : Bool
  flash : Bool
  tc : Nat
  keySlot : Nat
  scratch : Bool
  shared : Bool
  data : Bytes
  deriving DecidableEq, Repr

/-- Peer states (R421). -/
inductive PeerState where
  | absent
  | present
  | suspect
  | lost
  deriving DecidableEq, Repr

/-- A peer: its state, the instant it entered SUSPECT, and the GEN in force at its loss (R421). A module
not listed is ABSENT. -/
structure Peer where
  module_ : Nat
  state : PeerState
  since : Nat
  lostGen : Nat
  deriving DecidableEq, Repr

/-- A push buffer that is held (R416): its holder, and the session whose pages it carries. Its bytes lie in the exported
memory. -/
structure PushBuf where
  buf : Nat
  src : Nat
  key : SessKey
  deriving DecidableEq, Repr

/-- Pages that another module pushes to this one (R417, R418): headers still to come, the pages allocated with the plane
bytes received so far, bytes received that no field has taken yet, and the T1 bytes reserved (R683). -/
structure PushIn where
  src : Nat
  key : SessKey
  keySlot : Nat
  headers : Nat
  pages : List Nat
  planes : List (Nat × Bytes)
  rest : Bytes
  reserve : Nat
  deriving DecidableEq, Repr

/-- A push of this module (R416, R417): the parts still to send, each with the number of layers that must have started in
the running tick, the layers started, and whether a buffer has been asked for or is being drained. A push of the inputs of a
forwarded command names no pages: its key is made of the command's tag, and the command follows it (R125). -/
structure PushOut where
  key : SessKey
  dst : Nat
  keySlot : Nat
  pages : Nat
  bytes : Nat
  parts : List (Nat × Bytes)
  reached : Nat
  busy : Bool
  opened : Bool
  fwd : Option (Nat × Cmd)
  deriving DecidableEq, Repr

/-- An extent that EXTENT_PUT or NM_OP wrote under a partition key (R426, R610, R618): the global address of copy 0, its
bytes, the partition, and its further copies. -/
structure PutExt where
  addr : Nat
  len : Nat
  part : Nat
  copies : List Nat
  deriving DecidableEq, Repr

/-- An entry of the copy table (R412). -/
structure CopyEnt where
  idx : Nat
  copy1 : Nat
  copy2 : Nat
  deriving DecidableEq, Repr

structure FabSt where
  table : Option RouteTable
  /-- Table that takes effect at the start of a tick, with that tick's plan number (R399). -/
  nextTable : Option (RouteTable × Nat)
  extents : List Extent
  txns : List TxnOut
  /-- Transactions that wait for earlier ones of a changed port set, in order (R401). -/
  waiting : List TxnOut
  peers : List Peer
  push : List PushBuf
  pushIn : List PushIn
  pushOut : List PushOut
  /-- PUSH_OPENs that wait for a free buffer, in order (R416). -/
  pushWait : List FabTxn
  /-- The push region has been taken from the T1 pool (R393). -/
  pushTaken : Bool
  cursor : Nat
  copytab : List CopyEnt
  /-- Forwarded commands that await their completion: TAG, module and command (R125). -/
  forwards : List (Nat × Nat × Cmd)
  /-- SEALs of FLASH extents that wait for their programs (R403). -/
  sealWait : List FabTxn
  /-- Placements of copies, and the number of the next one. -/
  placing : List Placing
  nextPlace : Nat
  /-- Next transaction TAG (R402). -/
  nextTag : Nat
  /-- Instant of the last probe round (R421). -/
  lastProbe : Nat
  /-- Objects reported absent by an owner since last placed (R414). -/
  absentAt : List (ObjRef × Nat)
  puts : List PutExt
  deriving DecidableEq, Repr

/-- The fabric memory space at reset: no table, no extent, every module ABSENT, cursor 0 (R393, R411,
R421). -/
def FabSt.reset : FabSt :=
  { table := none
    nextTable := none
    extents := []
    txns := []
    waiting := []
    peers := []
    push := []
    pushIn := []
    pushOut := []
    pushWait := []
    pushTaken := false
    cursor := 0
    copytab := []
    forwards := []
    sealWait := []
    placing := []
    nextPlace := 0
    nextTag := 0
    lastProbe := 0
    absentAt := []
    puts := [] }

end Sys2Proof.Machine
end

