-- ==== Sys2Proof/Machine/State/Flash.lean ====
section
/-! DEFINITION. State of the flash and its translation layer (spec/14). -/

namespace Sys2Proof.Machine

open Sys2Proof

/-- States of a superblock. -/
inductive SbState where
  | free
  | openWrite
  | openReloc
  | closed
  | erasing
  | retired
  deriving DecidableEq, Repr

/-- A superblock that is not as it left manufacture (R468, R474, R480, R481): its mode and state, write
sequence, erase count in erase units, chunks written, and the elapsed instant of its last full read. -/
structure Superblock where
  sb : Nat
  slc : Bool
  state : SbState
  seq : Nat
  ec : Nat
  used : Nat
  patrolAt : Nat
  /-- Moved to the head of the fold or collection queue (R481, R491). -/
  weak : Bool
  deriving DecidableEq, Repr

/-- A map entry that is VALID (R472): the superblock and stripe, the channel, and BACKING. -/
structure MapEnt where
  unit : Nat
  sb : Nat
  stripe : Nat
  channel : Nat
  slc : Bool
  backing : Bool
  deriving DecidableEq, Repr

/-- What a flash write serves (R475). -/
inductive FlashUse where
  | demote (obj : ObjRef)
  | extent (off : Nat)
  | capture (model : Nat)
  | dump
  | relocate (unit : Nat)
  | local_ (cmd : Cmd)
  /-- A generation of an index, and entries of a side list's mirror with the list's length (R501, R510). -/
  | index (handle gen : Nat)
  | side (cmd : Cmd) (len : Nat)
  deriving DecidableEq, Repr

/-- An allocated run of map units (R471). -/
structure FlashRun where
  first : Nat
  count : Nat
  deriving DecidableEq, Repr

/-- A write that has been accepted and is not yet programmed (R475). -/
structure FlashWrite where
  id : Nat
  use : FlashUse
  first : Nat
  count : Nat
  chunks : List MapEnt
  deriving DecidableEq, Repr

/-- Cumulative counts of a channel in the health log (R490). -/
structure ChanHealth where
  ch : Nat
  grownBad : Nat
  erasesTlc : Nat
  erasesSlc : Nat
  retries : Nat
  soft : Nat
  parity : Nat
  uncorrectable : Nat
  progFails : Nat
  eraseFails : Nat
  hist : List Nat
  deriving DecidableEq, Repr

/-- A fold or a garbage collection that runs (R476, R479). -/
structure Collect where
  sb : Nat
  fold : Bool
  deriving DecidableEq, Repr

structure FlashSt where
  sbs : List Superblock
  map : List MapEnt
  runs : List FlashRun
  writes : List FlashWrite
  nextId : Nat
  nextSeq : Nat
  /-- Map changes since the last snapshot (R472). -/
  journal : Nat
  collecting : List Collect
  /-- Map units of allocated runs that are lost (R484, R485). -/
  lost : List Nat
  /-- FTL_SLC_PCT in force, and the value held while a channel is REBUILDING or OUT (R478, R491). -/
  slcPct : Nat
  /-- Donor blocks used, by channel, die and plane: channel * 32 + die * 4 + plane (R474, R482). -/
  donors : List (Nat × Nat)
  channels : List ChanHealth
  /-- Temperature section: histogram, lowest and highest sample, hourly means newest first, samples of
  the running hour (R490). -/
  tempHist : List Nat
  tempMin : Int
  tempMax : Int
  tempHourly : List Int
  tempSamples : List Int
  /-- The newest snapshot of the health log, and its instant. -/
  health : Bytes
  healthAt : Nat
  deriving DecidableEq, Repr

/-- The flash as a module leaves manufacture: nothing written, no erase counted (log entry 5). -/
def FlashSt.reset : FlashSt :=
  { sbs := []
    map := []
    runs := []
    writes := []
    nextId := 0
    nextSeq := 0
    journal := 0
    collecting := []
    lost := []
    slcPct := 3
    donors := []
    channels := []
    tempHist := List.replicate 16 0
    tempMin := 0
    tempMax := 0
    tempHourly := []
    tempSamples := []
    health := []
    healthAt := 0 }

end Sys2Proof.Machine
end

