-- ==== Sys2Proof/Machine/State/Host.lean ====
section
/-! DEFINITION. State of the host interface beside the HOST pages (spec/03). -/

namespace Sys2Proof.Machine

open Sys2Proof

/-- What a slot keeps beside its HOST page: how it entered LOST, and the sessions marked by R111. -/
structure Slot where
  viaLost : Bool
  lostAt : Nat
  marked : List SessKey
  /-- Instant an UNBINDING flush started (R80). -/
  unbindAt : Nat
  deriving DecidableEq, Repr

/-- A submission queue (R93, R97): 2^m entries, the CQ it completes into, its polled tail line, its
indices, and the CIDs of accepted commands that have not completed (FENCE, R102). -/
structure Sq where
  slot : Nat
  id : Nat
  base : Nat
  m : Nat
  cq : Nat
  polled : Bool
  line : Nat
  head : Nat
  tail : Nat
  outstanding : List Nat
  deriving DecidableEq, Repr

/-- A completion queue (R93, R97, R99): `waiting` holds entries that did not fit (R93). -/
structure Cq where
  slot : Nat
  id : Nat
  base : Nat
  m : Nat
  polled : Bool
  line : Nat
  irq : Bool
  vector : Nat
  head : Nat
  tail : Nat
  phase : Bool
  waiting : List Bytes
  deriving DecidableEq, Repr

/-- A stream ring or an event ring (R97, R107-R110): `spill` holds the records in a stream ring's spill
area, `dropped` the number of events discarded since the last room. -/
structure Ring where
  kind : QueueKind
  slot : Nat
  id : Nat
  base : Nat
  m : Nat
  line : Nat
  irq : Bool
  vector : Nat
  head : Nat
  tail : Nat
  phase : Bool
  spill : List Bytes
  dropped : Nat
  deriving DecidableEq, Repr

/-- A snoop-filter entry (R88): a line of the session range of a partition that a slot holds. The list
is ordered by grant, least recent first. -/
structure Snoop where
  part : Nat
  line : Nat
  slot : Nat
  owned : Bool
  deriving DecidableEq, Repr

/-- What waits on a back-invalidate (R88-R91, R684). -/
inductive BiPurpose where
  /-- A grant to a slot of a line, own or shared, waits for a free filter entry. -/
  | evict (forSlot line : Nat) (own : Bool)
  /-- A host read waits for the line another slot owns. -/
  | read (forSlot line : Nat) (own : Bool)
  /-- A device write of committed bytes waits for the copies of the line. -/
  | write (addr : Nat) (data : Bytes)
  /-- An inbox snapshot waits: the order of acceptance of its command. -/
  | snapshot (order : Nat)
  /-- The line is written back because its slot is UNBINDING (R80). -/
  | flush
  deriving DecidableEq, Repr

/-- An outstanding back-invalidate. -/
structure Bi where
  part : Nat
  line : Nat
  slot : Nat
  at_ : Nat
  purpose : BiPurpose
  deriving DecidableEq, Repr

/-- State of one MSI-X vector (R106): the instant of its last message and a held message. -/
structure Msix where
  slot : Nat
  vector : Nat
  last : Nat
  held : Bool
  deriving DecidableEq, Repr

structure HostSt where
  slots : List (Nat × Slot)
  sqs : List Sq
  cqs : List Cq
  rings : List Ring
  snoop : List Snoop
  bis : List Bi
  /-- Accepted commands that have not taken effect, in order of acceptance (R68, R98, R102). -/
  accepted : List Cmd
  /-- Order number of the next acceptance (R102). -/
  nextOrder : Nat
  /-- Round-robin position: the last slot and SQ served (R100). -/
  rrSlot : Nat
  /-- The last queue served in each slot (R100). -/
  rrSq : List (Nat × Nat)
  msix : List Msix
  /-- The upstream CXL link is up (R115, R637). -/
  linkUp : Bool
  /-- CXL requests are no longer answered (R116, R629). -/
  fatal : Bool
  deriving DecidableEq, Repr

end Sys2Proof.Machine
end

