-- ==== Sys2Proof/Machine/State/Link.lean ====
section
/-! DEFINITION. State of the fabric ports and of the traffic scheduler (spec/13). -/

namespace Sys2Proof.Machine

open Sys2Proof

/-- Port states (R436). -/
def psDisabled : Nat := 0
def psTraining : Nat := 1
def psUp : Nat := 2
def psDegraded : Nat := 3
def psDown : Nat := 4

/-- The egress queue of one class on a port (R449-R451): frames in order, and the virtual times of the
class; `tag` is that of the head frame. `waited` records that the head's wait for its window has been
counted (R459), and `isOpen` whether the class was open at the last look (R451). -/
structure Egress where
  frames : List FabTxn
  start : Nat
  fin : Nat
  tag : Nat
  waited : Bool
  isOpen : Bool
  deriving DecidableEq, Repr

/-- A frame under reassembly (R434): its key slot and the bytes of its flits with their sequences. -/
structure Assembly where
  keySlot : Nat
  parts : List (Nat × Bytes)
  deriving DecidableEq, Repr

/-- A reassembled frame that awaits decryption: class and sequences of its flits. -/
structure Assembled where
  tc : Nat
  seqs : List Nat
  deriving DecidableEq, Repr

/-- One fabric port (R431-R454). -/
structure LinkPort where
  /-- Instant of entry to TRAINING and to DOWN. -/
  trainAt : Nat
  downAt : Nat
  /-- Next sequence to send; next sequence wanted (R432). -/
  txSeq : Nat
  rxNext : Nat
  /-- Sent data flits that no ACK covers (R438). -/
  replay : List Flit
  /-- Flits of started frames that await credit or replay room, TC0 and other (R434, R438, R441). -/
  sendTc0 : List Flit
  sendBulk : List Flit
  egress : List Egress
  vt : Nat
  /-- Token buckets of TC1-TC7 in bytes, index c - 1 (R452, R453); `refilled` is the last refill. -/
  shaper : List Nat
  policer : List Nat
  /-- Credits held per class, and credits owed to the peer (R441). -/
  credits : List Nat
  owed : List Nat
  assembly : List (Nat × Assembly)
  assembled : List Assembled
  txSalt : Nat
  rxSalt : Nat
  /-- Frame counters of both directions (R445). -/
  txCount : Nat
  rxCount : Nat
  /-- The last sequence named by NAK and how often in a row (R439). -/
  nakSeq : Nat
  nakRun : Nat
  /-- The previous key slot and the instant of the switch (R448). -/
  prevKey : Option (Nat × Nat)
  /-- TC0 frames of this module that await injection, and bytes injected in this interval (R454). -/
  inject : List FabTxn
  injected : Nat
  /-- Forwarded TC0 frames that wait in the ingress buffer (R455). -/
  held : List FabTxn
  /-- Lane under calibration, and the lane that carries its data, itself when it carried none (R444). -/
  calLane : Option (Nat × Nat)
  /-- Bit i: lane Li worked at training and has not failed since (R437, R442). -/
  working : Nat
  /-- Instant the port is free again, in units of 0.1 ps of elapsed time; the class of the frame on the
  wire, and whether it has overrun the close of its class (R459). -/
  freeAt : Nat
  curTc : Nat
  curOver : Bool
  deriving DecidableEq, Repr

/-- A gate list (R456): cycle and entries (start, length, open). -/
structure GateList where
  cycle : Nat
  entries : List (Nat × Nat × Nat)
  deriving DecidableEq, Repr

structure LinkSt where
  ports : List LinkPort
  /-- Loaded lists by number; list 0 is built in (R457). -/
  lists : List (Nat × GateList)
  /-- Index of the current entry of the list in force (R458). -/
  entry : Nat
  /-- Armed switch: list and counter value (R461). -/
  armed : Option (Nat × Nat)
  /-- Load in progress: list number, slot and address (R460). -/
  loading : Option (Nat × Nat × Nat)
  /-- Instant of the last refill (R452). -/
  refillAt : Nat
  deriving DecidableEq, Repr

/-- A class queue at reset: vt and fin are 0 (R451). -/
def Egress.reset : Egress :=
  { frames := [], start := 0, fin := 0, tag := 0, waited := false, isOpen := true }

/-- A port at reset: shapers empty, policers full at 72 KiB (R452, R453). -/
def LinkPort.reset : LinkPort :=
  { trainAt := 0
    downAt := 0
    txSeq := 0
    rxNext := 0
    replay := []
    sendTc0 := []
    sendBulk := []
    egress := List.replicate 8 Egress.reset
    vt := 0
    shaper := List.replicate 7 0
    policer := List.replicate 7 73728
    credits := 256 :: List.replicate 7 1024
    owed := List.replicate 8 0
    assembly := []
    assembled := []
    txSalt := 0
    rxSalt := 0
    txCount := 0
    rxCount := 0
    nakSeq := 0
    nakRun := 0
    prevKey := none
    inject := []
    injected := 0
    held := []
    calLane := none
    working := 0
    freeAt := 0
    curTc := 0
    curOver := false }

/-- Gate list 0 (R457). -/
def gateList0 : GateList := { cycle := 1000000, entries := [(0, 1000, 0x01), (1000, 999000, 0xFF)] }

/-- The traffic scheduler at reset. -/
def LinkSt.reset : LinkSt :=
  { ports := List.replicate 16 LinkPort.reset
    lists := [(0, gateList0)]
    entry := 0
    armed := none
    loading := none
    refillAt := 0 }

end Sys2Proof.Machine
end

