-- ==== Sys2Proof/Machine/State/Newel.lean ====
section
/-! DEFINITION. State of the Newel associative directory (spec/10). -/

namespace Sys2Proof.Machine

open Sys2Proof

/-- A valid Newel row (R320): the match part (key, table, priority, prefilter, reference bit) and the
shadow part (key, table, priority, result), with what the ECC of the shadow part would find. -/
structure NRow where
  index : Nat
  mkey : Nat
  mtable : Nat
  mprio : Nat
  mpre : Nat
  ref : Bool
  skey : Nat
  stable : Nat
  sprio : Nat
  sres : Nat
  ecc : EccFind
  deriving DecidableEq, Repr

/-- A backing-directory entry in bucket and slot (R340). -/
structure DirEnt where
  bucket : Nat
  slot : Nat
  key : Nat
  res : Nat
  deriving DecidableEq, Repr

structure NewelSt where
  /-- Valid rows, in ascending row index. -/
  rows : List NRow
  /-- Clock hands by bank (R328); a bank not listed has its hand at row 0. -/
  hands : List (Nat × Nat)
  dir : List DirEnt
  /-- Overflow stash, at most 4,096 entries: key and result (R341). -/
  stash : List (Nat × Nat)
  /-- Lookups that went to the backing directory and whose answer is not yet installed: table, key
  (R331, R332). -/
  waiting : List (Nat × Nat)
  /-- Prefilter histograms: table, bin, count; and lookups since the last halving (R335). -/
  hist : List (Nat × Nat × Nat)
  histLookups : Nat × Nat
  deriving DecidableEq, Repr

end Sys2Proof.Machine
end

