-- ==== Sys2Proof/Machine/State/Part.lean ====
section
/-! DEFINITION. State of partitions, contexts and engines (spec/17). -/

namespace Sys2Proof.Machine

open Sys2Proof

/-- A context record and its accounting entry (R551, R571). `saved` is set while its save area holds state,
`residentAt` is the count of fired ticks at which it became resident. -/
structure Ctx where
  part : Nat
  num : Nat
  bound : Bool
  share : Nat
  quadSet : Nat
  pinKib : Nat
  minTicks : Nat
  estInit : Nat
  charge : Nat
  vt : Nat
  est : Nat
  steps : Nat
  switchUnits : Nat
  switches : Nat
  saved : Bool
  residentAt : Option Nat
  deriving DecidableEq, Repr

/-- A command that waits for an engine of a Gallery (R561), in plan order. -/
structure EngCmd where
  gallery : Nat
  engine : Engine
  part : Nat
  ctx : Nat
  key : SessKey
  layer : Nat
  deriving DecidableEq, Repr

/-- An engine busy for a context until an elapsed instant (R556). -/
structure EngRun where
  gallery : Nat
  engine : Engine
  part : Nat
  ctx : Nat
  key : SessKey
  until_ : Nat
  deriving DecidableEq, Repr

/-- A switch in progress (R564): the incoming context and the logical Galleries that have not restored. -/
structure CtxSwitch where
  part : Nat
  ctx : Nat
  galleries : Nat
  left : List Nat
  deriving DecidableEq, Repr

structure PartSt where
  ctxs : List Ctx
  queue : List EngCmd
  running : List EngRun
  switches : List CtxSwitch
  /-- The logical Gallery each session is placed on (R567). -/
  placed : List (SessKey × Nat)
  deriving DecidableEq, Repr

/-- Every context is a SERVE context with SHARE 1 at reset (R551). -/
def PartSt.reset : PartSt := { ctxs := [], queue := [], running := [], switches := [], placed := [] }

end Sys2Proof.Machine
end

