-- ==== Sys2Proof/Machine/State/Pwr.lean ====
section
/-! DEFINITION. State of power and thermal control beside its registers (spec/18, spec/24). -/

namespace Sys2Proof.Machine

open Sys2Proof

structure PwrSt where
  /-- Domains with DOM_UNPLANNED set, and the count of fired ticks at which it was set (R577). -/
  unplanned : List (Nat × Nat)
  /-- Domains a plan wakes, and the elapsed instant of the wake (R579). -/
  wakes : List (Nat × Nat)
  /-- The thermal estimate tp in m°C, an exact fraction; not known before the first sample (R583). -/
  tpKnown : Bool
  tpNum : Int
  tpDen : Nat
  /-- The flow alarm is in force: by a low flow, and by an outlet that disagrees (R582, R584). -/
  lowFlow : Bool
  disagree : Bool
  /-- Elapsed instant since which the outlet has disagreed (R584). -/
  disagreeAt : Option Nat
  /-- The junction limit is in force (R584). -/
  limit : Bool
  /-- Sum and number of input power samples of the running tick, and the last sample (R582, R591). -/
  powSum : Nat
  powCount : Nat
  powLast : Nat
  /-- Elapsed instants at which the running measurement and the last one began (R587). -/
  measAt : Nat
  lastMeas : Nat
  /-- The input is below 48 V (R671); load has been shed (R586, R629). -/
  inputLow : Bool
  shed : Bool
  deriving DecidableEq, Repr

/-- Power and thermal state at reset: nothing in force (R591, R648). -/
def PwrSt.reset : PwrSt :=
  { unplanned := []
    wakes := []
    tpKnown := false
    tpNum := 0
    tpDen := 1
    lowFlow := false
    disagree := false
    disagreeAt := none
    limit := false
    powSum := 0
    powCount := 0
    powLast := 0
    measAt := 0
    lastMeas := 0
    inputLow := false
    shed := false }

end Sys2Proof.Machine
end

