-- ==== Sys2Proof/Machine/State/Regs.lean ====
section
/-! DEFINITION. The register file and the sparse memories. -/

namespace Sys2Proof.Machine

open Sys2Proof

/-- The register file: the value of each field by its place in BAR0 (Field.key), keys strictly rising, a
field that is not listed holding its reset value. `held` are the low halves of 4-byte writes and `latch`
the high halves of 4-byte reads, by interface and BAR0 offset of the low half (R657). -/
structure RegSt where
  file : List (Nat × Nat)
  held : List (Via × Nat × Nat)
  latch : List (Via × Nat × Nat)
  /-- Amounts that counters have gained and no rule fixes: the counter's place and the index of the free value. -/
  gained : List (Nat × Nat)
  deriving DecidableEq, Repr

/-- Session-range bytes of P0-P7 at partition * 2^52 + address (R352), and the bytes of the export window,
push region and FLASH space by global offset (R393, R394). Addresses strictly rising, no entry equal
to 0, which an unlisted address reads as. -/
structure MemSt where
  range : List (Nat × Byte)
  export_ : List (Nat × Byte)
  deriving DecidableEq, Repr

end Sys2Proof.Machine
end

