-- ==== Sys2Proof/Machine/State/Ras.lean ====
section
/-! DEFINITION. State of error handling and redundancy (spec/20). -/

namespace Sys2Proof.Machine

open Sys2Proof

/-- Error classes (R620, R627). -/
def clsCorrected : Nat := 0
def clsStep : Nat := 1
def clsObject : Nat := 2
def clsUnit : Nat := 3
def clsFatal : Nat := 4

/-- An error log record (R627). -/
structure ErrRec where
  code : Nat
  cls : Nat
  injected : Bool
  page : Nat
  unit : Nat
  time : Nat
  addr : Nat
  sid : Nat
  step : Nat
  count : Nat
  deriving DecidableEq, Repr

/-- Corrected errors of one unit: page, unit, instant of its last record, and how many were suppressed
since (R627). -/
structure CeUnit where
  page : Nat
  unit : Nat
  last : Nat
  suppressed : Nat
  deriving DecidableEq, Repr

/-- What a fatal-error dump holds (R629): the header's values and what its parts are made from. -/
structure Dump where
  cause : Nat
  time : Nat
  tick : Nat
  serialLo : Nat
  serialHi : Nat
  mirrored : Bool
  regs : RegSt
  plans : List Plan
  sqs : List Sq
  cqs : List Cq
  rings : List Ring
  log : List ErrRec
  deriving DecidableEq, Repr

/-- A copy of an HBM channel to the spare of its stack (R623). -/
structure SpareCopy where
  stack : Nat
  channel : Nat
  done : Bool
  deriving DecidableEq, Repr

structure RasSt where
  /-- The newest records, newest first, at most 65,536 (R627). -/
  log : List ErrRec
  ceUnits : List CeUnit
  dump : Option Dump
  /-- STEP-class errors of each Gallery: Gallery and instant, those of the last 24 h (R623). -/
  galErrors : List (Nat × Nat)
  /-- Galleries retired since boot, as recorded in the replay-protected region (R623). -/
  retired : List Nat
  spareCopies : List SpareCopy
  /-- Restart instants of the management cores, newest first (R628). -/
  restarts : List (Nat × Nat)
  /-- The quad tested next and the instant of the last periodic test (R626). -/
  nextQuad : Nat
  lastQuadAt : Nat
  deriving DecidableEq, Repr

/-- Error handling at reset: an empty log and no dump (R635, R648). -/
def RasSt.reset : RasSt :=
  { log := []
    ceUnits := []
    dump := none
    galErrors := []
    retired := []
    spareCopies := []
    restarts := []
    nextQuad := 0
    lastQuadAt := 0 }

end Sys2Proof.Machine
end

