-- ==== Sys2Proof/Machine/State/Sec.lean ====
section
/-! DEFINITION. State of the security complex, of start-up and of the mailbox beside their registers (spec/19, spec/21,
spec/23). -/

namespace Sys2Proof.Machine

open Sys2Proof

/-- An image of a bank (R593, R594): its kind and security version, and the digest in its header. -/
structure Image where
  kind : Nat
  svn : Nat
  digest : Bytes
  deriving DecidableEq, Repr

structure SecSt where
  /-- Images that the two banks hold, and the bank active for the next reset (R593, R598). -/
  bankA : List Image
  bankB : List Image
  active : Nat
  /-- Images running, by kind, with their SVN (R597). -/
  running : List (Nat × Nat)
  /-- Rollback counters by image kind (R596). -/
  rollback : List Nat
  /-- Tenant and fabric slots marked retired in the replay-protected region (R607). -/
  tenantRetired : Nat
  fabricRetired : Nat
  /-- The signing index used next, and the end of the reserved block (R602). -/
  sigNext : Nat
  sigEnd : Nat
  /-- ATTEST_LOW has been posted (R603). -/
  lowPosted : Bool
  /-- The key rings are disabled (R613). -/
  keysOff : Bool
  /-- The FW_STAGE that is running (R614): the command, the images being written, and the elapsed instant of its end. -/
  staging : Option (Cmd × List Image × Nat)
  /-- The debug nonce the device has issued (R613). -/
  nonce : Option Nat
  /-- The debug interface is open beyond boundary scan (R613). -/
  jtagOpen : Bool
  deriving DecidableEq, Repr

/-- The security complex at reset (log entry 5: no image is known, and counters and signing index start at 0). -/
def SecSt.reset : SecSt :=
  { bankA := []
    bankB := []
    active := 0
    running := []
    rollback := List.replicate 8 0
    tenantRetired := 0
    fabricRetired := 0
    sigNext := 0
    sigEnd := 0
    lowPosted := false
    keysOff := false
    staging := none
    nonce := none
    jtagOpen := false }

/-- Start-up (R639-R646). -/
structure BootSt where
  /-- Rails whose power-good is asserted, and the elapsed instant at which the sequence began (R639, R672). -/
  rails : Nat
  railsAt : Nat
  /-- Images verified in the bank being tried (R593). -/
  verified : List Nat
  /-- The other bank is being tried (R593, R640). -/
  fallback : Bool
  /-- HBM is trained and its fixed regions are initialised; the flash map is loaded (R641, R646, R488). -/
  hbmTrained : Bool
  flashLoaded : Bool
  /-- Physical Galleries that the replay-protected region lists as retired (R623, R645). -/
  retired : List Nat
  /-- The failing image's order and its status code, in HALTED_ROM (R668). -/
  failImage : Nat
  failStatus : Nat
  /-- The flash is fitted: the module is an SZ-4100-M1 (R1, R644). -/
  flashFitted : Bool
  /-- MAC address of the management port and static sideband address of the configuration record (R643). -/
  mgmtMac : Nat
  i3cAddr : Nat
  /-- DUMP_PRESENT has been posted (R630). -/
  dumpPosted : Bool
  deriving DecidableEq, Repr

/-- Start-up at reset: no rail up, on an SZ-4100-M1 (log entry 13). -/
def BootSt.reset : BootSt :=
  { rails := 0
    railsAt := 0
    verified := []
    fallback := false
    hbmTrained := false
    flashLoaded := false
    retired := []
    failImage := 0
    failStatus := 0
    flashFitted := true
    mgmtMac := 0
    i3cAddr := 0
    dumpPosted := false }

/-- The management mailbox (R666-R668): the instant of the owner's last access, and the instant at which an accepted
MODULE_RESET starts. -/
structure MboxSt where
  lastAccess : Nat
  resetAt : Option Nat
  deriving DecidableEq, Repr

def MboxSt.reset : MboxSt := { lastAccess := 0, resetAt := none }

end Sys2Proof.Machine
end

