-- ==== Sys2Proof/Machine/State/Srch.lean ====
section
/-! DEFINITION. State of vector search (spec/15). -/

namespace Sys2Proof.Machine

open Sys2Proof

/-- A generation of an index (R494, R495): its records in chunk order, and its first map unit in T4. -/
structure Gen where
  num : Nat
  recs : List (Nat × Bytes)
  first : Nat
  deriving DecidableEq, Repr

/-- A side-list entry (R500) with its sequence number. -/
structure SideEnt where
  seq : Nat
  id : Nat
  tomb : Bool
  code : Bytes
  deriving DecidableEq, Repr

/-- A build: INDEX_LOAD's open build, or a merge-back that is running or waits for a seal (R508); `first` is the first map
unit that a merge-back has taken. -/
structure Build where
  recs : List (Nat × Bytes)
  merge : Option Cmd
  first : Nat
  /-- First sequence number that a merge-back leaves in the side list. -/
  pinEnd : Nat
  ready : Bool
  deriving DecidableEq, Repr

/-- An index (R494). `gens` holds the current generation first, then earlier ones that searches pin.
`mirror` is the first map unit of the side list's mirror and its units (R501). -/
structure Index where
  handle : Nat
  part : Nat
  width : Nat
  keySlot : Nat
  gen : Nat
  gens : List Gen
  nextSeq : Nat
  side : List SideEnt
  mirror : Nat × Nat
  build : Option Build
  deriving DecidableEq, Repr

/-- A search that has taken effect (R497): its pins, the filter object read at the seal, and the queries not yet
answered with their numbers. -/
structure SearchRun where
  id : Nat
  cmd : Cmd
  handle : Nat
  gen : Nat
  side : List SideEnt
  sideLen : Nat
  filter : Option Bytes
  queries : List (Nat × Bytes)
  kOut : Nat
  kInt : Nat
  deriving DecidableEq, Repr

/-- A scan pass (R498): the pins and the seal it was formed for, and the searches and query numbers it serves. -/
structure Pass where
  id : Nat
  handle : Nat
  gen : Nat
  pinEnd : Nat
  sealNo : Nat
  serves : List (Nat × Nat)
  deriving DecidableEq, Repr

structure SrchSt where
  indexes : List Index
  searches : List SearchRun
  passes : List Pass
  nextId : Nat
  deriving DecidableEq, Repr

/-- No index at reset. -/
def SrchSt.reset : SrchSt := { indexes := [], searches := [], passes := [], nextId := 0 }

end Sys2Proof.Machine
end

