-- ==== Sys2Proof/Machine/State.lean ====
section
/-! DEFINITION. The state of the block, its fault and refusal reasons, and the state after reset. -/

namespace Sys2Proof.Machine

open Sys2Proof

/-- Why a step faults. No command of this block faults: what goes wrong in the device is reported by
status codes, events, interrupt bits and counters (R13-R16, R109, R627). -/
inductive Fault where
  /-- Raised by no meaning; kept so that the type has a name for a stop of the machine (safe). -/
  | never
  deriving DecidableEq, Repr

/-- Why a command is refused. -/
inductive Refusal where
  /-- A command that has no meaning yet: raised by its arm of exec alone (safe). -/
  | notModelled (mnemonic : String)
  deriving DecidableEq, Repr

/-- The device: everything the manual gives state to, by unit, and the record of its outputs. -/
structure Dev where
  regs : RegSt
  time : TimeSt
  tick : TickSt
  host : HostSt
  mem : MemSt
  newel : NewelSt
  fab : FabSt
  link : LinkSt
  ras : RasSt
  flash : FlashSt
  kv : KvSt
  tier : TierSt
  sess : SessSt
  run : RunSt
  samp : SampSt
  text : TextSt
  ckpt : CkptSt
  part : PartSt
  srch : SrchSt
  pwr : PwrSt
  sec : SecSt
  boot : BootSt
  mbox : MboxSt
  /-- Everything the device has sent outside, oldest first. -/
  out : List Out
  /-- Index of the next free value (log entry 3). -/
  free : Nat
  deriving DecidableEq, Repr

/-- The block: the waiting commands, first in first out, and the device. -/
structure State where
  pending : List Instr
  dev : Dev
  deriving DecidableEq, Repr

/-- The device after reset. The register file lists what differs from the reset column of the register tables: FTL_PLP (FTL
0x138 [5:4]) is OFF (R648). -/
def Dev.reset : Dev :=
  { regs := { file := [((0x80 * 4096 + 0x138) * 8 + 4, 1)], held := [], latch := [], gained := [] }
    time := { frac := 0, localNs := 0, good := 0, stepped := false, edgeSet := false, edgeCmd := none,
              holdAt := 0, holdBase := 0, clk10m := false, clkMissed := false,
              slew := 0, sub := 0, pathDelay := [] }
    tick := { running := false, start := 0, startLocal := 0, period := 0, plan := none, next := none,
              ring := [], sealed := false, corrected := false, corrTo := 0, fired := 0, lastMaint := none,
              lastWeightLate := none, capQuads := false, capZero := false, maint := [], maintNow := [], pubBatch := [],
              mismatch := [], windows := [] }
    host := { slots := [], sqs := [], cqs := [], rings := [], snoop := [], bis := [], accepted := [],
              nextOrder := 0, rrSlot := 15, rrSq := [], msix := [], linkUp := false, fatal := false }
    mem := { range := [], export_ := [] }
    newel := { rows := [], hands := [], dir := [], stash := [], waiting := [], hist := [],
               histLookups := (0, 0) }
    fab := FabSt.reset
    link := LinkSt.reset
    ras := RasSt.reset
    flash := FlashSt.reset
    kv := KvSt.reset
    tier := TierSt.reset
    sess := SessSt.reset
    run := RunSt.reset
    samp := SampSt.reset
    text := TextSt.reset
    ckpt := CkptSt.reset
    part := PartSt.reset
    srch := SrchSt.reset
    pwr := PwrSt.reset
    sec := SecSt.reset
    boot := BootSt.reset
    mbox := MboxSt.reset
    out := []
    free := 0 }

/-- The state after reset: an empty queue and the device after reset. -/
def State.reset : State := { pending := [], dev := Dev.reset }

end Sys2Proof.Machine
end

