-- ==== Sys2Proof/Machine/Ops.lean ====
section
/-! DEFINITION. The shared operations: sparse memories, register fields and counters, outputs, ring
records, completion entries, and the choice of a status code. -/

namespace Sys2Proof.Machine

open Sys2Proof

/-! ### Sparse memories -/

/-- The value at key `k`; `dflt` where nothing is listed. -/
def spGet {α : Type} (dflt : α) (l : List (Nat × α)) (k : Nat) : α :=
  match l with
  | [] => dflt
  | (a, v) :: r => if a = k then v else spGet dflt r k

/-- Remove every entry of key `k`. -/
def spDrop {α : Type} (l : List (Nat × α)) (k : Nat) : List (Nat × α) :=
  match l with
  | [] => []
  | (a, w) :: r => if a = k then spDrop r k else (a, w) :: spDrop r k

/-- Insert an entry before the first key above `k`. -/
def spIns {α : Type} (l : List (Nat × α)) (k : Nat) (v : α) : List (Nat × α) :=
  match l with
  | [] => [(k, v)]
  | (a, w) :: r => if k < a then (k, v) :: (a, w) :: r else (a, w) :: spIns r k v

/-- Write `v` at key `k`: a key that holds `dflt` is not listed. -/
def spPut {α : Type} [DecidableEq α] (dflt : α) (l : List (Nat × α)) (k : Nat) (v : α) : List (Nat × α) :=
  if v = dflt then spDrop l k else spIns (spDrop l k) k v

/-- Keys strictly rising, each at or above `lo`, and no entry equal to `dflt`. -/
def spWfFrom {α : Type} [DecidableEq α] (dflt : α) (lo : Nat) (l : List (Nat × α)) : Bool :=
  match l with
  | [] => true
  | (a, v) :: r => decide (lo ≤ a) && decide (v ≠ dflt) && spWfFrom dflt (a + 1) r

/-- The canonical form of a sparse memory. -/
def spWf {α : Type} [DecidableEq α] (dflt : α) (l : List (Nat × α)) : Bool := spWfFrom dflt 0 l

/-- Read `n` bytes from key `k` on. -/
def spRead (l : List (Nat × Byte)) (k n : Nat) : Bytes := (List.range n).map fun i => spGet 0 l (k + i)

/-- Write bytes from key `k` on. -/
def spWrite (l : List (Nat × Byte)) (k : Nat) (b : Bytes) : List (Nat × Byte) :=
  match b with
  | [] => l
  | x :: r => spWrite (spPut 0 l k x) (k + 1) r

/-- The canonical form of both memories. -/
def Memory.wf (m : MemSt) : Bool := spWf (0 : Byte) m.range && spWf (0 : Byte) m.export_

/-- Where byte `addr` of partition `part`'s session range is kept (R352). -/
def rangeKey (part addr : Nat) : Nat := part * 2 ^ 52 + addr

/-- Read the session range of a partition (R352, R353). -/
def readRange (d : Dev) (part addr n : Nat) : Bytes := spRead d.mem.range (rangeKey part addr) n

/-- Write the session range of a partition. -/
def writeRange (part addr : Nat) (b : Bytes) (d : Dev) : Dev :=
  { d with mem := { d.mem with range := spWrite d.mem.range (rangeKey part addr) b } }

/-- Read exported or flash bytes by global offset (R393, R394). -/
def readExport (d : Dev) (off n : Nat) : Bytes := spRead d.mem.export_ off n

/-- Write exported or flash bytes. -/
def writeExport (off : Nat) (b : Bytes) (d : Dev) : Dev :=
  { d with mem := { d.mem with export_ := spWrite d.mem.export_ off b } }

/-! ### Registers -/

/-- The value of a register field. -/
def Dev.get (d : Dev) (f : Field) : Nat := spGet f.reset d.regs.file f.key

/-- Set a register field to the low bits of `v`. -/
def Dev.set (f : Field) (v : Nat) (d : Dev) : Dev :=
  { d with regs := { d.regs with file := spPut f.reset d.regs.file f.key (v % 2 ^ f.width) } }

/-- A counter adds `n`, saturating, unless its page's CNT_FREEZE is set (R11, R660). -/
def Dev.count (f : Field) (n : Nat) (d : Dev) : Dev :=
  if d.get (Reg.CNT_FREEZE f.page) = 1 then d else d.set f (min counterMax (d.get f + n))

/-- A counter gains an amount that no rule fixes (log entry 19). -/
def Dev.countFree (f : Field) (d : Dev) : Dev :=
  if d.get (Reg.CNT_FREEZE f.page) = 1 then d
  else { d with
    regs := { d.regs with gained := d.regs.gained ++ [(f.key, d.free)] }
    free := d.free + 1 }

/-- What a counter reads as: its value and the free amounts it has gained, saturating (R11, log entry 19). -/
def Dev.counter (d : Dev) (f : Field) : Nat :=
  min counterMax (d.get f + ((d.regs.gained.filter fun g => g.1 == f.key).map fun g => Config.freeNat g.2).sum)

/-- A counter is cleared (R11, R660). -/
def Dev.clear (f : Field) (d : Dev) : Dev :=
  let d1 := d.set f 0
  { d1 with regs := { d1.regs with gained := d1.regs.gained.filter fun g => g.1 != f.key } }

/-- Set bit `i` of a page's BLK_INT_STATUS (R660). -/
def Dev.raise (page i : Nat) (d : Dev) : Dev :=
  d.set (Reg.BLK_INT_STATUS page) (setBit (d.get (Reg.BLK_INT_STATUS page)) i true)

/-- The disciplined counter, whole nanoseconds (R39, R73). -/
def Dev.now (d : Dev) : Nat := d.get Reg.TIME_NOW_NS

/-- The device is an SZ-4100-M0 (R1): it has no flash. -/
def Dev.isM0 (d : Dev) : Bool := !d.boot.flashFitted

/-- This module's number (R429). -/
def Dev.self (d : Dev) : Nat := d.get Reg.FAB_SELF

/-- Elapsed time on the local oscillator, ns: what durations are measured on (R56). -/
def Dev.clock (d : Dev) : Nat := d.time.localNs

/-- Record an output. -/
def Dev.emit (o : Out) (d : Dev) : Dev := { d with out := d.out ++ [o] }

/-- Record outputs in order. -/
def Dev.emits (os : List Out) (d : Dev) : Dev := { d with out := d.out ++ os }

/-- A fresh index for a free value (log entry 3). -/
def Dev.fresh (d : Dev) : Nat × Dev := (d.free, { d with free := d.free + 1 })

/-- Apply an operation for each element of a list, in order. -/
def forAll {α : Type} (l : List α) (f : α → Dev → Dev) (d : Dev) : Dev := l.foldl (fun acc x => f x acc) d

/-- Apply an operation when a condition holds. -/
def when (b : Bool) (f : Dev → Dev) (d : Dev) : Dev := if b then f d else d

/-! ### Status codes -/

/-- The lowest-numbered of the codes that apply (R15). -/
def lowest (l : List (Bool × Nat)) : Option Nat := ((l.filter (·.1)).map (·.2)).min?

/-- General status codes (R14). -/
def stSuccess : Nat := 0x0000
def stInvalidOpcode : Nat := 0x0001
def stInvalidField : Nat := 0x0002
def stReservedNonzero : Nat := 0x0003
def stNotReady : Nat := 0x0004
def stPartitionDenied : Nat := 0x0005
def stUnsupported : Nat := 0x0006
def stAdminRequired : Nat := 0x0007

/-- Host status codes (R117). -/
def stQueueInvalid : Nat := 0x0100
def stQueueExists : Nat := 0x0101
def stQueueSize : Nat := 0x0102
def stCqInUse : Nat := 0x0103
def stPollLimit : Nat := 0x0104
def stHostBiTimeout : Nat := 0x0105
def stAborted : Nat := 0x0106
def stAbortNotFound : Nat := 0x0107
def stSq0Only : Nat := 0x0108
def stSlotBusy : Nat := 0x0109
def stWindowRange : Nat := 0x010A
def stAddressOutsideWindow : Nat := 0x010B

/-! ### Slots -/

/-- A slot is in BOUND (R80, R687). -/
def slotBound (d : Dev) (n : Nat) : Bool := d.get (Reg.SLOT_STATE n) == 1

/-- The slot still receives completions and the records addressed to its rings (R687). -/
def slotServed (d : Dev) (n : Nat) : Bool := d.get (Reg.SLOT_STATE n) == 1 || d.get (Reg.SLOT_STATE n) == 2

/-- The slot is bound with ADMIN set. -/
def slotAdmin (d : Dev) (n : Nat) : Bool := slotBound d n && d.get (Reg.SLOT_ADMIN n) == 1

/-- All slot numbers. -/
def slotNumbers : List Nat := List.range 16

/-- Base of a slot's window in its partition's session range, and its size in bytes (R79, R85). -/
def winBase (d : Dev) (n : Nat) : Nat := d.get (Reg.WIN_BASE n)
def winBytes (d : Dev) (n : Nat) : Nat := d.get (Reg.WIN_SIZE n) * 268435456

/-- The window is decoded (R80). -/
def winDecoded (d : Dev) (n : Nat) : Bool := slotServed d n

/-- A range of a partition's session range lies wholly inside the window of slot `n` (R686). -/
def inWindow (d : Dev) (n part base len : Nat) : Bool :=
  slotBound d n && d.get (Reg.SLOT_PART n) == part
  && decide (winBase d n ≤ base ∧ base + len ≤ winBase d n + winBytes d n)

/-! ### MSI-X -/

/-- Send a message of a vector, or hold it back while the holdoff runs, in elapsed time (R106). -/
def sendMsix (slot vector : Nat) (d : Dev) : Dev :=
  let now := d.clock
  let hold := d.get (Reg.INT_HOLDOFF_NS slot)
  match d.host.msix.find? fun m => m.slot == slot && m.vector == vector with
  | some m =>
    let rest := d.host.msix.filter fun x => !(x.slot == slot && x.vector == vector)
    if m.last + hold ≤ now ∧ ¬ m.held then
      ({ d with host := { d.host with msix := ⟨slot, vector, now, false⟩ :: rest } }).emit (.msix slot vector)
    else { d with host := { d.host with msix := { m with held := true } :: rest } }
  | none =>
    ({ d with host := { d.host with msix := ⟨slot, vector, now, false⟩ :: d.host.msix } }).emit
      (.msix slot vector)

/-! ### Rings and queues -/

/-- Entries that a reader of 2^m entries has not consumed (R93). -/
def ringUsed (m head tail : Nat) : Nat := (tail + 2 ^ m - head) % 2 ^ m

/-- Full: 2^m - 1 unconsumed entries (R93). -/
def ringFull (m head tail : Nat) : Bool := decide (2 ^ m - 1 ≤ ringUsed m head tail)

/-- The index after `i`, and the PHASE of the next pass (R94). -/
def ringNext (m i : Nat) (phase : Bool) : Nat × Bool :=
  if i + 1 = 2 ^ m then (0, !phase) else (i + 1, phase)

/-- Replace the PHASE bit in byte `at_` of a record (R94). -/
def withPhase (at_ : Nat) (phase : Bool) (b : Bytes) : Bytes :=
  let x := byteAt b at_
  b.take at_ ++ [BitVec.ofNat 8 (x / 2 * 2 + if phase then 1 else 0)] ++ b.drop (at_ + 1)

/-- The CQ of a slot by id. -/
def findCq (d : Dev) (slot id : Nat) : Option Cq := d.host.cqs.find? fun q => q.slot == slot && q.id == id

/-- The SQ of a slot by id. -/
def findSq (d : Dev) (slot id : Nat) : Option Sq := d.host.sqs.find? fun q => q.slot == slot && q.id == id

/-- The ring of a slot by kind and id. -/
def findRing (d : Dev) (k : QueueKind) (slot id : Nat) : Option Ring :=
  d.host.rings.find? fun r => r.kind == k && r.slot == slot && r.id == id

/-- Put back a CQ. -/
def putCq (q : Cq) (d : Dev) : Dev :=
  { d with host := { d.host with cqs := d.host.cqs.map fun x =>
      if x.slot == q.slot && x.id == q.id then q else x } }

/-- Put back an SQ. -/
def putSq (q : Sq) (d : Dev) : Dev :=
  { d with host := { d.host with sqs := d.host.sqs.map fun x =>
      if x.slot == q.slot && x.id == q.id then q else x } }

/-- Put back a ring. -/
def putRing (r : Ring) (d : Dev) : Dev :=
  { d with host := { d.host with rings := d.host.rings.map fun x =>
      if x.kind == r.kind && x.slot == r.slot && x.id == r.id then r else x } }

/-- Write one 32-byte completion entry into a CQ that has room, with its PHASE (R94, R99). -/
def cqWrite (q : Cq) (b : Bytes) (d : Dev) : Dev :=
  let (t, ph) := ringNext q.m q.tail q.phase
  let d1 := (putCq { q with tail := t, phase := ph } d).emit
    (.hostWrite q.slot (q.base + 32 * q.tail) (withPhase 31 q.phase b))
  if q.irq then sendMsix q.slot q.vector d1 else d1

/-- Write an entry, or let it wait while the CQ is full (R93). -/
def cqPush (slot id : Nat) (b : Bytes) (d : Dev) : Dev :=
  match findCq d slot id with
  | none => d
  | some q =>
    if ringFull q.m q.head q.tail ∨ q.waiting ≠ [] then putCq { q with waiting := q.waiting ++ [b] } d
    else cqWrite q b d

/-- Write waiting entries while there is room, at most `fuel` of them (R93). -/
def cqDrain (slot id fuel : Nat) (d : Dev) : Dev :=
  match fuel with
  | 0 => d
  | k + 1 =>
    match findCq d slot id with
    | none => d
    | some q =>
      match q.waiting with
      | [] => d
      | b :: r =>
        if ringFull q.m q.head q.tail then d
        else cqDrain slot id k (cqWrite { q with waiting := r } b d)

/-- An event record (R109), PHASE 0. -/
def eventBytes (code detail sid step status time : Nat) : Bytes :=
  le 2 code ++ le 2 0 ++ le 4 detail ++ le 8 sid ++ le 6 step ++ le 2 status ++ le 8 time

/-- Write one record into an event ring that has room. -/
def eventWrite (r : Ring) (b : Bytes) (d : Dev) : Dev :=
  let (t, ph) := ringNext r.m r.tail r.phase
  let d1 := (putRing { r with tail := t, phase := ph } d).emit
    (.hostWrite r.slot (r.base + 32 * r.tail) (withPhase 2 r.phase b))
  if r.irq then sendMsix r.slot r.vector d1 else d1

/-- Post an event to an event ring (R109, R110): discarded and counted when the ring is full. A ring that
does not exist receives nothing; on a slot that is not served the record is counted as discarded (R114). -/
def postEvent (slot ring code detail sid step status : Nat) (d : Dev) : Dev :=
  match findRing d .event slot ring with
  | none =>
    if d.get (Reg.SLOT_STATE slot) = 3 then d.count (Reg.HOST_WRITES_DISCARDED slot) 1 else d
  | some r =>
    if ringFull r.m r.head r.tail ∨ r.dropped ≠ 0 then
      (putRing { r with dropped := min 0xFFFFFFFF (r.dropped + 1) } d).count
        (Reg.HOST_EVENT_DROPPED slot) 1
    else eventWrite r (eventBytes code detail sid step status d.now) d

/-- Post an event to event ring 0 of every slot bound with ADMIN set, but for `except_` (R82). -/
def postAdmins (except_ : Option Nat) (code detail : Nat) (d : Dev) : Dev :=
  forAll (slotNumbers.filter fun n => slotAdmin d n && except_ != some n)
    (fun n e => postEvent n 0 code detail 0 0 0 e) d

/-- Post an event to event ring 0 of every bound slot of a partition; false when there is none. -/
def postPartition (part code detail sid step status : Nat) (d : Dev) : Bool × Dev :=
  let ns := slotNumbers.filter fun n => slotBound d n && d.get (Reg.SLOT_PART n) == part
  (!ns.isEmpty, forAll ns (fun n e => postEvent n 0 code detail sid step status e) d)

/-- Spilled stream records move into the ring while there is room, at most `fuel` of them (R108). -/
def streamDrain (slot id fuel : Nat) (d : Dev) : Dev :=
  match fuel with
  | 0 => d
  | k + 1 =>
    match findRing d .stream slot id with
    | none => d
    | some r =>
      match r.spill with
      | [] => d
      | b :: rest =>
        if ringFull r.m r.head r.tail then d
        else
          let (t, ph) := ringNext r.m r.tail r.phase
          streamDrain slot id k ((putRing { r with tail := t, phase := ph, spill := rest } d).emit
            (.hostWrite slot (r.base + 64 * r.tail) (withPhase 14 r.phase b)))

/-- Write stream records in order: through the spill area, which holds what does not fit (R107, R108). -/
def streamWrite (slot id : Nat) (bs : List Bytes) (d : Dev) : Dev :=
  match findRing d .stream slot id with
  | none =>
    if slotBound d slot then d else d.count (Reg.HOST_WRITES_DISCARDED slot) bs.length
  | some r => streamDrain slot id (r.spill.length + bs.length) (putRing { r with spill := r.spill ++ bs } d)

/-- Records that a stream ring and its spill area can still take (R108): the spill area holds
256 KiB, 4,096 records. -/
def streamRoom (r : Ring) : Nat := (2 ^ r.m - 1 - ringUsed r.m r.head r.tail) + (4096 - r.spill.length)

/-! ### Completions -/

/-- ARG bytes `off` to `off + n - 1` of a submission entry, `off` counted as in the entry (R95). -/
def argAt (c : HostCmd) (off n : Nat) : Nat := fieldAt c.arg (off - 48) n

/-- FENCE and CQ_SUPPRESS (R95). -/
def cmdFence (c : HostCmd) : Bool := bitAt c.flags 0
def cmdSuppress (c : HostCmd) : Bool := bitAt c.flags 1

/-- A completion entry (R99), PHASE 0. -/
def completionBytes (cid sq status sqHead sid result step : Nat) : Bytes :=
  le 2 cid ++ le 2 sq ++ le 2 status ++ le 2 sqHead ++ le 8 sid ++ le 8 result ++ le 6 step ++ zeros 2

/-- The command with its origin, as issued by its slot now: acceptance has happened. -/
def cmdOf (d : Dev) (c : HostCmd) : Cmd :=
  { c := c
    origin := .host c.slot c.sq c.cid (match findSq d c.slot c.sq with | some q => q.head | none => 0)
    part := d.get (Reg.SLOT_PART c.slot)
    admin := d.get (Reg.SLOT_ADMIN c.slot) == 1
    t := d.now
    order := d.host.nextOrder
    plan := 0
    wait := .none
    inbox := []
    fail := none }

/-- The same origin. -/
def sameCmd (a b : Cmd) : Bool := a.origin == b.origin && a.order == b.order

/-- Remove the CID of a completed command from its SQ's outstanding list (R102). -/
def sqDone (slot sq cid : Nat) (d : Dev) : Dev :=
  match findSq d slot sq with
  | none => d
  | some q => putSq { q with outstanding := q.outstanding.erase cid } d

/-- Write outputs of a command into host memory. -/
def hostData (slot : Nat) (data : List (Nat × Bytes)) (d : Dev) : Dev :=
  d.emits (data.map fun w => Out.hostWrite slot w.1 w.2)

/-- Complete a command (R99): its output data, then its entry in the CQ of its SQ. CQ_SUPPRESS leaves out
the entry on SUCCESS (R95). When its SQ is gone the completion is discarded (R98), and it is counted
when the slot was lost (R114). A forwarded command answers its sender (R125). -/
def complete (m : Cmd) (status result step : Nat) (data : List (Nat × Bytes)) (d : Dev) : Dev :=
  let d0 := { d with host := { d.host with accepted := d.host.accepted.filter fun x => !sameCmd x m } }
  match m.origin with
  | .peer src tag => d0.emit (.msg src (.completion tag status result step ((data.map (·.2)).flatten)))
  | .host slot sq cid sqHead =>
    match findSq d0 slot sq with
    | none =>
      if slotServed d0 slot then d0 else d0.count (Reg.HOST_WRITES_DISCARDED slot) 1
    | some q =>
      let d1 := sqDone slot sq cid (hostData slot data d0)
      if status = stSuccess ∧ cmdSuppress m.c then d1
      else cqPush slot q.cq (completionBytes cid sq status sqHead m.c.sid result step) d1

/-- Complete with a status and nothing else. -/
def failWith (m : Cmd) (status : Nat) (d : Dev) : Dev := complete m status 0 0 [] d

/-- Run `f` unless one of the checks applies, in which case the command completes with the lowest code and
has no other effect (R15, R103). -/
def guarded (m : Cmd) (checks : List (Bool × Nat)) (f : Dev → Dev) (d : Dev) : Dev :=
  match lowest checks with
  | some st => failWith m st d
  | none => f d

/-- Replace the value of key `k` in an association list. -/
def assocSet {α : Type} (l : List (Nat × α)) (k : Nat) (v : α) : List (Nat × α) :=
  match l with
  | [] => [(k, v)]
  | (a, w) :: r => if a = k then (k, v) :: r else (a, w) :: assocSet r k v

/-- The value of key `k` in an association list. -/
def assocGet {α : Type} (l : List (Nat × α)) (k : Nat) : Option α :=
  match l with
  | [] => none
  | (a, v) :: r => if a = k then some v else assocGet r k

end Sys2Proof.Machine
end

