-- ==== Sys2Proof/Machine/Access.lean ====
section
/-! DEFINITION. Who may read and write a register page (R83, R659, R666), and a plain write of one field by
its access type (R8). -/

namespace Sys2Proof.Machine

open Sys2Proof

/-- Bit `i` of the three words GLB_GAL_ENABLED (R663). -/
def galEnabled (d : Dev) (g : Nat) : Bool := bitAt (d.get (Reg.GLB_GAL_ENABLED (g / 64))) (g % 64)

/-- A page that reads as 0 in every byte to every reader: an index the map does not list, the page of a
Gallery outside the enabled map, and the pages of units absent on an SZ-4100-M0 (R659). -/
def pageAbsent (d : Dev) (page : Nat) : Bool :=
  match pageKind page with
  | none => true
  | some (.gal, n) => !galEnabled d n
  | some (.vsrch, _) => d.isM0
  | some (.flc, _) => d.isM0
  | some (.ftl, _) => d.isM0
  | _ => false

/-- Pages that every slot reads and ADMIN slots write (R83). -/
def pageGlobal (page : Nat) : Bool := decide (page ≤ 4) || page == 6 || page == 0x42

/-- The page is the HOST page of slot `n`, or the PART page of its partition (R83). -/
def pageOwn (d : Dev) (n page : Nat) : Bool :=
  page == 0x10 + n || (d.get (Reg.SLOT_STATE n) != 0 && page == 8 + d.get (Reg.SLOT_PART n))

/-- Register pages are open once the fixed regions are initialised (R646), the mailbox's own from ROM_VERIFY on (R668). -/
def pagesOpen (d : Dev) (page : Nat) : Bool := d.boot.hbmTrained || (page == 7 && d.get Reg.GLB_BOOT_STAGE != 0)

/-- The interface reads the page (R83, R646, R659); after a fatal error CXL requests are not answered (R116). -/
def mayRead (d : Dev) (via : Via) (page : Nat) : Bool :=
  pagesOpen d page && !pageAbsent d page &&
  match via with
  | .slot n => !d.host.fatal && (pageGlobal page || pageOwn d n page)
  | _ => true

/-- The interface writes the page (R83, R668). -/
def mayWrite (d : Dev) (via : Via) (page : Nat) : Bool :=
  pagesOpen d page && !pageAbsent d page &&
  match via with
  | .slot n => !d.host.fatal && ((pageGlobal page && slotAdmin d n) || pageOwn d n page)
  | _ => true

/-- A register write from an interface: applied when the interface may write the page, ignored otherwise
(R83, R659). -/
def regGate (via : Via) (page : Nat) (f : Dev → Dev) (d : Dev) : Dev := if mayWrite d via page then f d else d

/-- A write to one field by its access type (R8). WO fields have no value of their own. -/
def fieldWrite (f : Field) (v : Nat) (d : Dev) : Dev :=
  match f.acc with
  | .ro => d
  | .wo => d
  | .rw => d.set f v
  | .rwl => if d.get (Reg.LOCK f.page) = 1 then d else d.set f v
  | .w1c => d.set f (Nat.land (d.get f) (Nat.xor (v % 2 ^ f.width) (2 ^ f.width - 1)))
  | .w1s => d.set f (Nat.lor (d.get f) (v % 2 ^ f.width))
  | .cnt => d.clear f

end Sys2Proof.Machine
end

