-- ==== Sys2Proof/Machine/RasLog.lean ====
section
/-! DEFINITION. The error log (spec/20: R620, R623, R627). -/

namespace Sys2Proof.Machine

open Sys2Proof

/-- Reliability status codes (R633). -/
def stDataLost : Nat := 0x0900
def stSelftestFailed : Nat := 0x0901
def stDumpNone : Nat := 0x0902
def stInjectDisabled : Nat := 0x0903

/-- Error codes of log records (R633). -/
def ecHbmCe : Nat := 0x0910
def ecHbmUe : Nat := 0x0911
def ecLandingCe : Nat := 0x0912
def ecLandingUe : Nat := 0x0913
def ecGalleryCheck : Nat := 0x0914
def ecRemoteBad : Nat := 0x0915
def ecNewelShadow : Nat := 0x0916
def ecFlashLost : Nat := 0x0917
def ecLinkLane : Nat := 0x0918
def ecWatchdog : Nat := 0x0919
def ecUnitSpare : Nat := 0x091A
def ecFatal : Nat := 0x091B

/-- Reliability events (R634). -/
def evMemUe : Nat := 0x0980
def evUnitSpared : Nat := 0x0981
def evUnitDegraded : Nat := 0x0982
def evDumpPresent : Nat := 0x0983

/-- Replace the error-handling state. -/
def setRas (r : RasSt) (d : Dev) : Dev := { d with ras := r }

/-- The 64 bytes of a record (R627). -/
def errRecBytes (r : ErrRec) : Bytes :=
  le 2 r.code ++ le 1 r.cls ++ le 1 (if r.injected then 1 else 0) ++ le 2 r.page ++ le 2 r.unit
  ++ le 8 r.time ++ le 8 r.addr ++ le 8 r.sid ++ le 6 r.step ++ le 2 r.count ++ zeros 24

/-- Write a record: RAS_LOG_SEQ counts it and BLK_ERR_LOG of its page holds bytes 0-15 (R627). -/
def errWrite (r : ErrRec) (d : Dev) : Dev :=
  ((setRas { d.ras with log := (r :: d.ras.log).take 65536 } d).set Reg.RAS_LOG_SEQ
    (d.get Reg.RAS_LOG_SEQ + 1)).set (Reg.BLK_ERR_LOG r.page) (unle ((errRecBytes r).take 16))

/-- An error of a class other than CORRECTED writes one record (R627). -/
def logError (cls code page unit addr sid step : Nat) (injected : Bool) (d : Dev) : Dev :=
  errWrite ⟨code, cls, injected, page, unit, d.now, addr, sid, step, 0⟩ d

/-- A CORRECTED error: counted in RAS_CE; the first of its unit within one second writes a record, with the
number suppressed since the unit's last one (R620, R627). -/
def logCorrected (code page unit addr : Nat) (injected : Bool) (d : Dev) : Dev :=
  let d1 := d.count Reg.RAS_CE 1
  let rest := d.ras.ceUnits.filter fun u => !(u.page == page && u.unit == unit)
  match d.ras.ceUnits.find? fun u => u.page == page && u.unit == unit with
  | some u =>
    if d.clock < u.last + 1000000000 then
      setRas { d1.ras with ceUnits := ⟨page, unit, u.last, min 0xFFFF (u.suppressed + 1)⟩ :: rest } d1
    else
      errWrite ⟨code, clsCorrected, injected, page, unit, d.now, addr, 0, 0, u.suppressed⟩
        (setRas { d1.ras with ceUnits := ⟨page, unit, d.clock, 0⟩ :: rest } d1)
  | none =>
    errWrite ⟨code, clsCorrected, injected, page, unit, d.now, addr, 0, 0, 0⟩
      (setRas { d1.ras with ceUnits := ⟨page, unit, d.clock, 0⟩ :: rest } d1)

/-- A spare takes over: RAS_SPARES_USED counts it and UNIT_SPARED is posted (R620, R623). -/
def unitSpared (page unit : Nat) (d : Dev) : Dev :=
  postAdmins none evUnitSpared (page + unit * 65536) (d.count Reg.RAS_SPARES_USED 1)

/-- A unit fails and no spare remains (R623). -/
def unitDegraded (page unit : Nat) (d : Dev) : Dev := postAdmins none evUnitDegraded (page + unit * 65536) d

end Sys2Proof.Machine
end

