-- ==== Sys2Proof/Machine/Flash.lean ====
section
/-! DEFINITION. The flash translation layer (spec/14). What a write or a lost unit means to its object stands
in the tier and fabric files. -/

namespace Sys2Proof.Machine

open Sys2Proof

/-- Replace the flash state. -/
def setFlash (f : FlashSt) (d : Dev) : Dev := { d with flash := f }

/-! ### Logical space (R470, R471) -/

/-- Map units of the logical space. -/
def mapUnits : Nat := 939524096

/-- Map units of an object. -/
def unitsOf (bytes : Nat) : Nat := ceilDiv bytes 65536

/-- The lowest free run of `n` map units at or after `from_`, runs being in ascending order. -/
def freeRun (runs : List FlashRun) (n from_ : Nat) : Option Nat :=
  match runs with
  | [] => if from_ + n ≤ mapUnits then some from_ else none
  | r :: rest => if from_ + n ≤ r.first then some from_ else freeRun rest n (max from_ (r.first + r.count))

/-- The longest free run from `from_` on. -/
def longestRun (runs : List FlashRun) (from_ : Nat) : Nat :=
  match runs with
  | [] => mapUnits - from_
  | r :: rest => max (r.first - from_) (longestRun rest (max from_ (r.first + r.count)))

/-- Keep STW_T4_FREE and STW_T4_LARGEST (R471). -/
def t4Sync (d : Dev) : Dev :=
  let used := (d.flash.runs.map (·.count)).sum
  (d.set Reg.STW_T4_FREE ((mapUnits - used) * 65536)).set Reg.STW_T4_LARGEST
    (longestRun d.flash.runs 0 * 65536)

/-- T4 has room for an object (R471): none on an SZ-4100-M0 or in READ_ONLY. -/
def t4Room (d : Dev) (bytes : Nat) : Bool :=
  !d.isM0 && d.get Reg.FTL_STATE == 0 && (freeRun d.flash.runs (unitsOf bytes) 0).isSome

/-- Insert a run in ascending order. -/
def insertRun (r : FlashRun) (l : List FlashRun) : List FlashRun :=
  match l with
  | [] => [r]
  | x :: rest => if r.first < x.first then r :: x :: rest else x :: insertRun r rest

/-- Take the lowest free run that fits (R471): its first map unit. -/
def t4Alloc (bytes : Nat) (d : Dev) : Option Nat × Dev :=
  match freeRun d.flash.runs (unitsOf bytes) 0 with
  | none => (none, d)
  | some u =>
    (some u, t4Sync (setFlash { d.flash with runs := insertRun ⟨u, unitsOf bytes⟩ d.flash.runs } d))

/-- Map changes are journalled (R472). -/
def journal (n : Nat) (d : Dev) : Dev := setFlash { d.flash with journal := d.flash.journal + n } d

/-- Free the run at a map unit: VALID is cleared in each of its map units (R473). -/
def t4Free (u : Nat) (d : Dev) : Dev :=
  match d.flash.runs.find? fun r => r.first == u with
  | none => d
  | some r =>
    t4Sync (journal r.count (setFlash { d.flash with
      runs := d.flash.runs.erase r
      lost := d.flash.lost.filter fun m => !decide (r.first ≤ m ∧ m < r.first + r.count)
      writes := d.flash.writes.filter fun w => !decide (r.first ≤ w.first ∧ w.first < r.first + r.count)
      map := d.flash.map.filter fun m => !decide (r.first ≤ m.unit ∧ m.unit < r.first + r.count) } d))

/-- Set or clear BACKING in the map units of a run (R473). -/
def t4Backing (u : Nat) (on : Bool) (d : Dev) : Dev :=
  match d.flash.runs.find? fun r => r.first == u with
  | none => d
  | some r =>
    journal r.count (setFlash { d.flash with map := d.flash.map.map fun m =>
      if r.first ≤ m.unit ∧ m.unit < r.first + r.count then { m with backing := on } else m } d)

/-! ### Superblocks (R468, R474, R480) -/

/-- Block number of a superblock within its plane. -/
def sbBlock (sb : Nat) : Nat := sb % 1366

/-- Donor superblocks are the last 16 blocks of each plane and metadata superblocks the 2 before them
(R474; which blocks they are is log entry 5). -/
def sbReserved (sb : Nat) : Bool := decide (1348 ≤ sbBlock sb)

/-- Superblocks of the SLC set per die and plane (R474). -/
def slcPerPlane (pct : Nat) : Nat := 1366 * clampNat 1 6 pct / 100

/-- Superblocks of the SLC set (R474). -/
def slcSet (pct : Nat) : Nat := 32 * slcPerPlane pct

/-- What the model knows of a superblock: one that is not listed is erased, EC 0, in the SLC set when its
block number is below the set's size (R474). -/
def sbOf (d : Dev) (sb : Nat) : Superblock :=
  match d.flash.sbs.find? fun x => x.sb == sb with
  | some x => x
  | none => ⟨sb, decide (sbBlock sb < slcPerPlane d.flash.slcPct), .free, 0, 0, 0, 0, false⟩

/-- Put back a superblock. -/
def putSb (x : Superblock) (d : Dev) : Dev :=
  setFlash { d.flash with sbs := x :: d.flash.sbs.filter fun y => y.sb != x.sb } d

/-- Superblocks of a set that are not free (R474, R480). -/
def sbsTaken (d : Dev) (slc : Bool) : Nat := d.flash.sbs.countP fun x => x.slc == slc && x.state != .free

/-- Superblocks retired whole from the TLC pool (R482). -/
def sbsRetired (d : Dev) : Nat := d.flash.sbs.countP fun x => x.state == .retired

/-- Size of the TLC pool (R474). -/
def tlcPool (d : Dev) : Nat := 43712 - 512 - 64 - slcSet d.flash.slcPct - sbsRetired d

/-- Listed superblocks of a set whose mode differs from where their place would put them. -/
def slcMoved (d : Dev) : Int :=
  (d.flash.sbs.map fun x =>
    if x.slc ∧ ¬ decide (sbBlock x.sb < slcPerPlane d.flash.slcPct) then (1 : Int)
    else if ¬ x.slc ∧ decide (sbBlock x.sb < slcPerPlane d.flash.slcPct) then (-1) else 0).sum

/-- Free superblocks of the SLC set and of the TLC pool (R492). -/
def freeSlc (d : Dev) : Nat := ((slcSet d.flash.slcPct : Int) + slcMoved d - sbsTaken d true).toNat
def freeTlc (d : Dev) : Nat :=
  ((43712 - 512 - 64 - slcSet d.flash.slcPct : Nat) - slcMoved d - sbsTaken d false : Int).toNat

/-- Keep FTL_FREE_TLC, FTL_FREE_SLC and FTL_STATE (R482, R492). -/
def ftlSync (d : Dev) : Dev :=
  let d1 := (d.set Reg.FTL_FREE_TLC (freeTlc d)).set Reg.FTL_FREE_SLC (freeSlc d)
  if tlcPool d < 39463 + d.get Reg.FTL_GC_HIGH ∧ d.get Reg.FTL_STATE = 0 then
    (d1.set Reg.FTL_STATE 1).raise 0x80 1
  else d1

/-- The free superblock of a set with the lowest EC, ties to the lower number (R480). -/
def pickFree (d : Dev) (slc : Bool) : Option Nat :=
  let listed := d.flash.sbs.filter fun x => x.slc == slc && x.state == .free
  let fresh := (List.range 43712).find? fun n =>
    !sbReserved n && decide (sbBlock n < slcPerPlane d.flash.slcPct) == slc
    && !(d.flash.sbs.any fun x => x.sb == n)
  let best := listed.foldl (fun (acc : Option Superblock) x =>
    match acc with
    | none => some x
    | some a => if x.ec < a.ec ∨ (x.ec = a.ec ∧ x.sb < a.sb) then some x else some a) none
  match best, fresh with
  | some x, some n => if x.ec = 0 ∧ x.sb < n then some x.sb else some n
  | some x, none => some x.sb
  | none, r => r

/-- Channels that take data: not REBUILDING or OUT (R486). -/
def channelUp (d : Dev) (c : Nat) : Bool := d.get (Reg.FLC_STATE c) == 0

/-- Data channels of a stripe, in ascending order: every channel in use but the parity channel (R469,
R486). -/
def stripeChannels (d : Dev) (sb q : Nat) : List Nat :=
  (List.range 32).filter fun c => c != (sb + q) % 32 && channelUp d c

/-- Stripes of a superblock (R467, R472). -/
def sbStripes (slc : Bool) : Nat := if slc then 256 else 768

/-- Place of the `n`-th data chunk of a superblock; none beyond its end. -/
def chunkPlace (fuel q n : Nat) (d : Dev) (x : Superblock) : Option (Nat × Nat) :=
  match fuel with
  | 0 => none
  | k + 1 =>
    let cs := stripeChannels d x.sb q
    if sbStripes x.slc ≤ q then none
    else if n < cs.length then cs[n]?.map fun c => (q, c)
    else chunkPlace k (q + 1) (n - cs.length) d x

/-- The open superblock of a kind; a free one is opened when there is none (R475, R480). -/
def openSb (slc reloc : Bool) (d : Dev) : Option Superblock × Dev :=
  let st := if reloc then SbState.openReloc else .openWrite
  match d.flash.sbs.find? fun x => x.slc == slc && x.state == st with
  | some x => (some x, d)
  | none =>
    match pickFree d slc with
    | none => (none, d)
    | some n =>
      let x := { sbOf d n with
        slc := slc
        state := st
        seq := d.flash.nextSeq
        used := 0
        patrolAt := d.clock }
      (some x, ftlSync (putSb x (setFlash { d.flash with nextSeq := d.flash.nextSeq + 1 } d)))

/-- Place one chunk for a map unit: writes go to the SLC set while it has a free or open superblock, else to
TLC; relocations go to TLC (R475, R476, R479). A superblock that is full is closed. -/
def placeChunk (unit : Nat) (reloc backing : Bool) (fuel : Nat) (d : Dev) : Option MapEnt × Dev :=
  match fuel with
  | 0 => (none, d)
  | k + 1 =>
    let slc := !reloc && (freeSlc d != 0 || d.flash.sbs.any fun x => x.slc && x.state == .openWrite)
    match openSb slc reloc d with
    | (none, d1) => (none, d1)
    | (some x, d1) =>
      match chunkPlace (sbStripes x.slc + 1) 0 x.used d1 x with
      | some (q, c) => (some ⟨unit, x.sb, q, c, x.slc, backing⟩, putSb { x with used := x.used + 1 } d1)
      | none => placeChunk unit reloc backing k (putSb { x with
          state := .closed
          patrolAt := d1.clock } d1)

/-- Place chunks for consecutive map units. -/
def placeChunks (first n : Nat) (backing : Bool) (d : Dev) : List MapEnt × Dev :=
  (List.range n).foldl (fun acc i =>
    match placeChunk (first + i) false backing 2 acc.2 with
    | (some m, e) => (acc.1 ++ [m], e)
    | (none, e) => (acc.1, e)) ([], d)

/-- A write is accepted for a run of map units (R475): none is accepted once input power is lost (R487). -/
def flashWrite (use : FlashUse) (first n bytes : Nat) (d : Dev) : Dev :=
  if d.get Reg.FTL_PLP = 2 then d
  else
    let (cs, d1) := placeChunks first n false d
    let bypass := cs.countP fun m => !m.slc
    ((setFlash { d1.flash with
      writes := d1.flash.writes ++ [⟨d1.flash.nextId, use, first, n, cs⟩]
      nextId := d1.flash.nextId + 1 } d1).count Reg.FTL_WRITE_BYTES bytes).count Reg.FTL_SLC_BYPASS
      (bypass * 65536)

/-! ### Health counts (R490) -/

/-- Counts of a channel. -/
def chanHealth (d : Dev) (c : Nat) : ChanHealth :=
  match d.flash.channels.find? fun x => x.ch == c with
  | some x => x
  | none => ⟨c, 0, 0, 0, 0, 0, 0, 0, 0, 0, List.replicate 12 0⟩

/-- Change the counts of a channel. -/
def onChan (c : Nat) (f : ChanHealth → ChanHealth) (d : Dev) : Dev :=
  setFlash { d.flash with channels := f (chanHealth d c) :: d.flash.channels.filter fun x => x.ch != c } d

/-- Bin of CORR_HIST for a number of corrected bits (R490). -/
def corrBin (bits : Nat) : Nat :=
  if bits = 0 then 0 else ((List.range 9).find? fun i => decide (bits < 2 ^ (i + 1))).getD 8 + 1

/-- Add one to a histogram bin. -/
def bump (l : List Nat) (i : Nat) : List Nat := l.set i ((l[i]?).getD 0 + 1)

/-! ### Spare blocks and wear (R490, R492) -/

/-- Unused donor blocks of the place that has fewest. -/
def leastDonors (d : Dev) : Nat := 16 - ((d.flash.donors.map (·.2)).max?.getD 0)

/-- Mean and highest wear (R490): EC of the TLC pool and SLC set over 30,000, in permille. -/
def wearMean (d : Dev) : Nat :=
  (d.flash.sbs.map (·.ec)).sum * 1000 / ((43712 - 576) * 30000)
def wearMax (d : Dev) : Nat := ((d.flash.sbs.map (·.ec)).max?.getD 0) * 1000 / 30000

/-- Interrupt bits 0 and 3 of the FTL page (R492): SPARE_PERMILLE falls to 100 or below, WEAR_MAX_PERMILLE reaches 900; `e` is
the device before. -/
def wearRaise (e d : Dev) : Dev :=
  let spare := fun (x : Dev) => decide (leastDonors x * 1000 / 16 ≤ 100)
  let worn := fun (x : Dev) => decide (900 ≤ wearMax x)
  when (worn d && !worn e) (fun x => x.raise 0x80 3) (when (spare d && !spare e) (fun x => x.raise 0x80 0) d)

/-! ### Programs and erases -/

/-- Donor blocks used at a place. -/
def donorsUsed (d : Dev) (c sb : Nat) : Nat := (assocGet d.flash.donors (c * 32 + sb / 1366)).getD 0

/-- Replace a failed member block with a donor of its channel, die and plane; without one, the superblock is
retired whole (R482). -/
def replaceMember (c sb : Nat) (d : Dev) : Dev :=
  let used := donorsUsed d c sb
  wearRaise d <|
  let d1 := onChan c (fun h => { h with grownBad := h.grownBad + 1 })
    (d.set (Reg.FLC_BAD_BLOCKS c) (d.get (Reg.FLC_BAD_BLOCKS c) + 1))
  if used < 16 then
    (setFlash { d1.flash with donors := assocSet d1.flash.donors (c * 32 + sb / 1366) (used + 1) } d1).set
      (Reg.FLC_SPARE_BLOCKS c) (d1.get (Reg.FLC_SPARE_BLOCKS c) - 1)
  else ftlSync (putSb { sbOf d1 sb with state := .retired } d1)

/-- The map takes the chunks of a programmed write, and old chunks lose their units (R488); a unit keeps its BACKING bit. -/
def mapSwitch (cs : List MapEnt) (d : Dev) : Dev :=
  journal cs.length (setFlash { d.flash with
    map := (d.flash.map.filter fun m => !(cs.any fun c => c.unit == m.unit)) ++ cs.map fun c =>
      match d.flash.map.find? fun m => m.unit == c.unit with
      | some m => { c with backing := m.backing }
      | none => c } d)

/-- Under PLP_OFF a confirmed write closes its stripe: the unused chunks stay unused (R489). -/
def closeStripe (sb : Nat) (d : Dev) : Dev :=
  let x := sbOf d sb
  let at_ := fun n => (chunkPlace (sbStripes x.slc + 1) 0 n d x).map (·.1)
  match (List.range 32).find? fun i => at_ (x.used + i) != at_ (x.used - 1) with
  | some i => putSb { x with used := x.used + i } d
  | none => d

/-- FLASH_PROGRAM_DONE (R475, R482): the chunks of the write are programmed, and what it served; on a program
failure of a channel its member is replaced and the data is written again, but for the power-loss flush, which abandons it
(R491). -/
def flashProgram (id : Nat) (failed : Option Nat) (d : Dev) : Option FlashWrite × Dev :=
  match d.flash.writes.find? fun w => w.id == id with
  | none => (none, d)
  | some w =>
    let d1 := forAll (w.chunks.map (·.channel)) (fun c e => e.count (Reg.FLC_PROGRAMS c) 1) d
    match failed with
    | some c =>
      let d2 := onChan c (fun h => { h with progFails := h.progFails + 1 }) (d1.count (Reg.FLC_PROG_FAIL c) 1)
      let d3 := match w.chunks.find? fun m => m.channel == c with
        | some m => replaceMember c m.sb d2
        | none => d2
      if d.get Reg.FTL_PLP = 2 then
        (none, setFlash { d3.flash with writes := d3.flash.writes.filter fun x => x.id != id } d3)
      else
        let (cs, d4) := placeChunks w.first w.count false d3
        (none, setFlash { d4.flash with writes := d4.flash.writes.map fun x =>
          if x.id == id then { x with chunks := cs } else x } d4)
    | none =>
      let d2 := mapSwitch w.chunks (setFlash { d1.flash with
        writes := d1.flash.writes.filter fun x => x.id != id } d1)
      (some w, if d2.get Reg.FTL_PLP = 1 then forAll ((w.chunks.map (·.sb)).eraseDups) closeStripe d2 else d2)

/-- FLASH_ERASE_DONE (R478, R480, R482): the superblock is free; it joins the SLC set while the set is below
its size. An erase failure replaces the member first. -/
def flashErase (sb : Nat) (failed : Option Nat) (d : Dev) : Dev :=
  let x := sbOf d sb
  if x.state ≠ .erasing then d
  else
    let d0 := setFlash { d.flash with collecting := d.flash.collecting.filter fun c => c.sb != sb } d
    let d1 := forAll (List.range 32) (fun c e =>
      onChan c (fun h => if x.slc then { h with erasesSlc := h.erasesSlc + 1 }
        else { h with erasesTlc := h.erasesTlc + 1 }) (e.count (Reg.FLC_ERASES c) 1)) d0
    let d2 := match failed with
      | none => d1
      | some c => replaceMember c sb
          (onChan c (fun h => { h with eraseFails := h.eraseFails + 1 }) (d1.count (Reg.FLC_ERASE_FAIL c) 1))
    if (sbOf d2 sb).state = .retired then d2
    else
      let inSlc := decide (freeSlc d2 + sbsTaken d2 true - (if x.slc then 1 else 0) < slcSet d2.flash.slcPct)
      wearRaise d2 (ftlSync (putSb { x with
        slc := inSlc
        state := .free
        ec := x.ec + (if x.slc then 1 else 10)
        used := 0
        weak := false } d2))

/-! ### Folding and collection (R476-R479) -/

/-- VALID map units of a superblock. -/
def sbUnits (d : Dev) (sb : Nat) : List MapEnt := d.flash.map.filter fun m => m.sb == sb

/-- Copy or reclaim the units of a superblock, then erase it once none is left in it (R476, R479). A unit that holds only a backing
copy is copied when FTL_FOLD_BACKING is 1, and reclaimed otherwise. -/
def collectSb (sb : Nat) (fold : Bool) (d : Dev) : Dev :=
  let us := sbUnits d sb
  let keep := us.filter fun m => !m.backing || d.get Reg.FTL_FOLD_BACKING == 1
  let drop := us.filter fun m => m.backing && d.get Reg.FTL_FOLD_BACKING == 0
  let d1 := journal drop.length (setFlash { d.flash with map := d.flash.map.filter fun m => !drop.contains m } d)
  let d2 := keep.foldl (fun e m =>
    match placeChunk m.unit true m.backing 2 e with
    | (some c, e1) => mapSwitch [c] e1
    | (none, e1) => e1) (d1.count Reg.FTL_FOLD_RECLAIMED drop.length)
  let left := (sbUnits d2 sb).length
  let d3 := if fold then d2.count Reg.FTL_FOLD_BYTES ((keep.length - left) * 65536)
    else (d2.count Reg.FTL_GC_BYTES ((keep.length - left) * 65536)).count Reg.FTL_GC_VICTIMS 1
  if left ≠ 0 then d3
  else putSb { sbOf d3 sb with state := .erasing } (setFlash { d3.flash with
    collecting := d3.flash.collecting ++ [⟨sb, fold⟩] } d3)

/-- Percentages of FTL_FOLD_LOW_PCT and FTL_FOLD_HIGH_PCT in force (R492). -/
def foldLow (d : Dev) : Nat := min 100 (d.get Reg.FTL_FOLD_LOW_PCT)
def foldHigh (d : Dev) : Nat := max (foldLow d) (d.get Reg.FTL_FOLD_HIGH_PCT)

/-- The closed SLC superblock to fold: a weak one first, then the lowest write sequence (R476, R491). -/
def foldVictim (d : Dev) : Option Superblock :=
  (d.flash.sbs.filter fun x => x.slc && x.state == .closed).foldl (fun (acc : Option Superblock) x =>
    match acc with
    | none => some x
    | some a =>
      if x.weak ∧ ¬ a.weak then some x else if a.weak ∧ ¬ x.weak then some a
      else if x.seq < a.seq then some x else some a) none

/-- FOLD_START (R477): below FTL_FOLD_LOW_PCT of the set, or in an idle tick up to FTL_FOLD_HIGH_PCT, the
victim is folded. -/
def foldStart (d : Dev) : Dev :=
  if d.isM0 then d
  else if freeSlc d * 100 < foldHigh d * slcSet d.flash.slcPct then
    match foldVictim d with
    | some x => collectSb x.sb true d
    | none => d
  else d

/-- The collection victim: the fewest VALID units, then the lower EC, then the lower number; a weak
superblock outside its turn (R479, R481). -/
def gcVictim (d : Dev) : Option Superblock :=
  (d.flash.sbs.filter fun x => !x.slc && x.state == .closed).foldl (fun (acc : Option Superblock) x =>
    match acc with
    | none => some x
    | some a =>
      let nx := (sbUnits d x.sb).length
      let na := (sbUnits d a.sb).length
      if x.weak ∧ ¬ a.weak then some x else if a.weak ∧ ¬ x.weak then some a
      else if nx < na ∨ (nx = na ∧ (x.ec < a.ec ∨ (x.ec = a.ec ∧ x.sb < a.sb))) then some x else some a) none

/-- GC_START (R479): free TLC superblocks are below FTL_GC_LOW, or a collection runs on up to FTL_GC_HIGH, or
a weak superblock waits. -/
def gcStart (d : Dev) : Dev :=
  if d.isM0 then d
  else
    let running := d.flash.collecting.any fun c => !c.fold
    let want := freeTlc d < d.get Reg.FTL_GC_LOW ∨ (running = true ∧ freeTlc d < d.get Reg.FTL_GC_HIGH)
    match gcVictim d with
    | some x => if want ∨ x.weak = true then collectSb x.sb false d else d
    | none => d

/-- PATROL_READ (R481): a closed superblock comes due; a weak one is relocated outside its turn. -/
def patrolRead (sb worstBits : Nat) (beyondHard : Bool) (d : Dev) : Dev :=
  let x := sbOf d sb
  let due := max 1 (d.get Reg.FTL_PATROL_DAYS) * 86400000000000
  if x.state = .closed ∧ x.patrolAt + due ≤ d.clock then
    putSb { x with
      patrolAt := d.clock
      weak := x.weak || decide (96 ≤ worstBits) || beyondHard } d
  else d

/-- MAP_SNAPSHOT (R472): after 65,536 map changes. -/
def mapSnapshot (d : Dev) : Dev :=
  if 65536 ≤ d.flash.journal then setFlash { d.flash with journal := d.flash.journal - 65536 } d else d

/-! ### Reads and channels (R484-R486) -/

/-- Outcome of a chunk read: the recovery step that succeeded (R484), 6 when the unit is lost. Reads of a
channel that is REBUILDING or OUT are served by step 4 (R486). -/
def readStep (d : Dev) (c : Nat) (r : FlashRead) : Nat :=
  if channelUp d c ∧ r.hardOk then 1
  else if channelUp d c ∧ r.retryOk then 2
  else if channelUp d c ∧ r.softOk then 3
  else if r.parityOk then 4
  else if r.remoteOk ∧ d.get Reg.FAB_COPY_T4 = 2 then 5
  else 6

/-- Counters, health and log of a chunk read (R484, R490, R620). -/
def readCounts (c step : Nat) (r : FlashRead) (d : Dev) : Dev :=
  let d1 := d.count (Reg.FLC_READS c) 1
  let d2 := if step = 1 then d1.count (Reg.FLC_LDPC_CORR_BITS c) r.corrBits else d1
  let d3 := if channelUp d c ∧ 2 ≤ step then d2.count (Reg.FLC_READ_RETRY c) (min 8 r.retries) else d2
  let d4 := if channelUp d c ∧ 3 ≤ step then d3.count (Reg.FLC_SOFT_DECODE c) 1 else d3
  let d5 := if step = 4 then d4.count Reg.FTL_PARITY_RECOVER 1 else d4
  let d6 := if step = 5 then d5.count Reg.FTL_REMOTE_RECOVER 1 else d5
  let d7 := if step = 6 then (d6.count Reg.FTL_UNCORRECTABLE 1).raise 0x80 4 else d6
  let d8 := onChan c (fun h => { h with
    retries := h.retries + (if 2 ≤ step then min 8 r.retries else 0)
    soft := h.soft + (if 3 ≤ step then 1 else 0)
    parity := h.parity + (if step = 4 then 1 else 0)
    uncorrectable := h.uncorrectable + (if step = 6 then 1 else 0)
    hist := if step ≤ 2 then bump h.hist (corrBin r.corrBits) else if step = 3 then bump h.hist 10
      else if step = 4 then bump h.hist 11 else h.hist }) d7
  if step ≤ 4 ∧ (r.corrBits ≠ 0 ∨ 2 ≤ step) then logCorrected ecFlashLost (0x60 + c) c 0 false d8
  else if step = 6 then logError clsObject ecFlashLost (0x60 + c) c 0 0 0 false d8
  else d8

/-- A map unit that was recovered at step 3 or later is written again (R485). -/
def rewriteUnit (m : MapEnt) (d : Dev) : Dev := flashWrite (.relocate m.unit) m.unit 1 65536 d

/-- Shrink or restore the SLC share in force (R478, R486, R491). -/
def slcShare (d : Dev) : Dev :=
  let anyOut := (List.range 32).any fun c => !channelUp d c
  setFlash { d.flash with slcPct := if anyOut then 1 else clampNat 1 6 (d.get Reg.FTL_SLC_PCT) } d

/-- CHANNEL_FAIL (R486, R623): on loss of its bus, or more than 1,024 reconstructions in 1 s. -/
def channelFail (c : Nat) (busLost : Bool) (recoveries : Nat) (d : Dev) : Dev :=
  if c < 32 ∧ channelUp d c ∧ ¬ d.isM0 ∧ (busLost ∨ 1024 < recoveries) then
    let d1 := slcShare (d.set (Reg.FLC_STATE c) 1)
    let lost := d1.flash.map.filter fun m => m.channel == c
    let d2 := lost.foldl (fun e m =>
      match placeChunk m.unit true m.backing 2 e with
      | (some k, e1) => setFlash { e1.flash with
          writes := e1.flash.writes ++ [⟨e1.flash.nextId, .relocate m.unit, m.unit, 1, [k]⟩]
          nextId := e1.flash.nextId + 1 } e1
      | (none, e1) => e1) d1
    unitSpared (0x60 + c) c (logError clsUnit ecUnitSpare (0x60 + c) c 0 0 0 false d2)
  else d

/-- REBUILD_COMPLETE (R486): every VALID chunk of the channel has been written elsewhere. -/
def rebuildComplete (c : Nat) (d : Dev) : Dev :=
  if d.get (Reg.FLC_STATE c) = 1 ∧ d.flash.map.all (fun m => m.channel != c) = true then
    d.set (Reg.FLC_STATE c) 2
  else d

/-! ### The health log (R490) -/

/-- A channel record. -/
def chanRecord (d : Dev) (c : Nat) : Bytes :=
  let h := chanHealth d c
  le 2 (d.get (Reg.FLC_STATE c)) ++ le 2 (d.get (Reg.FLC_SPARE_BLOCKS c)) ++ le 4 h.grownBad
  ++ le 8 h.erasesTlc ++ le 8 h.erasesSlc ++ le 8 h.retries ++ le 8 h.soft ++ le 8 h.parity
  ++ le 8 h.uncorrectable ++ le 8 h.progFails ++ le 8 h.eraseFails ++ zeros 24
  ++ (h.hist.map (le 8)).flatten ++ zeros 64

/-- The 8,512 bytes of the log, as one snapshot. -/
def healthBytes (d : Dev) : Bytes :=
  let hdr := le 4 0x464C4847 ++ le 2 1 ++ zeros 2 ++ le 8 d.now ++ le 2 (leastDonors d * 1000 / 16)
    ++ le 2 (wearMean d) ++ le 2 (wearMax d) ++ le 1 d.flash.slcPct
    ++ le 1 (d.get Reg.FTL_STATE + 4 * d.get Reg.FTL_PLP) ++ zeros 40
  let temp := (d.flash.tempHist.map (le 8)).flatten ++ le 2 (twos 16 d.flash.tempMin)
    ++ le 2 (twos 16 d.flash.tempMax) ++ padTo 64 (d.flash.tempHourly.map fun t => BitVec.ofNat 8 (twos 8 t))
    ++ zeros 60
  hdr ++ temp ++ ((List.range 32).map (chanRecord d)).flatten

/-- Bin of TEMP_HIST. -/
def tempBin (t : Int) : Nat :=
  if t < 20 then 0 else if 90 ≤ t then 15 else ((t - 15) / 5).toNat

/-- HEALTH_LOG_UPDATE (R490): once per minute, with the hottest die's temperature. -/
def healthUpdate (temp : Int) (d : Dev) : Dev :=
  if d.isM0 ∨ d.clock < d.flash.healthAt + 60000000000 then d
  else
    let first := d.flash.tempHist.all (· == 0)
    let s := temp :: d.flash.tempSamples
    let hour := decide (60 ≤ s.length)
    let d1 := setFlash { d.flash with
      tempHist := bump d.flash.tempHist (tempBin temp)
      tempMin := if first then temp else min d.flash.tempMin temp
      tempMax := if first then temp else max d.flash.tempMax temp
      tempHourly := if hour then ((s.sum / 60) :: d.flash.tempHourly).take 64 else d.flash.tempHourly
      tempSamples := if hour then [] else s
      healthAt := d.clock } d
    setFlash { d1.flash with health := healthBytes d1 } d1

/-- FTL_HEALTH_GET (R490): the log goes to the named slot's memory; `ok` is the outcome of the host writes. -/
def healthGet (word : Nat) (ok : Bool) (d : Dev) : Dev :=
  if word % 2 = 0 then d
  else
    let n := d.get Reg.FTL_HEALTH_SLOT
    if ¬ slotBound d n then d.set Reg.FTL_HEALTH_STATUS 3
    else if ok then (d.emit (.hostWrite n (d.get Reg.FTL_HEALTH_ADDR) (healthBytes d))).set
      Reg.FTL_HEALTH_STATUS 0
    else d.set Reg.FTL_HEALTH_STATUS 2

end Sys2Proof.Machine
end

