-- ==== Sys2Proof/Machine/Gates.lean ====
section
/-! DEFINITION. Gate lists and the open set of a port (spec/13: R456-R461). -/

namespace Sys2Proof.Machine

open Sys2Proof

/-- Plan actions (R65). -/
def actBatchStart : Nat := 0x01
def actLayerStart : Nat := 0x02
def actCollective : Nat := 0x03
def actGateSwitch : Nat := 0x04
def actPromote : Nat := 0x05
def actDeadline : Nat := 0x06
def actSeal : Nat := 0x07
def actCkptWindow : Nat := 0x08
def actMaintGate : Nat := 0x09
def actCalibrate : Nat := 0x0A
def actPowerState : Nat := 0x0B

/-- A step correction has passed a counter value: a deadline there takes effect at the first tick that fires (R57). -/
def passedBy (d : Dev) (at_ : Nat) : Bool := d.tick.corrected && decide (at_ ≤ d.tick.corrTo)

/-- Replace the link state. -/
def setLink (l : LinkSt) (d : Dev) : Dev := { d with link := l }

/-- A gate list by number; a number that is not loaded reads as list 0. -/
def gateList (d : Dev) (n : Nat) : GateList := (assocGet d.link.lists n).getD gateList0

/-- The index of the entry that holds at offset `o` of a cycle (R458). -/
def entryIndex (l : GateList) (o : Nat) : Nat :=
  (l.entries.findIdx? fun e => decide (e.1 ≤ o % l.cycle ∧ o % l.cycle < e.1 + e.2.1)).getD 0

/-- OPEN of an entry. -/
def entryOpen (l : GateList) (i : Nat) : Nat :=
  match l.entries[i]? with
  | some e => e.2.2
  | none => 0x01

/-- A plan entry names fabric port `p` (R65). -/
def namesPort (e : PlanEntry) (p : Nat) : Bool :=
  e.unitClass == 0 || (e.unitClass == 3 && decide (e.first ≤ p ∧ p ≤ e.last))

/-- The elapsed instant at which the running tick ends. -/
def tickEndClock (d : Dev) : Nat := d.tick.startLocal + d.tick.period

/-- Entries of the running and the sealed plan that lie ahead, with their elapsed instants. -/
def aheadEntries (d : Dev) : List (Nat × PlanEntry) :=
  let of := fun (p : Option Plan) (base : Nat) =>
    match p with
    | none => []
    | some q => q.entries.map fun (e : PlanEntry) => (base + e.offset, e)
  (of d.tick.plan d.tick.startLocal ++ of d.tick.next (tickEndClock d)).filter
    fun x => decide (d.clock < x.1)

/-- The list in force at elapsed instant `t`, at or after now: the last switch up to then (R461). -/
def listAt (d : Dev) (t : Nat) : Nat :=
  ((aheadEntries d).foldl (fun (acc : Nat × Nat) x =>
    if x.2.action = actGateSwitch ∧ x.1 ≤ t ∧ acc.1 ≤ x.1 then (x.1, x.2.arg % 16) else acc)
    (0, d.get Reg.GL_ACTIVE)).2

/-- Offset in its tick of an elapsed instant at or after now (R458). -/
def tickOffset (d : Dev) (t : Nat) : Nat :=
  if d.tick.running ∧ tickEndClock d ≤ t then t - tickEndClock d else t - d.tick.startLocal

/-- A window of class `tc` runs on port `p` at elapsed instant `t` (R458). -/
def windowAt (d : Dev) (tc p t : Nat) : Bool :=
  (d.tick.windows.any fun w => w.tc == tc && w.port == p && decide (t < w.until_)) ||
  ((aheadEntries d).any fun x =>
    x.2.action == (if tc = 1 then actCollective else actCkptWindow) && namesPort x.2 p
    && decide (x.1 ≤ t ∧ t < x.1 + x.2.arg))

/-- The open set of a port at an elapsed instant (R458). -/
def openSet (d : Dev) (p t : Nat) : Nat :=
  let l := gateList d (listAt d t)
  let g := entryOpen l (entryIndex l (tickOffset d t))
  let g1 := if windowAt d 1 p t then Nat.land (Nat.lor g 0x02)
      (Nat.xor 0xFF (Nat.land (d.get Reg.COLL_CLOSE_MASK) 0xFC)) else g
  let g2 := if windowAt d 6 p t then Nat.lor g1 0x40 else g1
  Nat.lor g2 0x01

/-- Elapsed instants at which the open set of a port can change, over some cycles from now on. -/
def breakpoints (d : Dev) : List Nat :=
  let edges := fun (base o : Nat) (l : GateList) =>
    (List.range 9).flatMap fun k => l.entries.map fun e => base + (o / l.cycle + k) * l.cycle + e.1
  let lists := d.get Reg.GL_ACTIVE ::
    ((aheadEntries d).filter fun x => x.2.action == actGateSwitch).map fun x => x.2.arg % 16
  let ahead := aheadEntries d
  (lists.flatMap fun n => edges d.tick.startLocal (d.clock - d.tick.startLocal) (gateList d n) ++
    edges (tickEndClock d) 0 (gateList d n))
  ++ ahead.map (·.1) ++ (ahead.map fun x => x.1 + x.2.arg) ++ d.tick.windows.map (·.until_)
  ++ [tickEndClock d]

/-- Class `c` stays open on the port for `need` units of 0.1 ps from now (R459). -/
def staysOpen (d : Dev) (p c need : Nat) : Bool :=
  (breakpoints d).all fun b =>
    !decide (d.clock < b ∧ (b - d.clock) * 10000 < need) || bitAt (openSet d p b) c

/-- A gate list in the bytes of a load, none when it breaks R456 or R457. -/
def gateListOf (b : Bytes) : Option GateList :=
  let n := fieldAt b 6 2
  let cyc := fieldAt b 8 4
  let es := (List.range n).map fun i => b.drop (16 + 16 * i) |>.take 16
  let ents := es.map fun e => (fieldAt e 0 4, fieldAt e 4 4, byteAt e 8)
  let chain := ents.foldl (fun (acc : Bool × Nat) e => (acc.1 && e.1 == acc.2, e.1 + e.2.1)) (true, 0)
  if fieldAt b 0 4 = 0x47544C53 ∧ fieldAt b 4 2 = 1 ∧ 1 ≤ n ∧ n ≤ 256 ∧ 10000 ≤ cyc ∧ cyc ≤ 1000000000
      ∧ fieldAt b 12 4 = 0 ∧ 16 + 16 * n ≤ b.length ∧ es.all (fun e => allZero (e.drop 9)) = true
      ∧ ents.all (fun e => decide (1000 ≤ e.2.1) && bitAt e.2.2 0) = true
      ∧ chain = (true, cyc) ∧ ents.any (fun e => e.2.2 == 1) = true
  then some { cycle := cyc, entries := ents } else none

/-- GL_LOAD_ID_WRITE (R460): a number in force or armed is refused; otherwise the read begins. A write that
does not come from a slot has no memory to read. A write of 0, or while a load is busy, is ignored. -/
def glLoadIdWrite (via : Via) (value : Nat) (d : Dev) : Dev :=
  let id := value % 16
  if id = 0 ∨ d.link.loading.isSome then d
  else if id = d.get Reg.GL_ACTIVE ∨ d.link.armed.map (·.1) = some id then d.set Reg.GL_LOAD_STATUS 3
  else
    match via with
    | .slot n =>
      ((setLink { d.link with loading := some (id, n, d.get Reg.GL_LOAD_ADDR) } d).set
        Reg.GL_LOAD_STATUS 1).emit (.hostRead n (d.get Reg.GL_LOAD_ADDR) 16)
    | _ => d.set Reg.GL_LOAD_STATUS 4

/-- GL_LOAD_DONE (R460): the read completes, or has failed (`none`). -/
def glLoadDone (data : Option Bytes) (d : Dev) : Dev :=
  match d.link.loading with
  | none => d
  | some (id, _, _) =>
    let d1 := setLink { d.link with loading := none } d
    match data with
    | none => d1.set Reg.GL_LOAD_STATUS 4
    | some b =>
      match gateListOf b with
      | none => d1.set Reg.GL_LOAD_STATUS 2
      | some l =>
        if id = d.get Reg.GL_ACTIVE ∨ d.link.armed.map (·.1) = some id then d1.set Reg.GL_LOAD_STATUS 3
        else (setLink { d1.link with lists := assocSet d1.link.lists id l } d1).set Reg.GL_LOAD_STATUS 0

/-- The plan of the tick that holds counter value `at_` is sealed (R461, R62). -/
def planSealedFor (d : Dev) (at_ : Nat) : Bool :=
  d.tick.running &&
    (decide (at_ < d.tick.start + d.tick.period) ||
     (d.tick.sealed && match d.tick.next with
       | some p => decide (at_ < p.start + p.period)
       | none => false))

/-- GL_SWITCH_AT_WRITE (R461). -/
def glSwitchAtWrite (value : Nat) (d : Dev) : Dev :=
  let d1 := d.set Reg.GL_SWITCH_AT value
  let id := d.get Reg.GL_SWITCH_ID
  if (assocGet d.link.lists id).isNone then d1.set Reg.GL_SWITCH_STATUS 1
  else if planSealedFor d value then d1.set Reg.GL_SWITCH_STATUS 2
  else ((setLink { d1.link with armed := some (id, value) } d1).set Reg.GL_ARMED 1).set Reg.GL_SWITCH_STATUS 0

end Sys2Proof.Machine
end

