-- ==== Sys2Proof/Machine/Routes.lean ====
section
/-! DEFINITION. Routes, port sets and peer states of the fabric (spec/12: R398-R401, R421). -/

namespace Sys2Proof.Machine

open Sys2Proof

/-- Fabric events (R428), posted to event ring 0 of every ADMIN slot. -/
def evPeerSuspect : Nat := 0x0480
def evPeerLost : Nat := 0x0481
def evPeerReturned : Nat := 0x0482
def evGroupMemberLost : Nat := 0x0483
def evCopyDeficit : Nat := 0x0484
def evCopyRestored : Nat := 0x0485
def evRouteApplied : Nat := 0x0486

/-- Replace the fabric state. -/
def setFab (f : FabSt) (d : Dev) : Dev := { d with fab := f }

/-- A routing table is in force (R429). -/
def routed (d : Dev) : Bool := d.get Reg.FAB_ROUTED == 1

/-- The entry of a module in the table in force. -/
def routeEnt (d : Dev) (m : Nat) : Option RouteEnt :=
  match d.fab.table with
  | none => none
  | some t => t.entries.find? fun e => e.module_ == m

/-- A module is PRESENT in the table in force. -/
def modulePresent (d : Dev) (m : Nat) : Bool :=
  match routeEnt d m with
  | none => false
  | some e => e.present

/-- A port is up in UP and DEGRADED (R436). -/
def portUp (d : Dev) (p : Nat) : Bool := d.get (Reg.PORT_STATE p) == psUp || d.get (Reg.PORT_STATE p) == psDegraded

/-- Ports of a next-hop mask whose links are up, in ascending order. -/
def upPorts (d : Dev) (mask : Nat) : List Nat := (List.range 16).filter fun p => bitAt mask p && portUp d p

/-- The port set of a destination (R401). -/
def portSet (d : Dev) (m : Nat) : List Nat :=
  match routeEnt d m with
  | none => []
  | some e => if upPorts d e.routeA = [] then upPorts d e.routeB else upPorts d e.routeA

/-- Hops of the route in use (R402). -/
def routeHops (d : Dev) (m : Nat) : Nat :=
  match routeEnt d m with
  | none => 0
  | some e => if upPorts d e.routeA = [] then e.hopsB else e.hopsA

/-- The port that a transaction leaves on: k = (DST * 8 + TC) mod n, counted from the lowest (R401). -/
def exitPort (d : Dev) (dst tc : Nat) : Option Nat :=
  let s := portSet d dst
  s[(dst * 8 + tc) % s.length]?

/-- A module's state (R421). -/
def peerState (d : Dev) (m : Nat) : PeerState :=
  match d.fab.peers.find? fun p => p.module_ == m with
  | none => .absent
  | some p => p.state

/-- A message of a module that is LOST to this one is discarded (R421, R423, R425). -/
def fromPeer (src : Nat) (f : Dev → Dev) (d : Dev) : Dev :=
  if peerState d src = .lost then d.count Reg.FAB_RX_FENCED 1 else f d

/-- Set or clear the bit of module `m` in a peer map (R429). -/
def mapBit (f : Nat → Field) (m : Nat) (on : Bool) (d : Dev) : Dev :=
  d.set (f (m / 64)) (setBit (d.get (f (m / 64))) (m % 64) on)

/-- Move a module to a peer state, keeping the peer maps (R421, R429). -/
def setPeer (m : Nat) (st : PeerState) (d : Dev) : Dev :=
  let gen := match st with
    | .lost => d.get Reg.FAB_ROUTE_GEN
    | _ => 0
  mapBit Reg.FAB_LOST_MAP m (st == .lost)
    (mapBit Reg.FAB_SUSPECT_MAP m (st == .suspect)
      (setFab { d.fab with peers :=
        ⟨m, st, d.clock, gen⟩ :: d.fab.peers.filter fun p => p.module_ != m } d))

/-- A PRESENT peer becomes SUSPECT and PEER_SUSPECT is posted (R421); another state stays. -/
def suspectPeer (m : Nat) (d : Dev) : Dev :=
  if peerState d m = .present then postAdmins none evPeerSuspect m (setPeer m .suspect d) else d

/-- Every PRESENT peer with no port up on either route becomes SUSPECT (R421). -/
def peersRecheck (d : Dev) : Dev :=
  forAll ((d.fab.peers.filter fun p => p.state == .present && (portSet d p.module_).isEmpty).map (·.module_))
    suspectPeer d

end Sys2Proof.Machine
end

