-- ==== Sys2Proof/Machine/Ports.lean ====
section
/-! DEFINITION. The fabric ports: egress scheduling, flits, retry, training, lanes and link keys (spec/13). -/

namespace Sys2Proof.Machine

open Sys2Proof

/-- A port's state. -/
def portOf (d : Dev) (p : Nat) : LinkPort := (d.link.ports[p]?).getD LinkPort.reset

/-- Put back a port's state. -/
def setPort (p : Nat) (x : LinkPort) (d : Dev) : Dev := setLink { d.link with ports := d.link.ports.set p x } d

/-- Change a port's state. -/
def onPort (p : Nat) (f : LinkPort → LinkPort) (d : Dev) : Dev := setPort p (f (portOf d p)) d

/-- Bytes of a frame: header, payload and tag (R432). -/
def frameLen (t : FabTxn) : Nat := 48 + t.len

/-- Flits of a frame (R432). -/
def frameFlits (t : FabTxn) : Nat := ceilDiv (frameLen t) 242

/-- The 32-byte transaction header (R402). -/
def txnHeader (t : FabTxn) : Bytes :=
  le 1 t.op ++ le 1 (t.tc + t.hops * 16) ++ le 2 t.src ++ le 2 t.dst ++ le 1 t.keySlot ++ le 1 t.status
  ++ le 4 t.tag ++ le 4 t.len ++ le 8 t.addr ++ le 8 t.arg

/-- The key slot that frames are sequenced under now (R448). -/
def keyInUse (d : Dev) (p : Nat) : Nat :=
  if d.get (Reg.KEY_SWITCH_AT p) ≠ 0 ∧ d.get (Reg.KEY_SWITCH_AT p) ≤ d.now then d.get (Reg.KEY_NEXT p)
  else d.get (Reg.KEY_SLOT p)

/-- Cut the bytes of a frame into flits of its class (R432). -/
def flitsOf (tc key : Nat) (b : Bytes) : List Flit :=
  let cs := chunks (b.length + 1) 242 b
  let n := cs.length
  cs.mapIdx fun i c =>
    { fecOk := true
      corrected := 0
      seq := 0
      ack := 0
      tc := tc
      first := i == 0
      last := i + 1 == n
      keySlot := if i = 0 then key else 0
      lastBytes := if i + 1 = n then c.length else 0
      crcOk := true
      bytes := c }

/-- Time of one flit in units of 0.1 ps (R433). -/
def flitTime (d : Dev) (p : Nat) : Nat := if d.get (Reg.PORT_STATE p) = psDegraded then 24192 else 12096

/-- Send the flits of started frames while credit and replay room last, TC0 first (R434, R438, R441). -/
def flushPort (fuel p : Nat) (d : Dev) : Dev :=
  match fuel with
  | 0 => d
  | k + 1 =>
    let x := portOf d p
    let ready := fun (f : Flit) => decide (x.replay.length < 2048) && decide (0 < (x.credits[f.tc]?).getD 0)
    let send := fun (f : Flit) (y : LinkPort) =>
      let g := { f with
        seq := x.txSeq
        ack := (x.rxNext + 4095) % 4096 }
      let d1 := setPort p { y with
        txSeq := (x.txSeq + 1) % 4096
        replay := x.replay ++ [g]
        credits := x.credits.set f.tc ((x.credits[f.tc]?).getD 0 - 1) } d
      let d2 := d1.count (Reg.FAB_TX_FLITS p) 1
      (if f.tc = 0 then d2.count (Reg.FAB_TC0_FLITS p) 1 else d2).emit (.flit p 0 g.seq)
    match x.sendTc0, x.sendBulk with
    | f :: r, _ =>
      if ready f then flushPort k p (send f { x with sendTc0 := r }) else
        match x.sendBulk with
        | g :: q => if ready g then flushPort k p (send g { x with sendBulk := q }) else d
        | [] => d
    | [], g :: q => if ready g then flushPort k p (send g { x with sendBulk := q }) else d
    | [], [] => d

/-- Flush everything that may go. -/
def flushAll (p : Nat) (d : Dev) : Dev :=
  flushPort ((portOf d p).sendTc0.length + (portOf d p).sendBulk.length) p d

/-- Draw a fresh salt and restart the frame counter; the sender tells the receiver in a SALT flit (R446). -/
def saltRoll (p : Nat) (d : Dev) : Dev :=
  let (i, d1) := d.fresh
  ((onPort p (fun x => { x with
    txSalt := Config.random i % two64
    txCount := 0 }) d1).count (Reg.FAB_SALT_ROLLS p) 1).emit (.flit p 4 0)

/-- WFQ weight, 0 acting as 1 (R464). -/
def wfqWeight (d : Dev) (c : Nat) : Nat := if d.get (Reg.WFQ_WEIGHT c) = 0 then 1 else d.get (Reg.WFQ_WEIGHT c)

/-- A class queue. -/
def egressOf (x : LinkPort) (c : Nat) : Egress := (x.egress[c]?).getD Egress.reset

/-- A frame reaches the head of queue `c` (R451). -/
def headTags (d : Dev) (vt c : Nat) (e : Egress) : Egress :=
  match e.frames with
  | [] => e
  | f :: _ =>
    let st := max vt e.fin
    let fi := st + frameFlits f * 65536 / wfqWeight d c
    { e with
      start := st
      fin := fi
      tag := fi
      waited := false }

/-- A class opens on the port while its queue is not empty (R451). -/
def reopenTags (d : Dev) (vt c : Nat) (e : Egress) : Egress :=
  match e.frames with
  | [] => e
  | f :: _ =>
    let st := max vt e.start
    let fi := st + frameFlits f * 65536 / wfqWeight d c
    { e with
      start := st
      fin := fi
      tag := fi }

/-- Look at the open set of a port: classes that have opened restart from vt (R451, R458). -/
def refreshOpen (p : Nat) (d : Dev) : Dev :=
  let o := openSet d p d.clock
  onPort p (fun x => { x with egress := x.egress.mapIdx fun c e =>
    let now := bitAt o c
    let e1 := if now ∧ ¬ e.isOpen ∧ c ≠ 0 then reopenTags d x.vt c e else e
    { e1 with isOpen := now } }) d

/-- The open set of every port changes (R458). -/
def refreshAll (d : Dev) : Dev := forAll (List.range 16) refreshOpen d

/-- Put a frame at the end of its class's egress queue (R449-R451). -/
def enqueue (p : Nat) (t : FabTxn) (d : Dev) : Dev :=
  onPort p (fun x =>
    let e := egressOf x t.tc
    let e1 := { e with frames := e.frames ++ [t] }
    { x with egress := x.egress.set t.tc (if e.frames = [] then headTags d x.vt t.tc e1 else e1) }) d

/-- Flits of the frames in the egress TC0 queue (R454). -/
def tc0Queued (x : LinkPort) : Nat := ((egressOf x 0).frames.map frameFlits).sum

/-- Bytes of own TC0 frames that a port takes in each refill interval (R454). -/
def injectLimit (d : Dev) : Nat :=
  max 1 (d.get Reg.TC0_INJECT_MBPS) * clampNat 100 100000 (d.get Reg.TSCHED_REFILL_NS) / 1000

/-- Own TC0 frames enter the egress queue while the interval's measure lasts, and forwarded frames that wait
in the ingress buffer enter it when there is room, in order (R454, R455). -/
def admitTc0 (fuel p : Nat) (d : Dev) : Dev :=
  match fuel with
  | 0 => d
  | k + 1 =>
    let x := portOf d p
    match x.held, x.inject with
    | t :: r, _ =>
      if tc0Queued x + frameFlits t ≤ 256 then
        admitTc0 k p (enqueue p t (setPort p { x with held := r } d))
      else d
    | [], t :: r =>
      if x.injected < injectLimit d ∧ tc0Queued x + frameFlits t ≤ 256 then
        admitTc0 k p (enqueue p t (setPort p { x with
          inject := r
          injected := x.injected + frameLen t } d))
      else d
    | [], [] => d

/-- Admit all that may enter now. -/
def admitAll (p : Nat) (d : Dev) : Dev :=
  admitTc0 ((portOf d p).held.length + (portOf d p).inject.length) p d

/-- A transaction that this module originates is handed to a port part (R401, R454). -/
def portSend (p : Nat) (t : FabTxn) (d : Dev) : Dev :=
  if t.tc = 0 then admitAll p (onPort p (fun x => { x with inject := x.inject ++ [t] }) d) else enqueue p t d

/-- A transaction that this module forwards: a TC0 frame that finds the queue full waits in its ingress
buffer (R455). -/
def portForward (p : Nat) (t : FabTxn) (d : Dev) : Dev :=
  if t.tc = 0 then
    let x := portOf d p
    let full := decide (256 < tc0Queued x + frameFlits t) || !x.held.isEmpty
    admitAll p (when full (fun e => e.count Reg.TSCHED_TC0_FULL 1)
      (onPort p (fun y => { y with held := y.held ++ [t] }) d))
  else enqueue p t d

/-- The shaper of a class holds the frame (R450, R452). -/
def shaperHolds (d : Dev) (p : Nat) (t : FabTxn) : Bool :=
  d.get (Reg.SHAPE_RATE p t.tc) == 0 || decide (frameLen t ≤ ((portOf d p).shaper[t.tc - 1]?).getD 0)

/-- A frame of class c >= 1 fits the window of its class (R459). -/
def frameFits (d : Dev) (p : Nat) (t : FabTxn) : Bool :=
  staysOpen d p t.tc (frameFlits t * flitTime d p + d.get Reg.GATE_GUARD_NS * 10000)

/-- Start the head frame of class `c` (R450, R451): the scheduler's clock, the shaper, the nonce and the
flits. -/
def startFrame (p c : Nat) (d0 : Dev) : Dev :=
  let d := if 2 ^ 31 ≤ (portOf d0 p).txCount then saltRoll p d0 else d0
  let x := portOf d p
  let e := egressOf x c
  match e.frames with
  | [] => d
  | t :: r =>
    let vt := if c = 0 then x.vt else e.tag
    let key := keyInUse d p
    let plain := txnHeader t ++ t.payload
    let sealed_ := padTo (plain.length + 16) (Config.gcmSeal key x.txSalt x.txCount plain)
    let fl := flitsOf c key sealed_
    let begin_ := max x.freeAt (d.clock * 10000)
    let free := begin_ + fl.length * flitTime d p
    let e1 := headTags d vt c { e with frames := r }
    let overran := c = 0 ∧ d.clock * 10000 < x.freeAt ∧ x.curTc ≠ 0 ∧ ¬ x.curOver
      ∧ staysOpen d p x.curTc (free - d.clock * 10000) = false
    let y := { x with
      egress := x.egress.set c e1
      vt := vt
      txCount := x.txCount + 1
      shaper := if c = 0 ∨ d.get (Reg.SHAPE_RATE p c) = 0 then x.shaper
        else x.shaper.set (c - 1) ((x.shaper[c - 1]?).getD 0 - frameLen t)
      sendTc0 := if c = 0 then x.sendTc0 ++ fl else x.sendTc0
      sendBulk := if c = 0 then x.sendBulk else x.sendBulk ++ fl
      freeAt := free
      curTc := if c = 0 ∧ d.clock * 10000 < x.freeAt then x.curTc else c
      curOver := if c = 0 ∧ d.clock * 10000 < x.freeAt then x.curOver || decide overran else false }
    flushAll p (when (decide overran) (fun z => z.count Reg.TSCHED_GATE_OVERRUN 1)
      ((((setPort p y d).count Reg.SEC_GCM_FRAMES 1).emit (.txn t)).emit (.frame p ⟨key, true, t⟩)))

/-- Heads of TC1-TC7 that are open and shaped but do not fit wait for their next window, counted once each
(R459). -/
def countWaits (p : Nat) (d : Dev) : Dev :=
  forAll (List.range 7) (fun i e =>
    let c := i + 1
    let q := egressOf (portOf e p) c
    match q.frames with
    | [] => e
    | t :: _ =>
      if q.isOpen ∧ shaperHolds e p t ∧ ¬ q.waited ∧ frameFits e p t = false then
        (onPort p (fun x => { x with egress := x.egress.set c { q with waited := true } }) e).count
          Reg.TSCHED_GATE_WAITS 1
      else e) d

/-- The class that R451 selects: the eligible head frame with the lowest tag, equal tags the lower TC. -/
def selectClass (d : Dev) (p : Nat) : Option Nat :=
  let x := portOf d p
  ((List.range 7).map (· + 1)).foldl (fun acc c =>
    let q := egressOf x c
    match q.frames with
    | [] => acc
    | t :: _ =>
      if q.isOpen && shaperHolds d p t && frameFits d p t then
        match acc with
        | none => some c
        | some a => if q.tag < (egressOf x a).tag then some c else some a
      else acc) none

/-- FRAME_TX_SELECT (R450, R451): an UP or DEGRADED port starts the eligible TC0 frame, or when it is free the
selected frame of TC1-TC7. A TC0 frame may start between flits of a frame on the wire (R434). -/
def frameTxSelect (p : Nat) (d : Dev) : Dev :=
  if ¬ portUp d p then d
  else
    let d1 := admitAll p (refreshOpen p d)
    let x := portOf d1 p
    let busy := decide (d1.clock * 10000 < x.freeAt)
    if (egressOf x 0).frames ≠ [] ∧ (busy = false ∨ x.curTc ≠ 0) then startFrame p 0 d1
    else if busy then d1
    else
      let d2 := countWaits p d1
      match selectClass d2 p with
      | some c => startFrame p c d2
      | none => d2

/-! ### Flits received -/

/-- An ACK releases the flits it covers (R438). -/
def ackPort (p ack : Nat) (d : Dev) : Dev :=
  let x := portOf d p
  match x.replay.findIdx? fun f => f.seq == ack with
  | some i => flushAll p (setPort p { x with replay := x.replay.drop (i + 1) } d)
  | none => d

/-- Send a NAK that names the first sequence lacking (R438). -/
def sendNak (p : Nat) (d : Dev) : Dev := d.emit (.flit p 3 (portOf d p).rxNext)

/-- What every received flit does: it is counted, its FEC corrections are recorded, and a flit that fails
its CRC or whose codeword cannot be corrected is answered with NAK (R433, R438, R620). -/
def flitIn (p : Nat) (f : Flit) (k : Dev → Dev) (d : Dev) : Dev :=
  if ¬ portUp d p then d
  else
    let d1 := d.count (Reg.FAB_RX_FLITS p) 1
    let d2 := if f.corrected = 0 then d1
      else logCorrected ecLinkLane (0x30 + p) 0xFFFF 0 false (d1.count (Reg.FAB_FEC_CORR p) f.corrected)
    if f.fecOk = false then sendNak p (d2.count (Reg.FAB_FEC_UNCORR p) 1)
    else if f.crcOk = false then sendNak p d2
    else k (ackPort p f.ack d2)

/-- DATA_FLIT_RX (R432, R434, R438): the flit in sequence joins its class's frame; a gap is answered with NAK;
a flit received before is dropped. -/
def dataFlitRx (p : Nat) (f : Flit) (d : Dev) : Dev :=
  flitIn p f (fun e =>
    let x := portOf e p
    if f.seq ≠ x.rxNext then (if (f.seq + 4096 - x.rxNext) % 4096 < 2048 then sendNak p e else e)
    else
      let old := if f.first then none else assocGet x.assembly f.tc
      let a : Assembly := match old with
        | some a => a
        | none => ⟨f.keySlot, []⟩
      let a1 : Assembly := { a with parts := a.parts ++ [(f.seq, f.bytes)] }
      let y := { x with
        rxNext := (x.rxNext + 1) % 4096
        owed := x.owed.set f.tc ((x.owed[f.tc]?).getD 0 + 1) }
      setPort p (if f.last then { y with
          assembly := y.assembly.filter fun z => z.1 != f.tc
          assembled := y.assembled ++ [⟨f.tc, a1.parts.map (·.1)⟩] }
        else { y with assembly := assocSet y.assembly f.tc a1 }) e) d

/-- IDLE_FLIT_RX (R438). -/
def idleFlitRx (p : Nat) (f : Flit) (d : Dev) : Dev := flitIn p f (fun e => e) d

/-- Buffer size of a class in flits (R441). -/
def bufferFlits (c : Nat) : Nat := if c = 0 then 256 else 1024

/-- CREDIT_FLIT_RX (R432, R441): eight credit returns, one per class; no class holds more than its buffer. -/
def creditFlitRx (p : Nat) (f : Flit) (d : Dev) : Dev :=
  flitIn p f (fun e => flushAll p (onPort p (fun x => { x with
    credits := x.credits.mapIdx fun c v => min (bufferFlits c) (v + fieldAt f.bytes (2 * c) 2) }) e)) d

/-- Frames queued or unacknowledged on a port that leaves UP or DEGRADED are discarded (R463). -/
def dropFrames (p : Nat) (d : Dev) : Dev :=
  onPort p (fun x => { x with
    replay := []
    sendTc0 := []
    sendBulk := []
    egress := x.egress.map fun e => { e with
      frames := []
      waited := false }
    inject := []
    held := []
    assembly := []
    assembled := []
    calLane := none
    freeAt := 0
    curTc := 0
    curOver := false }) d

/-- A port enters DOWN with a reason (R436). -/
def portDown (p reason : Nat) (d : Dev) : Dev :=
  let d1 := onPort p (fun x => { x with downAt := d.clock }) (dropFrames p d)
  peersRecheck (((d1.set (Reg.PORT_STATE p) psDown).set (Reg.DOWN_REASON p) reason).set (Reg.LANE_ACTIVE p) 0)

/-- A port enters TRAINING (R436, R437): a fresh salt is drawn and sent in TRAIN flits (R446). -/
def portTrain (p : Nat) (d : Dev) : Dev :=
  let was := d.get (Reg.PORT_STATE p)
  let (i, d0) := d.fresh
  let d1 := onPort p (fun x => { x with
    trainAt := d.clock
    txSalt := Config.random i % two64
    txCount := 0
    nakRun := 0 }) (dropFrames p d0)
  let d2 := if was = psDisabled then d1 else d1.count (Reg.FAB_RETRAINS p) 1
  let d3 := ((((d2.set (Reg.PORT_STATE p) psTraining).set (Reg.DOWN_REASON p) 0).set (Reg.LANE_ACTIVE p) 0).set
    (Reg.LANE_FAILED p) 0).set (Reg.PEER_VALID p) 0
  peersRecheck (d3.emit (.flit p 5 0))

/-- A port enters DISABLED (R436). -/
def portDisable (p : Nat) (d : Dev) : Dev :=
  peersRecheck (((((dropFrames p d).set (Reg.PORT_STATE p) psDisabled).set (Reg.DOWN_REASON p) 0).set
    (Reg.LANE_ACTIVE p) 0).set (Reg.PEER_VALID p) 0)

/-- NAK_FLIT_RX (R438, R439): replay from the named sequence; the eighth NAK in a row of one sequence takes the
port DOWN with RETRY_LIMIT. -/
def nakFlitRx (p : Nat) (f : Flit) (d : Dev) : Dev :=
  flitIn p f (fun e =>
    let x := portOf e p
    let s := fieldAt f.bytes 0 2 % 4096
    let run := if x.nakRun ≠ 0 ∧ x.nakSeq = s then x.nakRun + 1 else 1
    let e1 := setPort p { x with
      nakSeq := s
      nakRun := run } e
    if 8 ≤ run then portDown p 5 e1
    else
      let again := x.replay.dropWhile fun g => g.seq != s
      ((e1.count (Reg.FAB_RETRY p) 1).count (Reg.FAB_TX_FLITS p) again.length).emits
        (again.map fun g => Out.flit p 0 g.seq)) d

/-- SALT_FLIT_RX (R446): the sender's new salt; its frame counter starts again. -/
def saltFlitRx (p : Nat) (f : Flit) (d : Dev) : Dev :=
  flitIn p f (fun e => onPort p (fun x => { x with
    rxSalt := fieldAt f.bytes 0 8
    rxCount := 0 }) e) d

/-- A port cannot use its keys: KEY_SLOT or KEY_NEXT names an empty or a retired fabric slot, or the rings are disabled
(R437, R607, R613). -/
def keyUnusable (d : Dev) (p : Nat) : Bool :=
  d.sec.keysOff || [d.get (Reg.KEY_SLOT p), d.get (Reg.KEY_NEXT p)].any fun k =>
    !bitAt (d.get Reg.SEC_FABRIC_PRESENT) k || bitAt (d.get Reg.SEC_FABRIC_RETIRED) k

/-- TRAIN_FLIT_RX (R437 step 5, R444): in TRAINING the exchange, which fails when the peer answers disabled or
names another key slot; on a port that carries data, a calibration boundary, which is answered. -/
def trainFlitRx (p : Nat) (_ : Flit) (i : TrainInfo) (d : Dev) : Dev :=
  if d.get (Reg.PORT_STATE p) = psTraining then
    if i.disabled then portDown p 6 d
    else if i.keySlot ≠ d.get (Reg.KEY_SLOT p) ∧ i.keySlot ≠ d.get (Reg.KEY_NEXT p) then portDown p 3 d
    else if keyUnusable d p then portDown p 3 d
    else
      (((onPort p (fun x => { x with
        rxSalt := i.salt
        rxCount := 0 }) d).set (Reg.PEER_MODULE p) i.peerModule).set (Reg.PEER_PORT p) i.peerPort).set
        (Reg.PEER_VALID p) 1
  else if portUp d p ∧ i.boundary then (d.count (Reg.FAB_RX_FLITS p) 1).emit (.flit p 5 0)
  else d

/-- SALT_ROLL (R446): a frame counter has reached 2^31. -/
def saltRollDue (p : Nat) (d : Dev) : Dev :=
  if portUp d p ∧ 2 ^ 31 ≤ (portOf d p).txCount then saltRoll p d else d

/-! ### Bring-up -/

/-- PORT_RETRAIN (R436, R464): a write of 1 moves an enabled port to TRAINING. -/
def portRetrain (p : Nat) (d : Dev) : Dev :=
  if p < 16 ∧ d.get (Reg.PORT_EN p) = 1 then portTrain p d else d

/-- PORT_EN_WRITE (R436, R464): a write of the port's control word. -/
def portEnWrite (p word : Nat) (d : Dev) : Dev :=
  if 16 ≤ p then d
  else
    let was := d.get (Reg.PORT_EN p)
    let en := word % 2
    let d1 := ((d.set (Reg.PORT_EN p) en).set (Reg.KEY_SLOT p) (bitsOf word 8 4)).set (Reg.KEY_NEXT p)
      (bitsOf word 12 4)
    if en = 0 then (if was = 0 then d1 else portDisable p d1)
    else if was = 0 ∨ bitAt word 1 then portTrain p d1
    else d1

/-- Limit of a training step in ns (R437). -/
def trainLimit (step : Nat) : Nat := if step = 2 then 30000000 else 1000000

/-- TRAINING_STEP_TIMEOUT (R437): a step has exceeded its limit. Steps 1 and 3 fail when fewer than 4 lanes
detect or work. A step 5 that ends without any answer has no reason in the table: the reason is a free value. -/
def trainingStepTimeout (p step lanes : Nat) (d : Dev) : Dev :=
  if d.get (Reg.PORT_STATE p) = psTraining ∧ (portOf d p).trainAt + trainLimit step ≤ d.clock then
    match step with
    | 1 => if lanes < 4 then portDown p 1 d else d
    | 2 => portDown p 2 d
    | 3 => if lanes < 4 then portDown p 4 d else d
    | 4 => portDown p 2 d
    | 5 =>
      let (i, d1) := d.fresh
      portDown p (Config.freeNat i % 8) d1
    | _ => d
  else d

/-- The lowest `n` lanes of a mask. -/
def lowestLanes (n mask : Nat) : Nat :=
  ((((List.range 9).filter fun i => bitAt mask i).take n).map fun i => 2 ^ i).sum

/-- Lanes in a mask. -/
def laneCount (mask : Nat) : Nat := ((List.range 9).filter fun i => bitAt mask i).length

/-- TRAINING_COMPLETE (R436, R437): 8 working lanes give UP, 4 to 7 give DEGRADED, fewer fail step 3. -/
def trainingComplete (p working : Nat) (d : Dev) : Dev :=
  if p < 16 ∧ d.get (Reg.PORT_STATE p) = psTraining then
    let n := laneCount working
    if n < 4 then portDown p 4 d
    else
      let d1 := onPort p (fun x => { x with
        working := working % 512
        txSeq := 0
        rxNext := 0
        txCount := 0
        rxCount := 0
        credits := (List.range 8).map bufferFlits
        owed := List.replicate 8 0
        nakRun := 0 }) d
      ((d1.set (Reg.PORT_STATE p) (if 8 ≤ n then psUp else psDegraded)).set (Reg.LANE_ACTIVE p)
        (lowestLanes (if 8 ≤ n then 8 else 4) working)).set (Reg.LANE_FAILED p) 0
  else d

/-- PORT_DOWN_RETRY (R436): 100 ms after entry to DOWN the port trains again. -/
def portDownRetry (p : Nat) (d : Dev) : Dev :=
  if p < 16 ∧ d.get (Reg.PORT_STATE p) = psDown ∧ (portOf d p).downAt + 100000000 ≤ d.clock then portTrain p d
  else d

/-! ### Lanes -/

/-- The calibrated lane returns to service from the spare (R444). -/
def calibrationBack (p lane spare : Nat) (d : Dev) : Dev :=
  let a := d.get (Reg.LANE_ACTIVE p)
  onPort p (fun x => { x with calLane := none })
    (if spare = lane then d else d.set (Reg.LANE_ACTIVE p) (setBit (setBit a spare false) lane true))

/-- A lane of a port that carries data fails (R442, R443, R463, R623). -/
def laneFail (p lane : Nat) (d0 : Dev) : Dev :=
  if p < 16 ∧ lane < 9 ∧ portUp d0 p ∧ bitAt (d0.get (Reg.LANE_FAILED p)) lane = false then
    let d1 := match (portOf d0 p).calLane with
      | some (c, sp) => if c = lane then onPort p (fun x => { x with calLane := none }) d0
          else (calibrationBack p c sp d0).count (Reg.FAB_CAL_SKIPPED p) 1
      | none => d0
    let d2 := logError clsUnit ecLinkLane (0x30 + p) lane 0 0 0 false
      (d1.set (Reg.LANE_FAILED p) (setBit (d1.get (Reg.LANE_FAILED p)) lane true))
    let w := setBit (portOf d2 p).working lane false
    let d3 := onPort p (fun x => { x with working := w }) d2
    let a := d3.get (Reg.LANE_ACTIVE p)
    if ¬ bitAt a lane then d3
    else
      match (List.range 9).find? fun i => bitAt w i && !bitAt a i with
      | some s =>
        unitSpared (0x30 + p) lane
          ((d3.set (Reg.LANE_ACTIVE p) (setBit (setBit a lane false) s true)).count (Reg.FAB_LANE_SWAPS p) 1)
      | none => portDown p 4 (unitDegraded (0x30 + p) lane d3)
  else d0

/-- LANE_SER_LIMIT (R442): corrected symbols of a lane in 1 ms exceed the limit. -/
def laneSerLimit (p lane symbols : Nat) (d : Dev) : Dev :=
  if d.get (Reg.LANE_SER_LIMIT p) < symbols then laneFail p lane d else d

/-- A lane calibration (R444): the lane goes to the spare; when the spare is in use or the port is DEGRADED,
the request completes without calibrating. -/
def laneCalibration (p lane : Nat) (d : Dev) : Dev :=
  if p < 16 ∧ lane < 9 ∧ portUp d p then
    let a := d.get (Reg.LANE_ACTIVE p)
    let w := (portOf d p).working
    let spare := (List.range 9).find? fun i => bitAt w i && !bitAt a i
    if d.get (Reg.PORT_STATE p) = psDegraded ∨ (portOf d p).calLane.isSome then d.count (Reg.FAB_CAL_SKIPPED p) 1
    else
      match spare with
      | none => d.count (Reg.FAB_CAL_SKIPPED p) 1
      | some s =>
        let d1 := fun sp => (onPort p (fun x => { x with calLane := some (lane, sp) }) d).emit (.flit p 5 0)
        if bitAt a lane then (d1 s).set (Reg.LANE_ACTIVE p) (setBit (setBit a lane false) s true) else d1 lane
  else d

/-- LANE_CALIBRATION_DONE (R444): a SELFTEST that asked for it completes (R631). -/
def laneCalibrationDone (p lane : Nat) (d : Dev) : Dev :=
  match (portOf d p).calLane with
  | some (l, s) =>
    if l = lane then
      let d1 := (calibrationBack p l s d).count Reg.RAS_SELFTESTS 1
      match d1.tick.maint.find? fun r => r.kind == 2 && r.unit == p && r.sub == lane && r.placed.isNone with
      | none => d1
      | some r =>
        let d2 := { d1 with tick := { d1.tick with maint := d1.tick.maint.erase r } }
        match r.cmd with
        | some m => complete m stSuccess 0 0 [] d2
        | none => d2
    else d
  | none => d

/-! ### Link keys and buckets -/

/-- KEY_SWITCH (R448): at KEY_SWITCH_AT, KEY_SLOT takes the value of KEY_NEXT. -/
def keySwitch (p : Nat) (d : Dev) : Dev :=
  if p < 16 ∧ d.get (Reg.KEY_SWITCH_AT p) ≠ 0 ∧ d.get (Reg.KEY_SWITCH_AT p) ≤ d.now
      ∧ ¬ passedBy d (d.get (Reg.KEY_SWITCH_AT p)) then
    ((onPort p (fun x => { x with prevKey := some (d.get (Reg.KEY_SLOT p), d.clock) }) d).set (Reg.KEY_SLOT p)
      (d.get (Reg.KEY_NEXT p))).set (Reg.KEY_SWITCH_AT p) 0
  else d

/-- KEY_PREV_EXPIRE (R448): 100 us after the switch. -/
def keyPrevExpire (p : Nat) (d : Dev) : Dev :=
  match (portOf d p).prevKey with
  | some (_, t) => if t + 100000 ≤ d.clock then onPort p (fun x => { x with prevKey := none }) d else d
  | none => d

/-- A receiver accepts frames under this slot (R448). -/
def keyAccepted (d : Dev) (p key : Nat) : Bool :=
  key == d.get (Reg.KEY_SLOT p)
  || (d.get (Reg.KEY_SWITCH_AT p) != 0 && key == d.get (Reg.KEY_NEXT p))
  || (match (portOf d p).prevKey with
      | some (k, t) => key == k && decide (d.clock < t + 100000)
      | none => false)

/-- The capacity of a bucket: KiB, below 72 acting as 72 (R452, R453). -/
def burstBytes (kib : Nat) : Nat := max 72 kib * 1024

/-- One refill of the buckets of a port (R452, R453) and a new interval of TC0 injection (R454): what was
injected beyond the measure counts against the next interval. -/
def refillPort (p : Nat) (d : Dev) : Dev :=
  let ns := clampNat 100 100000 (d.get Reg.TSCHED_REFILL_NS)
  let gain := fun rate => rate * ns / 10
  onPort p (fun x => { x with
    shaper := x.shaper.mapIdx fun i v =>
      min (burstBytes (d.get (Reg.SHAPE_BURST p (i + 1)))) (v + gain (d.get (Reg.SHAPE_RATE p (i + 1))))
    policer := x.policer.mapIdx fun i v =>
      min (burstBytes (d.get (Reg.POLICE_BURST p (i + 1)))) (v + gain (d.get (Reg.POLICE_RATE p (i + 1))))
    injected := x.injected - injectLimit d }) d

/-- TOKEN_BUCKET_REFILL (R452-R454): every TSCHED_REFILL_NS, on every port. -/
def tokenBucketRefill (d : Dev) : Dev :=
  if d.link.refillAt + clampNat 100 100000 (d.get Reg.TSCHED_REFILL_NS) ≤ d.clock then
    forAll (List.range 16) (fun p e => admitAll p (refillPort p e))
      (setLink { d.link with refillAt := d.clock } d)
  else d

/-- A policer measures a reassembled frame once (R453): false when the frame is discarded. -/
def policerPass (p : Nat) (t : FabTxn) (d : Dev) : Bool × Dev :=
  if t.tc = 0 ∨ d.get (Reg.POLICE_RATE p t.tc) = 0 then (true, d)
  else
    let x := portOf d p
    let b := (x.policer[t.tc - 1]?).getD 0
    if b < frameLen t then (false, d.count (Reg.FAB_POLICE_DROP p) 1)
    else (true, setPort p { x with policer := x.policer.set (t.tc - 1) (b - frameLen t) } d)

/-- The oldest reassembled frame of a class leaves the receive buffer, and its credits return (R441). -/
def takeAssembled (p tc : Nat) (d : Dev) : Dev :=
  let x := portOf d p
  match x.assembled.find? fun a => a.tc == tc with
  | none => d
  | some a => (setPort p { x with
      assembled := x.assembled.erase a
      owed := x.owed.set tc 0
      rxCount := x.rxCount + 1 } d).emit (.flit p 2 0)

/-- A frame whose tag does not verify is discarded and answered with NAK for its first flit; what was
received after that flit is received again (R438, R447). -/
def gcmFail (p tc : Nat) (d : Dev) : Dev :=
  let x := portOf d p
  let d1 := d.count (Reg.FAB_GCM_FAIL p) 1
  match x.assembled.find? fun a => a.tc == tc with
  | none => sendNak p d1
  | some a =>
    match a.seqs with
    | [] => sendNak p d1
    | s :: _ =>
      let after := fun q => decide ((q + 4096 - s) % 4096 < 2048)
      sendNak p (setPort p { x with
        rxNext := s
        assembled := (x.assembled.erase a).filter fun b => !(b.seqs.any after)
        assembly := (x.assembly.map fun z => (z.1, { z.2 with parts := z.2.parts.filter fun w => !after w.1 })).filter
          fun z => z.2.parts != [] } d1)

end Sys2Proof.Machine
end

