-- ==== Sys2Proof/Machine/FabSend.lean ====
section
/-! DEFINITION. Global addresses, and sending fabric transactions and messages (spec/12: R391, R401-R405). -/

namespace Sys2Proof.Machine

open Sys2Proof

/-- Spaces of a global address (R391). -/
def spExport : Nat := 0
def spPush : Nat := 1
def spFlash : Nat := 2
def spControl : Nat := 3

/-- A global address (R391). -/
def globalAddr (space module_ off : Nat) : Nat := space * 2 ^ 62 + module_ * 2 ^ 52 + off

/-- Fields of a global address (R391). -/
def addrSpace (a : Nat) : Nat := a / 2 ^ 62 % 4
def addrModule (a : Nat) : Nat := a / 2 ^ 52 % 1024
def addrOffset (a : Nat) : Nat := a % 2 ^ 52

/-- Operations (R403). -/
def opRead : Nat := 0x01
def opAlloc : Nat := 0x02
def opPlace : Nat := 0x03
def opSeal : Nat := 0x04
def opFree : Nat := 0x05
def opPushOpen : Nat := 0x06
def opPushData : Nat := 0x07
def opPushClose : Nat := 0x08
def opNmOp : Nat := 0x09
def opPattn : Nat := 0x0A
def opCollective : Nat := 0x0B
def opControl : Nat := 0x0C
def opProbe : Nat := 0x0D

/-- Completion status values (R403). -/
def fsOk : Nat := 0
def fsAddrInvalid : Nat := 1
def fsDenied : Nat := 2
def fsNoSpace : Nat := 3
def fsFenced : Nat := 4
def fsReadError : Nat := 5
def fsMalformed : Nat := 6

/-- FAB_TXN_TIMEOUT_US and FAB_PEER_TIMEOUT_US in force (R429). -/
def txnTimeoutUs (d : Dev) : Nat := clampNat 100 10000 (d.get Reg.FAB_TXN_TIMEOUT_US)
def peerTimeoutUs (d : Dev) : Nat := clampNat 500 60000 (d.get Reg.FAB_PEER_TIMEOUT_US)

/-- A destination and class wait for earlier transactions that left by another port set (R401). -/
def orderHeld (d : Dev) (dst tc : Nat) : Bool :=
  d.fab.txns.any fun o => !o.late && o.txn.dst == dst && o.txn.tc == tc && o.ports != portSet d dst

/-- Hand a transaction to the port part it leaves by (R401). -/
def launchTxn (t : FabTxn) (d : Dev) : Dev :=
  match exitPort d t.dst t.tc with
  | some p => portSend p t (d.count Reg.FAB_TXN_SENT 1)
  | none => d.count Reg.FAB_TXN_SENT 1

/-- Send a request that awaits a completion, or hold it until the port set's change has drained (R401,
R405). -/
def sendReq (use : TxnUse) (t : FabTxn) (d : Dev) : Dev :=
  let o : TxnOut := ⟨t, d.clock, portSet d t.dst, use, false⟩
  if orderHeld d t.dst t.tc ∨ d.fab.waiting.any (fun w => w.txn.dst == t.dst && w.txn.tc == t.tc) then
    setFab { d.fab with waiting := d.fab.waiting ++ [o] } d
  else launchTxn t (setFab { d.fab with txns := d.fab.txns ++ [o] } d)

/-- Transactions that waited for a port set's change go when nothing earlier is left (R401). -/
def releaseReqs (fuel : Nat) (d : Dev) : Dev :=
  match fuel with
  | 0 => d
  | k + 1 =>
    match d.fab.waiting.find? fun w => !orderHeld d w.txn.dst w.txn.tc with
    | none => d
    | some w =>
      releaseReqs k (launchTxn w.txn (setFab { d.fab with
        waiting := d.fab.waiting.erase w
        txns := d.fab.txns ++ [{ w with
          at_ := d.clock
          ports := portSet d w.txn.dst }] } d))

/-- A request of this module with a new TAG. -/
def mkTxn (d : Dev) (op tc addr arg keySlot : Nat) (payload : Bytes) : FabTxn :=
  { op := op
    tc := tc
    hops := routeHops d (addrModule addr)
    src := d.self
    dst := addrModule addr
    keySlot := keySlot
    status := 0
    tag := d.fab.nextTag % 2 ^ 32
    len := payload.length
    addr := addr
    arg := arg
    resv := false
    payload := payload }

/-- Send a new request. -/
def request (use : TxnUse) (op tc addr arg keySlot : Nat) (payload : Bytes) (d : Dev) : Dev :=
  sendReq use (mkTxn d op tc addr arg keySlot payload) (setFab { d.fab with nextTag := d.fab.nextTag + 1 } d)

/-- Answer a request (R402): OP + 0x80, the request's TAG and class. -/
def respond (t : FabTxn) (status arg : Nat) (payload : Bytes) (d : Dev) : Dev :=
  launchTxn { t with
    op := t.op + 0x80
    src := d.self
    dst := t.src
    hops := routeHops d t.src
    status := status
    len := payload.length
    arg := arg
    resv := false
    payload := payload } d

/-- Outstanding requests of the TAG and their removal. -/
def takeReq (tag src : Nat) (d : Dev) : Option TxnOut × Dev :=
  match d.fab.txns.find? fun o => o.txn.tag == tag && o.txn.dst == src with
  | none => (none, d)
  | some o =>
    let d1 := setFab { d.fab with txns := d.fab.txns.erase o } d
    (some o, releaseReqs d1.fab.waiting.length d1)

/-- The control endpoint of a message (R391); messages of the attention and collective operations name
none. -/
def msgEndpoint (m : Msg) : Nat :=
  match m with
  | .forward _ _ _ _ => 1
  | .completion _ _ _ _ _ => 1
  | .beacon _ _ _ => 2
  | .announce _ _ _ => 3
  | .vote _ _ => 4
  | .regionPin _ _ _ => 6
  | .load _ _ _ _ => 8
  | .loadConfirm _ _ _ => 8
  | .loadNoRoom _ _ _ => 8
  | .tokens _ _ => 1
  | .capture _ => 3
  | .shardVote _ _ => 4
  | .restore _ => 1
  | .migrate _ _ => 1
  | .pattnRequest _ _ _ => 0
  | .pattnResponse _ => 0
  | .layerPartial _ _ _ _ _ => 0
  | .layerShard _ _ _ _ _ => 0
  | .peerList _ _ _ => 0
  | .remainder _ => 0

/-- A collective message travels in TC1 without a completion, a control message in TC0 (R403). -/
def msgCollective (m : Msg) : Bool :=
  match m with
  | .layerPartial _ _ _ _ _ => true
  | .layerShard _ _ _ _ _ => true
  | .peerList _ _ _ => true
  | .remainder _ => true
  | _ => false

/-- Send a message to another module (R391, R403). A control message but a tick beacon awaits a
completion. -/
def sendMsg (dst : Nat) (m : Msg) (d : Dev) : Dev :=
  let (i, d1) := d.fresh
  let body := (Config.msgBytes i).take 1024
  let coll := msgCollective m
  let t := mkTxn d1 (if coll then opCollective else opControl) (if coll then 1 else 0)
    (globalAddr spControl dst (msgEndpoint m)) 0 0 body
  let d2 := setFab { d1.fab with nextTag := d1.fab.nextTag + 1 } (d1.emit (.msg dst m))
  match m with
  | .beacon _ _ _ => launchTxn t d2
  | .load k h mo _ => sendReq (.load k h mo) t d2
  | _ => if coll then launchTxn t d2 else sendReq .control t d2

/-- Send a message to each of some modules. -/
def sendAll (dsts : List Nat) (m : Msg) (d : Dev) : Dev := forAll dsts (fun k e => sendMsg k m e) d

end Sys2Proof.Machine
end

