-- ==== Sys2Proof/Machine/Attention.lean ====
section
/-! DEFINITION. Scores, visibility, the exact partial, its merge and output, and the backward pass of
attention (spec/06). -/

namespace Sys2Proof.Machine

open Sys2Proof

/-- A layer attention record (R205). `reserved` is true when a reserved byte is not 0. -/
structure AttnRec where
  scoreScale : Nat
  maskKind : Nat
  ropeMode : Nat
  outFormat : Nat
  ropeDims : Nat
  window : Nat
  sink : Nat
  maskHandle : Nat
  reserved : Bool
  deriving DecidableEq, Repr

/-- Decode the 32 bytes of a layer attention record (R205). -/
def attnRecOf (b : Bytes) : AttnRec :=
  { scoreScale := fieldAt b 0 4, maskKind := byteAt b 4, ropeMode := byteAt b 5,
    outFormat := byteAt b 6, ropeDims := fieldAt b 8 2, window := fieldAt b 12 4,
    sink := fieldAt b 16 4, maskHandle := fieldAt b 24 8,
    reserved := decide (byteAt b 7 ≠ 0 ∨ fieldAt b 10 2 ≠ 0 ∨ fieldAt b 20 4 ≠ 0) }

/-- SCORE_SCALE is positive and finite (R205). -/
def scaleOk (v : Nat) : Bool :=
  decide (v < 2 ^ 31 ∧ v / 2 ^ 23 % 256 ≠ 0 ∧ v / 2 ^ 23 % 256 ≠ 255)

/-- The conditions of R205 on a record, for head dimension `d`. -/
def attnRecOk (r : AttnRec) (d : Nat) : Bool :=
  !r.reserved && decide (r.maskKind ≤ 2) && decide (r.ropeMode ≤ 2) && decide (r.outFormat ≤ 1)
  && (if r.ropeMode = 0 then decide (r.ropeDims = 0)
      else decide (r.ropeDims % 2 = 0 ∧ 2 ≤ r.ropeDims ∧ r.ropeDims ≤ d))
  && decide (r.window ≤ 2 ^ 24) && decide (r.sink ≤ 2 ^ 24)
  && !(decide (r.maskKind = 1) && decide (r.window = 0))
  && (decide (r.maskKind = 2) || decide (r.maskHandle = 0)) && scaleOk r.scoreScale

/-- Visibility of key position `k` to query position `q` (R206): the first rule that applies. `tile` is
the tile bit of the two tiles. -/
def visible (maskKind window sink q k : Nat) (tile : Bool) : Bool :=
  if q < k then false
  else if k = q then true
  else if k < sink then true
  else if maskKind = 0 then true
  else if maskKind = 1 then decide (q - k < window)
  else if k / 16 = q / 16 then true
  else tile && (decide (window = 0) || decide (q - k < window))

/-- The tile bit of a mask object (R207). -/
def tileBit (mask : Bytes) (r c : Nat) : Bool :=
  if fieldAt mask 0 4 ≤ r then true else
    let i := r * (r + 1) / 2 + c
    bitAt (byteAt mask (16 + i / 8)) (i % 8)

/-- A block vector: for each block of 32, its scale byte and its elements in units of 2^unitExp. -/
abbrev BlockVec := List (Nat × List Int)

/-- Read a row of `d` elements and `d`/32 scales of a block format (R168, R232, R233). -/
def blockVec (f : Fmt) (elems : List Nat) (scales : List Nat) : BlockVec :=
  scales.mapIdx fun j x =>
    (x, ((elems.drop (32 * j)).take 32).map fun v => if x = 255 then 0 else (elemUnits f v).1)

/-- Exact dot product of a B8 query row with a key row (R203, R204). -/
def dotExact (fk : Fmt) (q k : BlockVec) : Dy :=
  dySum ((q.zip k).map fun p =>
    ⟨((p.1.2.zip p.2.2).foldl (fun a z => a + z.1 * z.2) 0),
      -9 + unitExp fk + (p.1.1 : Int) + (p.2.1 : Int) - 254⟩)

/-- The score S of R204 and whether it saturated. -/
def score (scale : Nat) (fk : Fmt) (q k : BlockVec) : Int × Bool :=
  let s := dyRne (dyMul (dyMul (dotExact fk q k) (fp32Val scale)) ⟨256, 0⟩) 0
  if 6143 < s then (6143, true) else if s < -6144 then (-6144, true) else (s, false)

/-- A value element with scale `x` as fixed point with 16 fractional bits in 32 bits (R211). -/
def fixedV (f : Fmt) (x : Nat) (u : Int) : Int × Bool :=
  let t := dyTrunc ⟨u, unitExp f + (x : Int) - 127⟩ (-16)
  if (2 ^ 31 - 1 : Int) < t then (2 ^ 31 - 1, true)
  else if t < -(2 ^ 31 - 1 : Int) then (-(2 ^ 31 - 1), true)
  else (t, false)

/-- A partial row (R212). -/
structure Partial where
  m : Int
  l : Int
  o : List Int
  keys : Nat
  empty : Bool
  deriving DecidableEq, Repr

/-- The empty partial of a row. -/
def partialNone (d : Nat) : Partial := ⟨0, 0, List.replicate d 0, 0, true⟩

/-- ⌈S / 256⌉. -/
def scoreRef (s : Int) : Int := -((-s) / 256)

/-- Arithmetic shift right (R213). -/
def sar (x : Int) (n : Nat) : Int := x / (2 ^ n : Nat)

/-- One visible key of score `s` with values `v` enters a row (R213). -/
def addKey (r : Partial) (s : Int) (v : List Int) : Partial :=
  let mk := scoreRef s
  let r0 : Partial := if r.empty then ⟨mk, 0, v.map (fun _ => 0), r.keys, false⟩ else r
  let r1 : Partial :=
    if r0.m < mk then
      { r0 with
        m := mk
        l := sar r0.l (mk - r0.m).toNat
        o := r0.o.map fun x => sar x (mk - r0.m).toNat }
    else r0
  let x := s - 256 * r1.m
  let t : Int := (exp2At (x % 256).toNat : Nat)
  let sh := (x / 256 + 48).toNat
  { r1 with
    l := r1.l + t * (2 ^ sh : Nat)
    o := (r1.o.zip v).map fun p => p.1 + t * p.2 * (2 ^ sh : Nat)
    keys := r1.keys + 1 }

/-- Merge two partials of one row (R215). -/
def mergePartial (a b : Partial) : Partial :=
  if a.empty then b
  else if b.empty then a
  else
    let m := max a.m b.m
    { m := m
      l := sar a.l (m - a.m).toNat + sar b.l (m - b.m).toNat
      o := (a.o.zip b.o).map fun p => sar p.1 (m - a.m).toNat + sar p.2 (m - b.m).toNat
      keys := a.keys + b.keys
      empty := false }

/-- The output of a merged row in OUT_FORMAT 0 (FP32) or 1 (BF16) (R216). -/
def partialOut (outFormat : Nat) (r : Partial) : List Nat :=
  r.o.map fun o => (roundFloat (if outFormat = 0 then 23 else 7) o (r.l.toNat * 2 ^ 16)).1

/-- A partial row record (R223). -/
def partialBytes (d : Nat) (r : Partial) : Bytes :=
  if r.empty then le 2 0 ++ le 1 1 ++ le 1 0 ++ le 4 r.keys ++ zeros (24 + 16 * d)
  else le 2 (twos 16 r.m) ++ le 2 0 ++ le 4 r.keys ++ zeros 8 ++ le 16 (twos 128 r.l)
    ++ r.o.flatMap fun o => le 16 (twos 128 o)

/-- Read a partial row record (R223). -/
def partialOf (d : Nat) (b : Bytes) : Partial :=
  if bitAt (byteAt b 2) 0 then partialNone d
  else
    { m := signedOf 16 (fieldAt b 0 2)
      l := signedOf 128 (fieldAt b 16 16)
      o := (List.range d).map fun i => signedOf 128 (fieldAt b (32 + 16 * i) 16)
      keys := fieldAt b 4 4
      empty := false }

/-- One key of a page as a pass reads it: its position, key row, and value row in fixed point. -/
structure KeyRow where
  pos : Nat
  key : BlockVec
  vals : List Int
  vsat : Nat
  deriving DecidableEq, Repr

/-- A query row: its position and its B8 row (R203). -/
structure QueryRow where
  pos : Nat
  head : Nat
  vec : BlockVec
  deriving DecidableEq, Repr

/-- One row of a pass over `keys` (R204-R213): the partial and the number of saturated scores. -/
def passRow (rec : AttnRec) (fk : Fmt) (d : Nat) (tile : Nat → Nat → Bool) (q : QueryRow)
    (keys : List KeyRow) : Partial × Nat :=
  keys.foldl (fun st k =>
    if visible rec.maskKind rec.window rec.sink q.pos k.pos (tile (q.pos / 16) (k.pos / 16)) then
      let s := score rec.scoreScale fk q.vec k.key
      (addKey st.1 s.1 k.vals, st.2 + if s.2 then 1 else 0)
    else st) (partialNone d, 0)

/-- The keys a pass reads (R200): those in a 16-token tile that holds a key visible to some row. -/
def keysRead (rec : AttnRec) (tile : Nat → Nat → Bool) (qpos : List Nat) (kpos : List Nat) : List Nat :=
  let vis := kpos.filter fun k => qpos.any fun q =>
    visible rec.maskKind rec.window rec.sink q k (tile (q / 16) (k / 16))
  kpos.filter fun k => vis.any fun v => v / 16 == k / 16

/-- One plane of a page of capacity `t` with `h` heads of `d` dimensions (R168): the key row and the value
row of token slot `i` and head `hd`, from the plane's bytes. -/
def planeKey (f : Fmt) (t h d : Nat) (plane : Bytes) (i hd pos : Nat) : KeyRow :=
  let eb := fmtBits f
  let region := t * h * d * eb / 8
  let first := (i * h + hd) * d
  let nib := fun base j => if eb = 4
    then byteAt plane (base + (first + j) / 2) / 16 ^ ((first + j) % 2) % 16
    else byteAt plane (base + first + j)
  let sc := fun base j => byteAt plane (base + (i * h + hd) * (d / 32) + j)
  let ks := (List.range (d / 32)).map (sc (2 * region))
  let vs := (List.range (d / 32)).map (sc (2 * region + t * h * d / 32))
  let kv := blockVec f ((List.range d).map (nib 0)) ks
  let vv := blockVec f ((List.range d).map (nib region)) vs
  let fx := vv.flatMap fun p => p.2.map fun u => fixedV f p.1 u
  { pos := pos, key := kv, vals := fx.map (·.1), vsat := (fx.filter (·.2)).length }

/-- Rotation of one pair (R210): x and y are FP32 encodings, as are the table entries. -/
def rotatePair (ch sh cl sl x y : Nat) : Nat × Nat :=
  let neg : Dy → Dy := fun d => ⟨-d.m, d.e⟩
  let mul := fun a b => dyMul (fp32Val a) (fp32Val b)
  let c := rne32 (dyAdd (mul ch cl) (neg (mul sh sl)))
  let s := rne32 (dyAdd (mul sh cl) (mul ch sl))
  (rne32 (dyAdd (mul x c) (neg (mul y s))), rne32 (dyAdd (mul x s) (mul y c)))

/-- The rotation turned back, for gradients (R228). -/
def rotateBack (c s x2 y2 : Nat) : Nat × Nat :=
  let neg : Dy → Dy := fun d => ⟨-d.m, d.e⟩
  let mul := fun a b => dyMul (fp32Val a) (fp32Val b)
  (rne32 (dyAdd (mul x2 c) (mul y2 s)), rne32 (dyAdd (mul y2 c) (neg (mul x2 s))))

/-- Row statistics record of a training forward pass (R226). -/
def rowStats (r : Partial) : Bytes := le 2 (twos 16 r.m) ++ le 2 0 ++ zeros 12 ++ le 16 (twos 128 r.l)

/-- Negation of an exact number. -/
def dyNeg (d : Dy) : Dy := ⟨-d.m, d.e⟩

/-- An exact dot product of two FP32 rows (R228). -/
def dotFp32 (a b : List Nat) : Dy := dySum ((a.zip b).map fun p => dyMul (fp32Val p.1) (fp32Val p.2))

/-- num / (L * 2^-63) rounded once to FP32 (R228). -/
def divL (num : Dy) (l : Int) : Nat :=
  let e := num.e + 63
  if 0 ≤ e then (roundFloat 23 (num.m * pow2 e) l.toNat).1
  else (roundFloat 23 num.m (l.toNat * 2 ^ (-e).toNat)).1

/-- 2^(s - M) as R213 forms it, relative to a saved M (R228). -/
def probOf (s m : Int) : Dy :=
  let x := s - 256 * m
  ⟨(exp2At (x % 256).toNat : Nat), x / 256 - 15⟩

/-- A query row of a backward pass: the query row, its saved M and L, the upstream gradient and the kept
output, in FP32 (R226, R228). -/
structure BackRow where
  q : QueryRow
  m : Int
  l : Int
  g : List Nat
  y : List Nat
  deriving DecidableEq, Repr

/-- delta of R228. -/
def backDelta (r : BackRow) : Nat := rne32 (dotFp32 r.g r.y)

/-- ds of R228 for one row and one visible key. -/
def backDs (rec : AttnRec) (fk : Fmt) (r : BackRow) (k : KeyRow) : Nat :=
  let s := score rec.scoreScale fk r.q.vec k.key
  if s.2 then 0
  else
    let dp := dySum ((r.g.zip k.vals).map fun z => dyMul (fp32Val z.1) ⟨z.2, -16⟩)
    let diff := dyAdd dp (dyNeg (fp32Val (backDelta r)))
    divL (dyMul (dyMul (probOf s.1 r.m) diff) (fp32Val 0x3F317218)) r.l

/-- The exact values of a block row. -/
def blockValues (f : Fmt) (v : BlockVec) : List Dy :=
  v.flatMap fun p => p.2.map fun u => ⟨u, unitExp f + (p.1 : Int) - 127⟩

/-- Element-wise exact sum of rows. -/
def rowAdd (a b : List Dy) : List Dy := (a.zip b).map fun p => dyAdd p.1 p.2

/-- One row of R228 against its visible keys: dq, and for each key its dk and dv contribution. -/
def backRow (rec : AttnRec) (fk : Fmt) (tile : Nat → Nat → Bool) (r : BackRow) (keys : List KeyRow) :
    List Dy × List (List Dy × List Dy) :=
  let h := r.g.map fun g => divL (fp32Val g) r.l
  let per := keys.map fun k =>
    if visible rec.maskKind rec.window rec.sink r.q.pos k.pos (tile (r.q.pos / 16) (k.pos / 16)) then
      let w := dyMul (fp32Val (backDs rec fk r k)) (fp32Val rec.scoreScale)
      let p := probOf (score rec.scoreScale fk r.q.vec k.key).1 r.m
      ((blockValues fk k.key).map (dyMul w), (blockValues .b8 r.q.vec).map (dyMul w),
        h.map fun x => dyMul p (fp32Val x))
    else ([], [], [])
  (per.foldl (fun a t => if t.1 = [] then a else if a = [] then t.1 else rowAdd a t.1) [],
    per.map fun t => (t.2.1, t.2.2))

/-- The three gradients of a backward pass, rounded once to FP32 (R228): dq per row, dk and dv per key. -/
def backward (rec : AttnRec) (fk : Fmt) (tile : Nat → Nat → Bool) (rows : List BackRow)
    (keys : List KeyRow) : List (List Nat) × List (List Nat × List Nat) :=
  let res := rows.map fun r => backRow rec fk tile r keys
  let add := fun (a b : List Dy) => if b = [] then a else if a = [] then b else rowAdd a b
  let kv := keys.mapIdx fun j _ =>
    res.foldl (fun acc r =>
      let z := r.2.getD j ([], [])
      (add acc.1 z.1, add acc.2 z.2)) ([], [])
  (res.map fun r => r.1.map rne32, kv.map fun z => (z.1.map rne32, z.2.map rne32))

end Sys2Proof.Machine
end

