-- ==== Sys2Proof/Machine/ModelImage.lean ====
section
/-! DEFINITION. Slice images of models: header, tensor directory, regions and slicing conditions
(R205, R209, R242, R247-R250, R681, R682). -/

namespace Sys2Proof.Machine

open Sys2Proof

/-- The slice image header (R247). -/
structure ImageHdr where
  layers : Nat
  hidden : Nat
  qHeads : Nat
  kvHeads : Nat
  headDim : Nat
  ffnDim : Nat
  vocab : Nat
  kvFormat : Nat
  group : Nat
  slice : Nat
  ffnKind : Nat
  handle : Nat
  attnOff : Nat
  ropeOff : Nat
  dirOff : Nat
  members : List Nat
  deriving DecidableEq, Repr

/-- Decode the 256 bytes of R247. -/
def imageHdrOf (b : Bytes) : ImageHdr :=
  { layers := fieldAt b 6 2, hidden := fieldAt b 8 4, qHeads := fieldAt b 12 2,
    kvHeads := fieldAt b 14 2, headDim := fieldAt b 16 2, ffnDim := fieldAt b 18 4,
    vocab := fieldAt b 22 4, kvFormat := byteAt b 26, group := byteAt b 27, slice := byteAt b 28,
    ffnKind := byteAt b 29, handle := fieldAt b 32 8, attnOff := fieldAt b 40 8,
    ropeOff := fieldAt b 48 8, dirOff := fieldAt b 56 8,
    members := ((List.range 32).map fun k => fieldAt b (64 + 2 * k) 2).take (byteAt b 27) }

/-- Reserved bytes of the header are 0, and entries at or beyond g are 0 (R247). -/
def imageReservedOk (b : Bytes) : Bool :=
  decide (fieldAt b 30 2 = 0) && allZero ((b.drop 128).take 128)
  && (List.range 32).all fun k =>
    if byteAt b 27 ≤ k then decide (fieldAt b (64 + 2 * k) 2 = 0)
    else decide (fieldAt b (64 + 2 * k) 2 < 1024)

/-- Field ranges of R247. -/
def imageRangesOk (h : ImageHdr) : Bool :=
  decide (1 ≤ h.layers ∧ h.layers ≤ 1024 ∧ 1 ≤ h.hidden ∧ h.hidden ≤ 65536 ∧ h.hidden % 32 = 0)
  && decide (1 ≤ h.qHeads ∧ 1 ≤ h.kvHeads)
  && decide (h.headDim % 32 = 0 ∧ 32 ≤ h.headDim ∧ h.headDim ≤ 256)
  && decide (1 ≤ h.ffnDim ∧ 1 ≤ h.vocab ∧ h.vocab ≤ 1048576)
  && decide (h.kvFormat ≤ 1 ∧ h.ffnKind ≤ 1)
  && decide (1 ≤ h.group ∧ h.group ≤ 32 ∧ h.slice < h.group)

/-- The shapes of R242: the contraction lengths of the output and down projections. -/
def imageShapesOk (h : ImageHdr) : Bool :=
  decide (h.hidden ≤ 1048576 ∧ h.qHeads * h.headDim ≤ 1048576 ∧ h.ffnDim ≤ 1048576)

/-- The slicing conditions of R250. -/
def imageSlicingOk (h : ImageHdr) : Bool :=
  decide (h.qHeads % h.group = 0)
  && (decide (h.kvHeads % h.group = 0) || decide (h.group % h.kvHeads = 0))
  && decide (h.ffnDim % (32 * h.group) = 0 ∧ h.vocab % h.group = 0 ∧ h.hidden % h.group = 0)

/-- KV heads that slice i holds (R250): first and count. -/
def sliceKv (h : ImageHdr) : Nat × Nat :=
  if h.group ≤ h.kvHeads then (h.slice * h.kvHeads / h.group, h.kvHeads / h.group)
  else (h.slice * h.kvHeads / h.group, 1)

/-- Query heads of slice i: first and count (R250). -/
def sliceQ (h : ImageHdr) : Nat × Nat := (h.slice * h.qHeads / h.group, h.qHeads / h.group)

/-- The KV head of query head `q` (R250). -/
def kvOfQ (h : ImageHdr) (q : Nat) : Nat := q * h.kvHeads / h.qHeads

/-- One tensor directory entry (R681). -/
structure TensorEnt where
  kind : Nat
  layer : Nat
  format : Nat
  reserved : Nat
  rows : Nat
  cols : Nat
  off : Nat
  scaleOff : Nat
  deriving DecidableEq, Repr

/-- Decode one 32-byte entry (R681). -/
def tensorEntOf (b : Bytes) : TensorEnt :=
  { kind := fieldAt b 0 2, layer := fieldAt b 2 2, format := byteAt b 4, reserved := fieldAt b 5 3,
    rows := fieldAt b 8 4, cols := fieldAt b 12 4, off := fieldAt b 16 8, scaleOff := fieldAt b 24 8 }

/-- ROWS and COLS of a kind for a slice (R681). -/
def tensorShape (h : ImageHdr) (kind : Nat) : Option (Nat × Nat) :=
  let k := (sliceKv h).2
  match kind with
  | 0 => some (h.vocab, h.hidden)
  | 1 => some (1, h.hidden)
  | 2 => some (1, h.hidden)
  | 3 => some (1, h.hidden)
  | 4 => some (h.qHeads / h.group * h.headDim, h.hidden)
  | 5 => some (k * h.headDim, h.hidden)
  | 6 => some (k * h.headDim, h.hidden)
  | 7 => some (h.hidden, h.qHeads / h.group * h.headDim)
  | 8 => some (h.ffnDim / h.group, h.hidden)
  | 9 => some (h.ffnDim / h.group, h.hidden)
  | 10 => some (h.hidden, h.ffnDim / h.group)
  | 11 => some (h.vocab / h.group, h.hidden)
  | _ => none

/-- The tensors a slice holds, one entry each: kind and layer (R681). -/
def tensorList (h : ImageHdr) : List (Nat × Nat) :=
  [(0, 0xFFFF), (1, 0xFFFF), (11, 0xFFFF)] ++ (List.range h.layers).flatMap fun l =>
    ([2, 3, 4, 5, 6, 7, 9, 10] ++ (if h.ffnKind = 0 then [8] else [])).map fun k => (k, l)

/-- Bytes of a tensor's elements. -/
def tensorBytes (f : Fmt) (rows cols : Nat) : Nat := rows * (cols * fmtBits f / 8)

/-- One entry is well formed (R235, R681). -/
def tensorOk (h : ImageHdr) (e : TensorEnt) : Bool :=
  decide (e.reserved = 0)
  && (match fmtOfCode e.format, tensorShape h e.kind with
      | some f, some (r, c) =>
        decide (e.rows = r ∧ e.cols = c)
        && (match f with
            | .bf16 => decide (e.scaleOff = 0)
            | .fp32 => decide (e.scaleOff = 0)
            | _ => decide (c % 32 = 0))
      | _, _ => false)

/-- The directory of an image: its entries (R681). -/
def tensorDir (h : ImageHdr) (img : Bytes) : List TensorEnt :=
  (chunks (fieldAt img h.dirOff 4) 32 (img.drop (h.dirOff + 16))).map tensorEntOf

/-- The directory meets R681. -/
def tensorDirOk (h : ImageHdr) (img : Bytes) : Bool :=
  let es := tensorDir h img
  let want := tensorList h
  allZero ((img.drop (h.dirOff + 4)).take 12)
  && decide (fieldAt img h.dirOff 4 = want.length ∧ es.length = want.length)
  && es.all (tensorOk h)
  && want.all fun w => (es.filter fun e => (e.kind, e.layer) == w).length == 1

/-- The layer attention records of an image (R205). -/
def attnRecs (h : ImageHdr) (img : Bytes) : List AttnRec :=
  (chunks h.layers 32 (img.drop h.attnOff)).map attnRecOf

/-- The ROPE_DIMS of the rotating layers agree (R209), and R205 holds for every record. -/
def attnRecsOk (h : ImageHdr) (rs : List AttnRec) : Bool :=
  let dims := (rs.filter fun r => decide (r.ropeMode ≠ 0)).map fun r => r.ropeDims
  decide (rs.length = h.layers) && rs.all (fun r => attnRecOk r h.headDim)
  && dims.all fun d => decide (d = dims.headD 0)

/-- The rotary table's bytes (R209): 2 arrays of 4,096 rows of ROPE_DIMS/2 entries of 8 bytes; 0 if no
layer rotates. -/
def ropeBytes (rs : List AttnRec) : Nat :=
  let dims := (rs.filter fun r => decide (r.ropeMode ≠ 0)).map fun r => r.ropeDims
  2 * 4096 * (dims.headD 0 / 2) * 8

/-- The regions of an image: offset and length (R682). -/
def imageRegions (h : ImageHdr) (rs : List AttnRec) (es : List TensorEnt) : List (Nat × Nat) :=
  [(h.attnOff, 32 * h.layers), (h.dirOff, 16 + 32 * es.length)]
  ++ (if ropeBytes rs = 0 then [] else [(h.ropeOff, ropeBytes rs)])
  ++ es.flatMap fun e =>
    match fmtOfCode e.format with
    | some f =>
      [(e.off, tensorBytes f e.rows e.cols)] ++
        (match f with
         | .bf16 => []
         | .fp32 => []
         | _ => [(e.scaleOff, e.rows * (e.cols / 32))])
    | none => []

/-- Two ranges do not overlap. -/
def disjoint (a b : Nat × Nat) : Bool :=
  decide (a.1 + a.2 ≤ b.1) || decide (b.1 + b.2 ≤ a.1) || decide (a.2 = 0) || decide (b.2 = 0)

/-- No two ranges of a list overlap. -/
def allDisjoint (l : List (Nat × Nat)) : Bool :=
  match l with
  | [] => true
  | x :: r => r.all (disjoint x) && allDisjoint r

/-- R682 for an image of `len` bytes. -/
def imageRegionsOk (h : ImageHdr) (rs : List AttnRec) (es : List TensorEnt) (len : Nat) : Bool :=
  let regs := imageRegions h rs es
  regs.all (fun r => decide (256 ≤ r.1 ∧ r.1 + r.2 ≤ len)) && allDisjoint regs
  && (decide (ropeBytes rs ≠ 0) || decide (h.ropeOff = 0))

/-- The checks of R249 that the image alone decides, for the module numbered `self`: the header when it
passes. -/
def imageCheck (self : Nat) (img : Bytes) : Option ImageHdr :=
  let h := imageHdrOf img
  if fieldAt img 0 4 = 0x5A534D49 ∧ fieldAt img 4 2 = 1 ∧ imageReservedOk img ∧ imageRangesOk h
      ∧ attnRecsOk h (attnRecs h img) ∧ imageShapesOk h ∧ imageSlicingOk h ∧ tensorDirOk h img
      ∧ imageRegionsOk h (attnRecs h img) (tensorDir h img) img.length
      ∧ h.members.getD h.slice 1024 = self
  then some h else none

/-- Plane stride of a page of capacity `t` (R168): the plane size rounded up to 64 bytes. -/
def planeStride (t h d fmt : Nat) : Nat :=
  let e2 := if fmt = 0 then 2 else 1
  roundUp 64 (t * h * (d * e2 + d / 16))

/-- Bytes of a page of class `c` (R169). -/
def pageBytes (layers heads d fmt c : Nat) : Nat :=
  64 + 4 * 2 ^ c + layers * planeStride (2 ^ c) heads d fmt

/-- Bytes a page is allocated (R169): a short page exactly, a long page in whole 4 KiB. -/
def pageAlloc (layers heads d fmt c : Nat) : Nat :=
  if c = 4 then pageBytes layers heads d fmt c else roundUp 4096 (pageBytes layers heads d fmt c)

end Sys2Proof.Machine
end

