-- ==== Sys2Proof/Machine/Pool.lean ====
section
/-! DEFINITION. The T1 pool, and the objects that the Stairwell moves (spec/05, spec/11: R177, R346-R354, R683). -/

namespace Sys2Proof.Machine

open Sys2Proof

/-- Tier status codes (R387). -/
def stRangeAlign : Nat := 0x0300
def stRangeMapped : Nat := 0x0301
def stRangeUnmapped : Nat := 0x0302
def stRangePinned : Nat := 0x0303
def stRangeLost : Nat := 0x0304
def stTierFull : Nat := 0x0305
def stTierAbsent : Nat := 0x0306
def stModelInvalid : Nat := 0x0307
def stModelExists : Nat := 0x0308
def stModelInUse : Nat := 0x0309
def stPolicyInvalid : Nat := 0x030A
def stT3RegionInvalid : Nat := 0x030B

/-- Tier events (R388). -/
def evT1Low : Nat := 0x0380
def evDemoteNoroom : Nat := 0x0381
def evModelSourceLost : Nat := 0x0382

/-- Replace a group of the device's state. -/
def setKv (k : KvSt) (d : Dev) : Dev := { d with kv := k }
def setTier (t : TierSt) (d : Dev) : Dev := { d with tier := t }
def setSess (s : SessSt) (d : Dev) : Dev := { d with sess := s }
def setRun (r : RunSt) (d : Dev) : Dev := { d with run := r }
def setSamp (s : SampSt) (d : Dev) : Dev := { d with samp := s }
def setText (t : TextSt) (d : Dev) : Dev := { d with text := t }
def setHost (h : HostSt) (d : Dev) : Dev := { d with host := h }
def setTick (t : TickSt) (d : Dev) : Dev := { d with tick := t }
def setTime (t : TimeSt) (d : Dev) : Dev := { d with time := t }

/-! ### The T1 pool -/

/-- A partition's T1 quota allows `n` more bytes; 0 is no quota (R549). -/
def quotaRoom (d : Dev) (part n : Nat) : Bool :=
  decide (8 ≤ part) || d.get (Reg.PART_T1_QUOTA part) == 0
  || decide (d.get (Reg.PART_T1_USED part) + n ≤ d.get (Reg.PART_T1_QUOTA part))

/-- The pool has room for `n` bytes of a partition (R549, R683). -/
def poolRoom (d : Dev) (part n : Nat) : Bool := decide (n ≤ d.get Reg.STW_T1_FREE) && quotaRoom d part n

/-- Take bytes from the pool for a partition, 8 for none. -/
def poolTake (part n : Nat) (d : Dev) : Dev :=
  let d1 := d.set Reg.STW_T1_FREE (d.get Reg.STW_T1_FREE - n)
  if part < 8 then d1.set (Reg.PART_T1_USED part) (d1.get (Reg.PART_T1_USED part) + n) else d1

/-- Return bytes to the pool. -/
def poolGive (part n : Nat) (d : Dev) : Dev :=
  let d1 := d.set Reg.STW_T1_FREE (d.get Reg.STW_T1_FREE + n)
  if part < 8 then d1.set (Reg.PART_T1_USED part) (d1.get (Reg.PART_T1_USED part) - n) else d1

/-- Take bytes and choose an HBM address for them. -/
def poolAlloc (part n : Nat) (d : Dev) : Nat × Dev :=
  let (i, d1) := d.fresh
  (Config.hbmAddr i % 2 ^ 39, poolTake part n d1)

/-! ### Pages and granules -/

/-- No tier (R347). -/
def noTier : Nat := 0xFF

/-- Bytes of a range granule (R352). -/
def granuleBytes : Nat := 2097152

/-- A page by PAGE_ID. -/
def findPage (d : Dev) (id : Nat) : Option Page := d.kv.pages.find? fun p => p.id == id

/-- Put back a page. -/
def putPage (p : Page) (d : Dev) : Dev :=
  setKv { d.kv with pages := d.kv.pages.map fun x => if x.id == p.id then p else x } d

/-- A granule by partition and number; none while it is unmapped (R353). -/
def findGranule (d : Dev) (part idx : Nat) : Option Granule :=
  d.tier.granules.find? fun g => g.part == part && g.idx == idx

/-- Put back a granule. -/
def putGranule (g : Granule) (d : Dev) : Dev :=
  setTier { d.tier with granules := d.tier.granules.map fun x =>
    if x.part == g.part && x.idx == g.idx then g else x } d

/-- Bytes a page is allocated (R169). -/
def pageSize (p : Page) : Nat := pageAlloc p.layers p.heads p.headDim p.fmt p.cls

/-- The 64-byte page header (R169). -/
def pageHeader (p : Page) : Bytes :=
  le 8 p.id ++ le 1 p.cls ++ le 1 p.fmt ++ le 2 p.layers ++ le 2 p.heads ++ le 2 p.headDim ++ le 4 p.firstPos
  ++ le 2 p.valid ++ zeros 2 ++ le 4 p.epoch ++ le 4 (planeStride (2 ^ p.cls) p.heads p.headDim p.fmt)
  ++ le 8 p.model ++ zeros 24

/-- The bytes of a page: header, token array, planes (R169). Planes computed here are free: the forward pass
that makes them is not stated (log entry 8). -/
def pageImage (d : Dev) (p : Page) : Bytes :=
  let head := pageHeader p ++ padTo (4 * 2 ^ p.cls) ((p.tokens.map (le 4)).flatten)
  let content := ((d.tier.models.find? fun m => m.handle == p.model).map (·.content)).getD []
  head ++ padTo (pageSize p - head.length)
    (match p.planes with
     | some b => b
     | none => Config.planeBytes (unle content) p.profile p.firstPos (p.prior ++ p.tokens))

/-- What the Stairwell knows of an object: tier, location, backing copy, copies, bytes, and whose it is
(R177, R349, R354, R412). -/
structure ObjView where
  tier : Nat
  loc : Nat
  backTier : Nat
  backLoc : Nat
  copies : Nat
  copyIndex : Nat
  bytes : Nat
  part : Nat
  keySlot : Nat
  deriving DecidableEq, Repr

/-- The view of an object. Range granules are kept under their partition's key (R608). -/
def objView (d : Dev) (o : ObjRef) : Option ObjView :=
  match o with
  | .page id =>
    match findPage d id with
    | none => none
    | some p => some ⟨p.tier, p.loc, p.backTier, p.backLoc, p.copies, p.copyIndex, pageSize p, p.part, p.keySlot⟩
  | .granule part idx =>
    match findGranule d part idx with
    | none => none
    | some g => some ⟨g.tier, g.loc, g.backTier, g.backLoc, g.copies, g.copyIndex, granuleBytes, part,
        d.get (Reg.SEC_PART_KEY part)⟩

/-- Write tier, location, backing copy and copies of an object. -/
def setObj (o : ObjRef) (v : ObjView) (d : Dev) : Dev :=
  match o with
  | .page id =>
    match findPage d id with
    | none => d
    | some p => putPage { p with
        tier := v.tier
        loc := v.loc
        backTier := v.backTier
        backLoc := v.backLoc
        copies := v.copies
        copyIndex := v.copyIndex } d
  | .granule part idx =>
    match findGranule d part idx with
    | none => d
    | some g => putGranule { g with
        tier := v.tier
        loc := v.loc
        backTier := v.backTier
        backLoc := v.backLoc
        copies := v.copies
        copyIndex := v.copyIndex } d

/-- The bytes of an object. -/
def objBytes (d : Dev) (o : ObjRef) : Bytes :=
  match o with
  | .page id =>
    match findPage d id with
    | none => []
    | some p => pageImage d p
  | .granule part idx => readRange d part (idx * granuleBytes) granuleBytes

/-- Every object of the module. -/
def allObjs (d : Dev) : List ObjRef :=
  (d.kv.pages.map fun p => ObjRef.page p.id) ++ d.tier.granules.map fun g => ObjRef.granule g.part g.idx

/-! ### Copies -/

/-- Locations of the copies of an object in T2: copy 0, then those of its copy table entry (R412). -/
def copyLocs (d : Dev) (loc copies idx : Nat) : List Nat :=
  match d.fab.copytab.find? fun c => c.idx == idx with
  | some c => ([loc, c.copy1, c.copy2]).take copies
  | none => [loc]

/-- Send FREE for an extent of this module in another module (R403). -/
def sendFree (addr keySlot : Nat) (d : Dev) : Dev := request (.free none) opFree 4 addr 0 keySlot [] d

/-- Free what an object holds in a tier: its T1 bytes, its extents in T2, its flash run. -/
def freeCopy (tier loc copies idx : Nat) (v : ObjView) (d : Dev) : Dev :=
  match tier with
  | 1 => poolGive v.part v.bytes d
  | 2 => forAll (copyLocs d loc copies idx) (fun a e => sendFree a v.keySlot e) d
  | 4 =>
    let d1 := t4Free (loc / 16) d
    if copies = 2 then
      match d1.fab.copytab.find? fun c => c.idx == idx with
      | some c => sendFree c.copy1 v.keySlot d1
      | none => d1
    else d1
  | _ => d

/-- Free the backing copy of an object (R349, R350). -/
def dropBacking (o : ObjRef) (d : Dev) : Dev :=
  match objView d o with
  | none => d
  | some v =>
    if v.backTier = noTier then d
    else setObj o { v with
      backTier := noTier
      backLoc := 0
      copies := 1 } (freeCopy v.backTier v.backLoc v.copies v.copyIndex v d)

/-! ### Placement of copies in other modules (R411) -/

/-- A placement by number. -/
def findPlacing (d : Dev) (id : Nat) : Option Placing := d.fab.placing.find? fun p => p.id == id

/-- Put back a placement. -/
def putPlacing (p : Placing) (d : Dev) : Dev :=
  setFab { d.fab with placing := d.fab.placing.map fun x => if x.id == p.id then p else x } d

/-- Remove a placement. -/
def endPlacing (id : Nat) (d : Dev) : Dev :=
  setFab { d.fab with placing := d.fab.placing.filter fun x => x.id != id } d

/-- The pool list from the cursor on, wrapping (R411). -/
def poolFrom (d : Dev) : List Nat :=
  match d.fab.table with
  | none => []
  | some t => t.pool.drop (d.fab.cursor % max 1 t.pool.length) ++ t.pool.take (d.fab.cursor % max 1 t.pool.length)

/-- FDOM of a module (R398). -/
def fdomOf (d : Dev) (m : Nat) : Nat :=
  match routeEnt d m with
  | some e => e.fdom
  | none => 0

/-- A candidate owner: PRESENT and neither SUSPECT nor LOST; a FLASH copy needs FLASH_COPY (R411). -/
def candidate (d : Dev) (flash : Bool) (m : Nat) : Bool :=
  peerState d m == .present && modulePresent d m &&
  (!flash || match routeEnt d m with
    | some e => e.flashCopy
    | none => false)

/-- The next owner to try for a placement, and whether the FDOM condition is dropped (R411). -/
def nextOwner (d : Dev) (p : Placing) : Option (Nat × Bool) :=
  let used := p.got.map (·.1)
  let doms := fdomOf d d.self :: used.map (fdomOf d)
  let ok := fun m => candidate d p.flash m && !used.contains m && !p.tried.contains m
  let first := if p.anyDom then none else (poolFrom d).find? fun m => ok m && !doms.contains (fdomOf d m)
  match first with
  | some m => some (m, false)
  | none => ((poolFrom d).find? ok).map fun m => (m, true)

/-- FLAGS and TAG that an ALLOC carries in its payload (log entry 12). -/
def allocPayload (scratch shared : Bool) (tag : Nat) : Bytes :=
  le 1 ((if scratch then 1 else 0) + (if shared then 2 else 0)) ++ le 8 tag

/-- The allocator's name of an object (R394). -/
def placeTag (w : PlaceWhat) : Nat :=
  match w with
  | .demote (.page id) => id
  | .demote (.granule part idx) => part * 2 ^ 61 + idx * granuleBytes
  | .repair (.page id) => id
  | .repair (.granule part idx) => part * 2 ^ 61 + idx * granuleBytes
  | .put _ => 0
  | .ckpt model => model

/-- Send the ALLOC of a placement's next copy; false when no owner is left (R411). -/
def placeNext (id : Nat) (d : Dev) : Bool × Dev :=
  match findPlacing d id with
  | none => (true, d)
  | some p =>
    match nextOwner d p with
    | none => (false, d)
    | some (m, any) =>
      (true, request (.place id) opAlloc p.tc (globalAddr (if p.flash then spFlash else spExport) m 0)
        p.data.length p.keySlot (allocPayload p.scratch p.shared (placeTag p.what))
        (putPlacing { p with
          cur := some (m, none)
          anyDom := p.anyDom || any } d))

/-- Begin a placement of `need` copies; `first` names the owner of copy 0 when the command does (R426). -/
def placeStart (what : PlaceWhat) (need : Nat) (flash : Bool) (tc keySlot : Nat) (scratch shared : Bool)
    (data : Bytes) (first : Option Nat) (d : Dev) : Bool × Dev :=
  let id := d.fab.nextPlace
  let p : Placing := ⟨id, what, need, [], none, [], false, flash, tc, keySlot, scratch, shared, data⟩
  let d1 := setFab { d.fab with
    placing := d.fab.placing ++ [p]
    nextPlace := id + 1 } d
  match first with
  | none => placeNext id d1
  | some m =>
    (true, request (.place id) opAlloc tc (globalAddr (if flash then spFlash else spExport) m 0) data.length keySlot
      (allocPayload scratch shared (placeTag what)) (putPlacing { p with cur := some (m, none) } d1))

/-- The ALLOC of a placement succeeded: its bytes are placed and the extent sealed (R403, R404). -/
def placeAllocated (id addr : Nat) (d : Dev) : Dev :=
  match findPlacing d id with
  | none => d
  | some p =>
    match p.cur with
    | none => d
    | some (m, _) =>
      let pos := (poolFrom d).findIdx? (· == m)
      let cur := match pos with
        | some i => d.fab.cursor + i + 1
        | none => d.fab.cursor
      let cs := chunks (p.data.length + 1) 65536 p.data
      let d1 := setFab { d.fab with cursor := match d.fab.table with
        | some t => cur % max 1 t.pool.length
        | none => d.fab.cursor } d
      let d2 := (cs.zip (List.range cs.length)).foldl (fun e c =>
        request (.place id) opPlace p.tc (addr + 65536 * c.2) 0 p.keySlot c.1 e)
        (putPlacing { p with cur := some (m, some addr) } d1)
      request (.place id) opSeal p.tc addr 0 p.keySlot [] d2

/-- The owner a placement was trying cannot take its copy: the next one is tried (R411, R425). -/
def placeFailed (id : Nat) (d : Dev) : Bool × Dev :=
  match findPlacing d id with
  | none => (true, d)
  | some p =>
    match p.cur with
    | none => placeNext id d
    | some (m, _) => placeNext id (putPlacing { p with
        cur := none
        tried := m :: p.tried } d)

/-- A SEAL of a placement completed: the finished placement, if it was the last copy (R413). -/
def placeSealed (id : Nat) (d : Dev) : Option Placing × Bool × Dev :=
  match findPlacing d id with
  | none => (none, true, d)
  | some p =>
    match p.cur with
    | some (m, some a) =>
      let q := { p with
        got := p.got ++ [(m, a)]
        cur := none
        need := p.need - 1 }
      if q.need = 0 then (some q, true, endPlacing id d)
      else
        let r := placeNext id (putPlacing q d)
        (none, r.1, r.2)
    | _ => (none, true, d)

/-- Record the copies of an object: copy 0 in LOC, the others in a copy table entry (R412). -/
def recordCopies (got : List (Nat × Nat)) (d : Dev) : Nat × Nat × Nat × Dev :=
  let addrs := got.map (·.2)
  let loc := (addrs[0]?).getD 0
  if got.length ≤ 1 then (loc, max 1 got.length, 0, d)
  else
    let idx := 1 + (d.fab.copytab.map (·.idx)).foldl max 0
    (loc, got.length, idx, setFab { d.fab with copytab :=
      ⟨idx, (addrs[1]?).getD 0, (addrs[2]?).getD 0⟩ :: d.fab.copytab } d)

end Sys2Proof.Machine
end

