-- ==== Sys2Proof/Machine/Part.lean ====
section
/-! DEFINITION. Partitions, contexts, charging, rotation and placement (spec/17). -/

namespace Sys2Proof.Machine

open Sys2Proof

/-- Replace the partition state. -/
def setPart (p : PartSt) (d : Dev) : Dev := { d with part := p }

/-- A context; one that is not listed is as it was at reset (R551, R558). -/
def ctxOf (d : Dev) (part num : Nat) : Ctx :=
  match d.part.ctxs.find? fun c => c.part == part && c.num == num with
  | some c => c
  | none => ⟨part, num, false, 1, 0, 0, 0, 0, 0, 0, 0, 0, 0, 0, false, none⟩

/-- Put back a context. -/
def putCtx (c : Ctx) (d : Dev) : Dev :=
  setPart { d.part with ctxs := c :: d.part.ctxs.filter fun x => !(x.part == c.part && x.num == c.num) } d

/-- MIN_TICKS in force (R551). -/
def ctxMinTicks (c : Ctx) : Nat := if c.minTicks = 0 then 10 else c.minTicks

/-- The context record of R551 as stored. -/
def ctxRecord (c : Ctx) : Bytes :=
  le 1 (if c.bound then 1 else 0) ++ le 1 0 ++ le 2 c.share ++ le 4 c.quadSet ++ le 2 c.pinKib
  ++ le 2 c.minTicks ++ zeros 4 ++ le 8 c.estInit ++ zeros 40

/-- The accounting entry of R571. -/
def ctxAccount (c : Ctx) : Bytes :=
  le 8 c.charge ++ le 8 c.vt ++ le 8 c.est ++ le 8 c.steps ++ le 8 c.switchUnits ++ le 8 c.switches ++ zeros 16

/-- Quads in a mask. -/
def quadCount (mask : Nat) : Nat := ((List.range 32).filter fun q => bitAt mask q).length

/-- Logical Galleries of a quad mask (R24). -/
def quadGalleries (mask : Nat) : List Nat :=
  ((List.range 32).filter fun q => bitAt mask q).flatMap fun q => [4 * q, 4 * q + 1, 4 * q + 2, 4 * q + 3]

/-- The physical number of a logical Gallery (R23): the enabled ones in ascending order. -/
def galPhysical (d : Dev) (logical : Nat) : Option Nat := ((List.range 132).filter (galEnabled d))[logical]?

/-- Bytes of the save area of a BOUND context (R554). -/
def saveBytes (c : Ctx) : Nat := 4 * quadCount c.quadSet * (2097152 + c.pinKib * 1024)

/-- A session of the context has waiting work: it is ACTIVE with a turn. -/
def ctxHasWork (d : Dev) (part num : Nat) : Bool :=
  d.sess.descs.any fun x => x.part == part && x.context % 4096 == num && x.state == ssActive && x.turn.isSome

/-- Charge `u` units to a context (R558, R571, R573). -/
def chargeCtx (part num u : Nat) (d : Dev) : Dev :=
  let c := ctxOf d part num
  (putCtx { c with
    charge := min counterMax (c.charge + u)
    vt := (c.vt + u * 65536 / max 1 c.share) % two64 } d).count (Reg.PART_UNITS part) u

/-- What a context is charged in a clock on a Gallery counts for the step whose command it runs there (R559, log entry 20). -/
def chargeStep (k : SessKey) (u : Nat) (d : Dev) : Dev :=
  { d with run := { d.run with steps := d.run.steps.map fun s =>
      if s.key == k then { s with charge := s.charge + u } else s } }

/-- One clock of engine time (R556): on each Gallery with n contexts busy, each is charged 6 / n units; each
switch in progress charges its incoming context 6 units for each Gallery and counts its time (R566). -/
def chargeClock (d : Dev) : Dev :=
  let busy := d.part.running.filter fun r => decide (d.clock < r.until_)
  let d1 := forAll ((busy.map (·.gallery)).eraseDups) (fun g e =>
    let cs := ((busy.filter fun r => r.gallery == g).map fun r => (r.part, r.ctx)).eraseDups
    forAll cs (fun c e2 =>
      let u := 6 / cs.length
      let k := ((busy.find? fun r => r.gallery == g && r.part == c.1 && r.ctx == c.2).map (·.key)).getD ⟨0, 0⟩
      chargeStep k u (chargeCtx c.1 c.2 u e2)) e) (setPart { d.part with running := busy } d)
  forAll d.part.switches (fun s e =>
    let u := 6 * s.galleries
    let e1 := (chargeCtx s.part s.ctx u e).count (Reg.PART_SWITCH_NS s.part) 1
    let c := ctxOf e1 s.part s.ctx
    putCtx { c with switchUnits := min counterMax (c.switchUnits + u) } e1) d1

/-- EST after a commit whose step was charged `u` units (R559). -/
def estAfter (est u : Nat) : Nat := ((est : Int) + ((u : Int) - est) / 8).toNat

/-! ### Engines -/

/-- A context may run on a Gallery: a BOUND one only when its restore there is complete (R564). -/
def ctxReady (d : Dev) (c : EngCmd) : Bool :=
  !(d.part.switches.any fun s => s.part == c.part && s.ctx == c.ctx && s.left.contains c.gallery)

/-- The command a free engine takes: the first ready one of the context with the lowest VT, then the lower
partition, then the lower context (R561). -/
def nextEngCmd (d : Dev) (gallery : Nat) (e : Engine) : Option EngCmd :=
  (d.part.queue.filter fun c => c.gallery == gallery && c.engine == e && ctxReady d c).foldl
    (fun (acc : Option EngCmd) c =>
      match acc with
      | none => some c
      | some a =>
        let vc := (ctxOf d c.part c.ctx).vt
        let va := (ctxOf d a.part a.ctx).vt
        if vc < va ∨ (vc = va ∧ (c.part < a.part ∨ (c.part = a.part ∧ c.ctx < a.ctx))) then some c
        else some a) none

/-- ENGINE_DISPATCH (R561): a free engine takes its next command and is busy for `busy` clocks. -/
def engineDispatch (gallery : Nat) (e : Engine) (busy : Nat) (d : Dev) : Dev :=
  if d.part.running.any fun r => r.gallery == gallery && r.engine == e && decide (d.clock < r.until_) then d
  else
    match nextEngCmd d gallery e with
    | none => d
    | some c =>
      setPart { d.part with
        queue := d.part.queue.erase c
        running := ⟨gallery, e, c.part, c.ctx, c.key, d.clock + busy⟩ :: d.part.running } d

/-! ### PART_CONFIG (R547, R548) -/

/-- A slot is bound to the partition or a descriptor names it. -/
def partInUse (d : Dev) (p : Nat) : Bool :=
  (slotNumbers.any fun n => d.get (Reg.SLOT_STATE n) != 0 && d.get (Reg.SLOT_PART n) == p)
  || d.sess.descs.any fun x => x.part == p && x.state != ssFree

/-- The record breaks R548. -/
def partRecordBad (d : Dev) (p : Nat) (b : Bytes) : Bool :=
  let en := bitAt (byteAt b 0) 0
  let quads := fieldAt b 4 4
  let ctxs := fieldAt b 8 2
  let high := (d.sess.descs.filter fun x => x.part == p && x.state != ssFree).map fun x => x.context % 4096
  (en && quads == 0)
  || ((List.range 8).any fun o => o != p && d.get (Reg.PART_ENABLED o) == 1
        && Nat.land quads (d.get (Reg.PART_QUADS o)) != 0)
  || ((!en || quads == 0) && partInUse d p)
  || (d.part.ctxs.any fun c => c.part == p && c.bound && Nat.land c.quadSet quads != c.quadSet)
  || high.any (fun h => decide (ctxs < 1 + h))
  || !decide (1 ≤ ctxs ∧ ctxs ≤ 4096 ∧ 1 ≤ fieldAt b 10 2 ∧ fieldAt b 12 4 ≤ 16777216 ∧ fieldAt b 16 8 % 2097152 = 0)

/-- Reserved bits of the record (R547). -/
def partRecordReserved (b : Bytes) : Bool :=
  decide (2 ≤ byteAt b 0) || decide (fieldAt b 1 3 ≠ 0) || !allZero ((b.drop 24).take 40)

/-- Checks of PART_CONFIG at acceptance. -/
def partConfigChecks (_ : Dev) (m : Cmd) : List (Bool × Nat) :=
  [(decide (8 ≤ argAt m.c 48 1), stInvalidField), (partRecordReserved m.c.dataA, stReservedNonzero)]

/-- PART_CONFIG at the seal. -/
def partConfigApply (m : Cmd) (d : Dev) : Dev :=
  let p := argAt m.c 48 1
  let b := m.c.dataA
  guarded m [(partRecordBad d p b, stInvalidField)] (fun e =>
    complete m stSuccess 0 0 []
      ((((((e.set (Reg.PART_ENABLED p) (byteAt b 0 % 2)).set (Reg.PART_QUADS p) (fieldAt b 4 4)).set
        (Reg.PART_CONTEXTS p) (fieldAt b 8 2)).set (Reg.PART_WEIGHT p) (fieldAt b 10 2)).set
        (Reg.PART_DESC_QUOTA p) (fieldAt b 12 4)).set (Reg.PART_T1_QUOTA p) (fieldAt b 16 8))) d

/-! ### CTX_SET and CTX_QUERY (R551-R555) -/

/-- The record of CTX_SET breaks R551 or R553. -/
def ctxRecordBad (d : Dev) (p num : Nat) (b : Bytes) : Bool :=
  let bound := byteAt b 0 == 1
  let quads := fieldAt b 4 4
  let pin := fieldAt b 8 2
  decide (d.get (Reg.PART_CONTEXTS p) ≤ num) || decide (2 ≤ byteAt b 0)
  || decide (fieldAt b 2 2 = 0) || !decide (1 ≤ fieldAt b 16 8 ∧ fieldAt b 16 8 ≤ 2 ^ 40)
  || decide (pin % 64 ≠ 0 ∨ 1024 < pin)
  || (!bound && (quads != 0 || pin != 0))
  || (bound && (quads == 0 || Nat.land quads (d.get (Reg.PART_QUADS p)) != quads
       || d.part.ctxs.any fun c => c.part == p && c.num != num && c.bound && c.quadSet != quads
            && Nat.land c.quadSet quads != 0))

/-- Other changes than SHARE, MIN_TICKS and EST_INIT while state is saved or resident (R555). -/
def ctxLocked (d : Dev) (p num : Nat) (b : Bytes) : Bool :=
  let c := ctxOf d p num
  c.bound && (c.saved || c.residentAt.isSome) && !bitAt (byteAt b 1) 0
  && (byteAt b 0 != 1 || fieldAt b 4 4 != c.quadSet || fieldAt b 8 2 != c.pinKib)

/-- Reserved bits of the context record (R551). -/
def ctxRecordReserved (b : Bytes) : Bool :=
  decide (2 ≤ byteAt b 1) || decide (fieldAt b 12 4 ≠ 0) || !allZero ((b.drop 24).take 40)

/-- Clear what the registers say of a resident context (R552, R572, R665). -/
def clearResident (c : Ctx) (d : Dev) : Dev :=
  let d1 := d.set (Reg.PART_RESIDENT_MAP c.part)
    (Nat.land (d.get (Reg.PART_RESIDENT_MAP c.part)) (Nat.xor 0xFFFFFFFF c.quadSet))
  forAll ((quadGalleries c.quadSet).filterMap (galPhysical d)) (fun g e => e.set (Reg.GAL_RESIDENT_CTX g) 0) d1

/-- The transfers of a context that is no longer to be resident end. -/
def dropSwitch (part num : Nat) (d : Dev) : Dev :=
  setPart { d.part with switches := d.part.switches.filter fun s => !(s.part == part && s.ctx == num) } d

/-- Checks of CTX_SET at acceptance. -/
def ctxSetChecks (_ : Dev) (m : Cmd) : List (Bool × Nat) := [(ctxRecordReserved m.c.dataA, stReservedNonzero)]

/-- CTX_SET at the seal. -/
def ctxSetApply (m : Cmd) (d : Dev) : Dev :=
  let p := m.part
  let num := argAt m.c 48 2
  let b := m.c.dataA
  let c := ctxOf d p num
  let bound := byteAt b 0 == 1
  let release := bitAt (byteAt b 1) 0
  let quads := fieldAt b 4 4
  let pin := fieldAt b 8 2
  let hadArea := if c.bound then saveBytes c else 0
  let needArea := 4 * quadCount quads * (2097152 + pin * 1024)
  let keep := c.bound && bound && !release && c.quadSet == quads && c.pinKib == pin
  guarded m [(ctxRecordBad d p num b || ctxLocked d p num b, stInvalidField),
      (bound && !keep && !poolRoom (poolGive p hadArea d) p needArea, stTierFull)] (fun e =>
    let e1 := if c.residentAt.isSome && !keep then dropSwitch p num (clearResident c e) else e
    let e2 := if keep then e1 else poolGive p hadArea e1
    let e3 := if bound && !keep then poolTake p needArea e2 else e2
    complete m stSuccess 0 0 [] (putCtx { c with
      bound := bound
      share := fieldAt b 2 2
      quadSet := quads
      pinKib := pin
      minTicks := fieldAt b 10 2
      estInit := fieldAt b 16 8
      est := 6 * fieldAt b 16 8
      saved := if keep then c.saved else false
      residentAt := if keep then c.residentAt else none } e3)) d

/-- CTX_QUERY (R570, R571). -/
def ctxQueryChecks (d : Dev) (m : Cmd) : List (Bool × Nat) :=
  [(decide (d.get (Reg.PART_CONTEXTS m.part) ≤ argAt m.c 48 2), stInvalidField)]
def ctxQueryApply (m : Cmd) (d : Dev) : Dev :=
  let c := ctxOf d m.part (argAt m.c 48 2)
  complete m stSuccess c.vt 0 [(m.c.addrA, ctxRecord c ++ ctxAccount c)] d

/-! ### Rotation (R563, R564) -/

/-- The context that R563 chooses for a rotation group. -/
def rotationPick (d : Dev) (grp : List Ctx) : Option Ctx :=
  let work := grp.filter fun c => ctxHasWork d c.part c.num
  let best := work.foldl (fun (acc : Option Ctx) c =>
    match acc with
    | none => some c
    | some a => if c.vt < a.vt ∨ (c.vt = a.vt ∧ c.num < a.num) then some c else some a) none
  match grp.find? fun c => c.residentAt.isSome with
  | none => best
  | some inc =>
    match inc.residentAt with
    | some t =>
      if ctxHasWork d inc.part inc.num ∧ d.tick.fired < t + ctxMinTicks inc then some inc
      else match best with
        | some c => some c
        | none => some inc
    | none => best

/-- Switch the resident of a rotation group: the outgoing is saved, the incoming is restored Gallery by Gallery
(R564). A group without an available quad keeps its state as it is (R569). -/
def rotateGroup (part quads avail : Nat) (d : Dev) : Dev :=
  let grp := d.part.ctxs.filter fun c => c.part == part && c.bound && c.quadSet == quads
  if Nat.land quads avail = 0 then d
  else
    match rotationPick d grp with
    | none => d
    | some c =>
      if c.residentAt.isSome then d
      else
        let d1 := match grp.find? fun x => x.residentAt.isSome with
          | none => d
          | some o => dropSwitch part o.num (clearResident o (putCtx { o with
              saved := true
              residentAt := none } d))
        let gs := quadGalleries quads
        let d2 := putCtx { ctxOf d1 part c.num with
          residentAt := some d.tick.fired
          switches := min counterMax (c.switches + 1) } d1
        let d3 := (d2.set (Reg.PART_RESIDENT_MAP part) (Nat.lor (d2.get (Reg.PART_RESIDENT_MAP part)) quads)).count
          (Reg.PART_SWITCHES part) 1
        let d4 := forAll (gs.filterMap (galPhysical d)) (fun g e =>
          e.set (Reg.GAL_RESIDENT_CTX g) (4096 + c.num)) d3
        setPart { d4.part with switches := d4.part.switches ++ [⟨part, c.num, gs.length, gs⟩] } d4

/-- CONTEXT_ROTATION at the seal: every rotation group of every partition (R563). -/
def rotateAll (avail : Nat) (d : Dev) : Dev :=
  forAll (((d.part.ctxs.filter (·.bound)).map fun c => (c.part, c.quadSet)).eraseDups)
    (fun g e => rotateGroup g.1 g.2 avail e) d

/-- CONTEXT_RESTORE_DONE (R564): the restore on one Gallery is complete. -/
def contextRestoreDone (part num gallery : Nat) (d : Dev) : Dev :=
  let cleared := d.part.switches.map fun s =>
    if s.part == part && s.ctx == num then { s with left := s.left.filter fun g => g != gallery } else s
  setPart { d.part with switches := cleared.filter fun s => !s.left.isEmpty } d

/-- At each seal, a context without waiting work takes VT = max(VT, the lowest VT of its partition's contexts
that have work) (R558). -/
def levelVt (part : Nat) (d : Dev) : Dev :=
  let nums := ((d.sess.descs.filter fun x => x.part == part && x.state == ssActive && x.turn.isSome).map
    fun x => x.context % 4096).eraseDups
  match (nums.map fun n => (ctxOf d part n).vt).min? with
  | none => d
  | some lo =>
    forAll (d.part.ctxs.filter fun c => c.part == part && !nums.contains c.num)
      (fun c e => putCtx { ctxOf e c.part c.num with vt := max (ctxOf e c.part c.num).vt lo } e) d

end Sys2Proof.Machine
end

