-- ==== Sys2Proof/Machine/Extents.lean ====
section
/-! DEFINITION. The exported share of this module: extents, what a transaction may do to them, and near-memory operations
(spec/12: R391-R396, R403, R406-R408). -/

namespace Sys2Proof.Machine

open Sys2Proof

/-! ### Extents (R393, R394) -/

/-- Bytes of the export window (R393). -/
def exportBytes (d : Dev) : Nat := d.get Reg.FAB_EXPORT_GIB * 2 ^ 30

/-- Most entries of the extent table (R394). -/
def extentLimit : Nat := 1048576

/-- Where a byte of an extent is kept: FLASH space lies above the export window. -/
def extentKey (flash : Bool) (off : Nat) : Nat := if flash then 2 ^ 52 + off else off

/-- Record the entries and bytes in use (R429). -/
def extentSync (d : Dev) : Dev :=
  (d.set Reg.FAB_EXTENTS d.fab.extents.length).set Reg.FAB_EXPORT_USED
    (((d.fab.extents.filter fun x => !x.flash).map (·.len)).sum)

/-- The lowest free offset of the export window that fits `n` bytes (R394). -/
def exportFit (d : Dev) (n : Nat) : Option Nat :=
  let mine := d.fab.extents.filter fun x => !x.flash
  ((0 :: mine.map fun x => x.base + x.len).filter fun s =>
    decide (s + n ≤ exportBytes d) && mine.all fun x => decide (s + n ≤ x.base ∨ x.base + x.len ≤ s)).min?

/-- Allocate an extent (R394): its OFFSET, and the device. -/
def extentAlloc (flash : Bool) (allocator keySlot : Nat) (scratch shared : Bool) (tag len : Nat) (d : Dev) :
    Option Nat × Dev :=
  let n := roundUp 4096 len
  if extentLimit ≤ d.fab.extents.length then (none, d)
  else
    let r : Option Nat × Dev := if flash then
        if t4Room d n then
          match t4Alloc n d with
          | (some u, e) => (some (u * 65536), e)
          | (none, e) => (none, e)
        else (none, d)
      else (exportFit d n, d)
    match r with
    | (none, _) => (none, d)
    | (some off, e) =>
      (some off, extentSync (setFab { e.fab with
        extents := ⟨off, n, allocator, keySlot, false, scratch, shared, flash, tag⟩ :: e.fab.extents } e))

/-- The extent that holds a range, whole (R403). -/
def extentAt (d : Dev) (flash : Bool) (off len : Nat) : Option Extent :=
  d.fab.extents.find? fun x => x.flash == flash && decide (x.base ≤ off ∧ off + len ≤ x.base + x.len)

/-- The extent that starts at an offset. -/
def extentOf (d : Dev) (flash : Bool) (off : Nat) : Option Extent :=
  d.fab.extents.find? fun x => x.flash == flash && x.base == off

/-- Change an extent. -/
def putExtent (x : Extent) (d : Dev) : Dev :=
  setFab { d.fab with extents := d.fab.extents.map fun y => if y.flash == x.flash && y.base == x.base then x else y } d

/-- Free an extent; its bytes read as 0 when they are allocated again (log entry 6). -/
def extentFree (x : Extent) (d : Dev) : Dev :=
  let lo := extentKey x.flash x.base
  let d1 := setFab { d.fab with extents := d.fab.extents.filter fun y => !(y.flash == x.flash && y.base == x.base) } d
  let left := d1.mem.export_.filter fun c => !decide (lo ≤ c.1 ∧ c.1 < lo + x.len)
  let d2 := { d1 with mem := { d1.mem with export_ := left } }
  extentSync (if x.flash then t4Free (x.base / 65536) d2 else d2)

/-- Put sealed bytes into a new extent of this module's export window: its OFFSET, none without room. -/
def extentPut (keySlot : Nat) (scratch shared : Bool) (tag : Nat) (data : Bytes) (d : Dev) : Option Nat × Dev :=
  match extentAlloc false d.self keySlot scratch shared tag data.length d with
  | (none, _) => (none, d)
  | (some off, e) =>
    match extentOf e false off with
    | none => (none, d)
    | some x => (some off, putExtent { x with sealed := true } (writeExport off data e))

/-- Why a read of a range by a key slot fails (R395, R396, R403); 0 when it may be read. -/
def readStatus (d : Dev) (flash : Bool) (off len keySlot : Nat) : Nat :=
  match extentAt d flash off len with
  | none => fsAddrInvalid
  | some x => if x.keySlot ≠ keySlot ∨ ¬ x.sealed then fsDenied else fsOk

/-! ### Near-memory operations (R406-R408) -/

/-- Bytes of an element type (R406); 0 for a reserved code. -/
def nmSize (ty : Nat) : Nat :=
  match ty with
  | 0 => 8
  | 1 => 4
  | 2 => 2
  | 3 => 16
  | _ => 0

/-- Elements of a byte string. -/
def nmElems (ty : Nat) (b : Bytes) : List Nat := (chunks (b.length / nmSize ty) (nmSize ty) b).map unle

/-- What an element adds to a sum (R241, R407). -/
def nmAddend (ty v : Nat) : Int :=
  match ty with
  | 0 => signedOf 64 v
  | 1 => (contribution (fp32Val v)).1
  | 2 => (contribution (bf16Val v)).1
  | _ => signedOf 128 v

/-- The order of elements for MAX and MIN (R233, R407). -/
def nmRank (ty v : Nat) : Int :=
  match ty with
  | 0 => signedOf 64 v
  | 1 => fp32Rank v
  | 2 => fp32Rank (v * 65536)
  | _ => signedOf 128 v

/-- The value that MAX and MIN write (R233, R407). -/
def nmWritten (ty v : Nat) : Nat :=
  match ty with
  | 1 => rne32 (fp32Val v)
  | 2 => rneBf16 (bf16Val v)
  | _ => v

/-- The greater or smaller of two elements, the first where they are equal. -/
def nmPick (ty : Nat) (max_ : Bool) (a b : Nat) : Nat :=
  if (if max_ then decide (nmRank ty a < nmRank ty b) else decide (nmRank ty b < nmRank ty a)) then nmWritten ty b
  else nmWritten ty a

/-- One element of REDUCE_INTO: `w` is the target element and `v` the input (R407). -/
def nmInto (ty fn w v : Nat) : Nat :=
  match fn with
  | 0 => if ty = 0 then (w + v) % two64 else twos 128 (signedOf 128 w + nmAddend ty v)
  | 1 => nmPick ty true w v
  | _ => nmPick ty false w v

/-- Bytes of a target element of REDUCE_INTO (R407): an I64 or LACC accumulator, or the input's own type. -/
def nmTarget (ty fn : Nat) : Nat := if fn = 0 then (if ty = 0 then 8 else 16) else nmSize ty

/-- Type and function of a reduce are allowed together (R406, R407): BF16 is input only, and LACC is no input of a sum. -/
def nmAllowed (op ty fn : Nat) : Bool :=
  decide (ty ≤ 3 ∧ fn ≤ 2) && !(fn == 0 && ty == 3) && !(op == 5 && fn != 0 && ty == 2)

/-- Bytes that no rule states, by index (log entry 3). -/
def freeBytes (i n : Nat) : Bytes := (List.range n).map fun j => Config.freeByte (i * 65536 + j)

/-- The 16-byte result of REDUCE_RANGE (R406, R407); the bytes above a MAX or MIN are not stated. -/
def nmReduce (ty fn i : Nat) (es : List Nat) : Bytes :=
  if fn = 0 then le 16 (twos 128 ((es.map (nmAddend ty)).foldl (· + ·) 0))
  else
    match es with
    | [] => freeBytes i 16
    | e :: r => le (nmSize ty) (r.foldl (nmPick ty (fn == 1)) (nmWritten ty e)) ++ freeBytes i (16 - nmSize ty)

/-- Where two byte strings first differ (R406). -/
def firstDiff (a b : Bytes) : Nat := (((a.zip b).findIdx? fun p => p.1 != p.2).map id).getD 0xFFFFFFFFFFFFFFFF

/-- A global address in this module's EXPORT space: its OFFSET. -/
def ownExport (d : Dev) (a : Nat) : Option Nat :=
  if addrSpace a = spExport ∧ addrModule a = d.self then some (addrOffset a) else none

/-- The fields of an NM_OP are in range: length, alignment, and the reserved bytes of ARG (R406). -/
def nmFieldsOk (arg len off : Nat) (payload : Bytes) : Bool :=
  let op := arg % 256
  let ty := arg / 256 % 256
  let fn := arg / 65536 % 256
  decide (arg < 2 ^ 24) &&
  match op with
  | 0 => decide (len % 8 = 0 ∧ payload.length = 8)
  | 1 => decide (payload.length = 8)
  | 2 => decide (payload.length = 8)
  | 3 => decide (payload.length = 16 ∧ off % 8 = 0 ∧ len = 8)
  | 4 => nmAllowed 4 ty fn && decide (len % nmSize ty = 0)
  | 5 => nmAllowed 5 ty fn && decide (len % nmSize ty = 0 ∧ payload.length = len)
  | _ => false

/-- Bytes of the target that an NM_OP touches. -/
def nmSpan (arg len : Nat) : Nat :=
  let ty := arg / 256 % 256
  if arg % 256 = 5 then len / max 1 (nmSize ty) * nmTarget ty (arg / 65536 % 256) else len

/-- Why an NM_OP fails (R395, R396, R406); 0 when it runs. -/
def nmStatus (d : Dev) (arg len addr keySlot : Nat) (payload : Bytes) : Nat :=
  match ownExport d addr with
  | none => fsAddrInvalid
  | some off =>
    if ¬ nmFieldsOk arg len off payload then fsMalformed
    else
      let op := arg % 256
      let st := readStatus d false off (nmSpan arg len) keySlot
      let scratch := ((extentAt d false off (nmSpan arg len)).map (·.scratch)).getD false
      if st ≠ fsOk then st
      else if op ≠ 2 ∧ op ≠ 4 ∧ ¬ scratch then fsDenied
      else if op = 1 ∨ op = 2 then
        match ownExport d (fieldAt payload 0 8) with
        | none => fsAddrInvalid
        | some o2 => readStatus d false o2 len keySlot
      else fsOk

/-- An NM_OP that may run (R406-R408): what its completion carries, and the device. -/
def nmRun (arg len addr : Nat) (payload : Bytes) (d : Dev) : Bytes × Dev :=
  let off := addrOffset addr
  let op := arg % 256
  let ty := arg / 256 % 256
  let fn := arg / 65536 % 256
  let other := addrOffset (fieldAt payload 0 8)
  let d1 := (d.count Reg.NME_OPS 1).count Reg.NME_BYTES (nmSpan arg len)
  match op with
  | 0 => ([], writeExport off ((List.replicate (len / 8) payload).flatten) d1)
  | 1 => ([], writeExport off (readExport d1 other len) d1)
  | 2 => (le 8 (firstDiff (readExport d1 off len) (readExport d1 other len)), d1)
  | 3 =>
    let old := readExport d1 off 8
    (old, if old = payload.take 8 then writeExport off (payload.drop 8) d1 else d1)
  | 4 =>
    let (i, d2) := d1.fresh
    (nmReduce ty fn i (nmElems ty (readExport d2 off len)), d2)
  | _ =>
    let w := nmTarget ty fn
    let ins := nmElems ty payload
    let olds := (chunks ins.length w (readExport d1 off (ins.length * w))).map unle
    ([], writeExport off (((olds.zip ins).map fun p => le w (nmInto ty fn p.1 p.2)).flatten) d1)

/-- Answer a request, counting DENIED (R430). -/
def answer (t : FabTxn) (status arg : Nat) (payload : Bytes) (d : Dev) : Dev :=
  respond t status arg payload (when (status == fsDenied) (fun e => e.count Reg.NME_DENIED 1) d)

/-! ### The owner's side of a transaction (R391, R393-R396, R403, R404) -/

/-- The address is valid for a transfer against the exported share (R391, R403): its FLASH flag and OFFSET. -/
def shareAddr (d : Dev) (a : Nat) : Option (Bool × Nat) :=
  if addrModule a ≠ d.self then none
  else if addrSpace a = spExport ∧ addrOffset a < exportBytes d then some (false, addrOffset a)
  else if addrSpace a = spFlash ∧ ¬ d.isM0 then some (true, addrOffset a)
  else none

/-- READ (R403): ARG is the number of bytes (log entry 15). -/
def readRx (t : FabTxn) (d : Dev) : Dev :=
  match shareAddr d t.addr with
  | none => answer t fsAddrInvalid 0 [] d
  | some (fl, off) =>
    let st := readStatus d fl off t.arg t.keySlot
    let gone := fl && d.flash.lost.any fun u => decide (u * 65536 < off + t.arg ∧ off < u * 65536 + 65536)
    if t.resv ∨ 65536 < t.arg then answer t fsMalformed 0 [] d
    else if st ≠ fsOk then answer t st 0 [] d
    else if gone then answer t fsReadError 0 [] (d.count Reg.NME_READ_ERR 1)
    else answer t fsOk 0 (readExport d (extentKey fl off) t.arg) (d.count Reg.NME_BYTES t.arg)

/-- ALLOC (R394, R403): FLAGS and TAG lie in the payload (log entry 12). -/
def allocRx (t : FabTxn) (d : Dev) : Dev :=
  if t.resv ∨ t.arg = 0 ∨ 4 ≤ byteAt t.payload 0 then answer t fsMalformed 0 [] d
  else if addrModule t.addr ≠ d.self ∨ addrOffset t.addr ≠ 0
      ∨ ¬ (addrSpace t.addr = spExport ∨ (addrSpace t.addr = spFlash ∧ ¬ d.isM0)) then answer t fsAddrInvalid 0 [] d
  else
    let fl := addrSpace t.addr == spFlash
    match extentAlloc fl t.src t.keySlot (bitAt (byteAt t.payload 0) 0) (bitAt (byteAt t.payload 0) 1)
        (fieldAt t.payload 1 8) t.arg d with
    | (none, _) => answer t fsNoSpace 0 [] d
    | (some off, e) => answer t fsOk (globalAddr (addrSpace t.addr) d.self off) [] e

/-- PLACE (R395, R403): only the allocator writes, and only before the seal. -/
def placeRx (t : FabTxn) (d : Dev) : Dev :=
  match shareAddr d t.addr with
  | none => answer t fsAddrInvalid 0 [] d
  | some (fl, off) =>
    match extentAt d fl off t.payload.length with
    | none => answer t fsAddrInvalid 0 [] d
    | some x =>
      if t.resv ∨ 65536 < t.payload.length then answer t fsMalformed 0 [] d
      else if x.keySlot ≠ t.keySlot ∨ x.sealed ∨ x.allocator ≠ t.src then answer t fsDenied 0 [] d
      else answer t fsOk 0 [] ((writeExport (extentKey fl off) t.payload d).count Reg.NME_BYTES t.payload.length)

/-- SEAL (R394, R395, R403): a FLASH extent is sealed and answered once it is programmed. -/
def sealRx (t : FabTxn) (d : Dev) : Dev :=
  match shareAddr d t.addr with
  | none => answer t fsAddrInvalid 0 [] d
  | some (fl, off) =>
    match extentOf d fl off with
    | none => answer t fsAddrInvalid 0 [] d
    | some x =>
      if t.resv then answer t fsMalformed 0 [] d
      else if x.keySlot ≠ t.keySlot ∨ x.allocator ≠ t.src ∨ x.sealed then answer t fsDenied 0 [] d
      else if fl then
        flashWrite (.extent off) (off / 65536) (unitsOf x.len) x.len
          (setFab { d.fab with sealWait := d.fab.sealWait ++ [t] } d)
      else answer t fsOk 0 [] (putExtent { x with sealed := true } d)

/-- The programs of a FLASH extent are done: its SEAL completes (R403). -/
def sealProgrammed (off : Nat) (d : Dev) : Dev :=
  match d.fab.sealWait.find? fun t => addrOffset t.addr == off, extentOf d true off with
  | some t, some x =>
    answer t fsOk 0 [] (putExtent { x with sealed := true } (setFab { d.fab with
      sealWait := d.fab.sealWait.erase t } d))
  | _, _ => d

/-- FREE (R395, R403): by the allocator, or of a SHARED extent. -/
def freeRx (t : FabTxn) (d : Dev) : Dev :=
  match shareAddr d t.addr with
  | none => answer t fsAddrInvalid 0 [] d
  | some (fl, off) =>
    match extentOf d fl off with
    | none => answer t fsAddrInvalid 0 [] d
    | some x =>
      if t.resv then answer t fsMalformed 0 [] d
      else if x.keySlot ≠ t.keySlot ∨ ¬ (x.shared ∨ x.allocator = t.src) then answer t fsDenied 0 [] d
      else answer t fsOk 0 [] (extentFree x d)

/-- NM_OP (R403, R406): LEN is the length of the operation (log entry 16). -/
def nmOpRx (t : FabTxn) (d : Dev) : Dev :=
  let st := if t.resv then fsMalformed else nmStatus d t.arg t.len t.addr t.keySlot t.payload
  if st ≠ fsOk then answer t st 0 [] d
  else
    let (b, e) := nmRun t.arg t.len t.addr t.payload d
    answer t fsOk 0 b e

/-- PROBE (R391, R403, R421). -/
def probeRx (t : FabTxn) (d : Dev) : Dev :=
  if t.resv then answer t fsMalformed 0 [] d
  else if t.addr = globalAddr spControl d.self 5 then answer t fsOk 0 [] d
  else answer t fsAddrInvalid 0 [] d

/-- A TC0 transaction carries more than 1,024 bytes of payload (R435). -/
def tooLong (t : FabTxn) : Bool := t.tc == 0 && decide (1024 < t.payload.length)

/-- The transaction is addressed to this module, is not too long for its class, and its sender is not fenced: a LOST sender is
answered FENCED (R421, R435). -/
def fenced (f : FabTxn → Dev → Dev) (t : FabTxn) (d : Dev) : Dev :=
  if t.dst ≠ d.self then d
  else if tooLong t then d.count Reg.FAB_RX_MALFORMED 1
  else if peerState d t.src = .lost then respond t fsFenced 0 [] d
  else f t d

end Sys2Proof.Machine
end

