-- ==== Sys2Proof/Machine/Newel.lean ====
section
/-! DEFINITION. The Newel associative directory: hashing, placement, lookup with verification, updates and
the backing directory (spec/10). -/

namespace Sys2Proof.Machine

open Sys2Proof

/-- Tables: 0 is NT0 (sessions), 1 is NT1 (prefixes) (R321). -/
def nt0 : Nat := 0
def nt1 : Nat := 1

/-- Kinds of result words (R323). -/
def kindHome : Nat := 1
def kindReplica : Nat := 2
def kindForward : Nat := 3
def kindPrefix : Nat := 4

/-- The key of a session: NAMESPACE in bits [79:64], SID below (R323). -/
def sessKeyWord (k : SessKey) : Nat := k.ns * two64 + k.sid

/-- The key of a prefix block (R323). -/
def prefixKeyWord (b hash : Nat) : Nat := b % 65536 * two64 + hash

/-- Result words (R323). -/
def resHome (desc : Nat) : Nat := kindHome * 2 ^ 44 + desc
def resReplica (desc home : Nat) : Nat := kindReplica * 2 ^ 44 + home * 2 ^ 24 + desc
def resForward (m : Nat) : Nat := kindForward * 2 ^ 44 + m
def resPrefix (desc b : Nat) : Nat := kindPrefix * 2 ^ 44 + b * 2 ^ 24 + desc
def resKind (r : Nat) : Nat := r / 2 ^ 44
def resDesc (r : Nat) : Nat := r % 2 ^ 24

/-- Priority field by kind (R325). -/
def kindPrio (k : Nat) : Nat :=
  match k with
  | 1 => 0xC0
  | 2 => 0x80
  | 3 => 0x40
  | _ => 0x20

/-- The mixed value of a key (R326). -/
def newelMix (key : Nat) : Nat :=
  let w := fun v => v % two64
  let sh := fun v => Nat.xor v (v / 2 ^ 33)
  let x0 := Nat.xor (w key) (w (key / two64 * 0x9E3779B97F4A7C15))
  let x1 := w (sh x0 * 0xFF51AFD7ED558CCD)
  let x2 := w (sh x1 * 0xC4CEB9FE1A85EC53)
  sh x2

/-- First bank and number of banks of a table (R321, R344). -/
def tableFirst (d : Dev) (t : Nat) : Nat :=
  32 * (if t = 0 then d.get Reg.NT0_FIRST_GROUP else d.get Reg.NT1_FIRST_GROUP)
def tableBanks (d : Dev) (t : Nat) : Nat :=
  32 * (1 + if t = 0 then d.get Reg.NT0_GROUPS else d.get Reg.NT1_GROUPS)
/-- Power mode of a table: 0 FULL, 1 PREFILTER, 2 BANKSEL (R333, R344). -/
def tablePower (d : Dev) (t : Nat) : Nat :=
  if t = 0 then d.get Reg.NT0_POWER_MODE else d.get Reg.NT1_POWER_MODE
/-- Priority mode of a table is FIELD (R330). -/
def tableField (d : Dev) (t : Nat) : Bool :=
  (if t = 0 then d.get Reg.NT0_PRIO_MODE else d.get Reg.NT1_PRIO_MODE) == 1

/-- Candidate banks and prefilter byte (R327). -/
def bank1 (f n x : Nat) : Nat := f + x % 128 % n
def bank2 (f n x : Nat) : Nat :=
  if f + x / 128 % 128 % n = bank1 f n x then f + (x % 128 + 1) % n else f + x / 128 % 128 % n
def prefilter (x : Nat) : Nat := x / 2 ^ 56 % 256

/-- Candidate buckets (R341). -/
def bucket1 (x : Nat) : Nat := x / 2 ^ 14 % 2 ^ 24
def bucket2 (x : Nat) : Nat :=
  if x / 2 ^ 38 % 2 ^ 24 = bucket1 x then Nat.xor (bucket1 x) 1 else x / 2 ^ 38 % 2 ^ 24

/-- The entry belongs to table `t` (R340). -/
def inTable (t res : Nat) : Bool := (resKind res == kindPrefix) == (t == 1)

/-- Replace the Newel state. -/
def setNewel (n : NewelSt) (d : Dev) : Dev := { d with newel := n }

/-- Keep the three population registers of the NEWEL page (R344). -/
def newelSync (d : Dev) : Dev :=
  ((d.set Reg.NEWEL_DIR_ENTRIES (d.newel.dir.length + d.newel.stash.length)).set
    Reg.NEWEL_STASH_USED d.newel.stash.length).set Reg.NEWEL_ROWS_VALID d.newel.rows.length

/-- A row takes part in a lookup of key `key` in table `t` (R329, R333). -/
def rowMatches (d : Dev) (t key : Nat) (r : NRow) : Bool :=
  let x := newelMix key
  let f := tableFirst d t
  let n := tableBanks d t
  let bank := r.index / 8192
  r.mkey == key && r.mtable == t
  && (match tablePower d t with
      | 2 => bank == bank1 f n x || bank == bank2 f n x
      | 1 => decide (f ≤ bank ∧ bank < f + n) && r.mpre == prefilter x
      | _ => decide (f ≤ bank ∧ bank < f + n))

/-- The row that the priority encoder selects (R330). -/
def pickRow (byField : Bool) (l : List NRow) : Option NRow :=
  l.foldl (fun acc r =>
    match acc with
    | none => some r
    | some a =>
      if byField then
        if a.mprio < r.mprio ∨ (a.mprio = r.mprio ∧ r.index < a.index) then some r else some a
      else if r.index < a.index then some r else some a) none

/-- Put back a row. -/
def putRow (r : NRow) (d : Dev) : Dev :=
  setNewel { d.newel with rows := d.newel.rows.map fun x => if x.index == r.index then r else x } d

/-- Outcome of one pass through the lookup path. -/
inductive NLook where
  | hit (res : Nat)
  | miss
  | falseHit
  | lost
  deriving DecidableEq, Repr

/-- One pass of the lookup path with verification (R329-R331). -/
def lookOnce (t key : Nat) (d : Dev) : NLook × Dev :=
  match pickRow (tableField d t) (d.newel.rows.filter (rowMatches d t key)) with
  | none => (.miss, d)
  | some r =>
    if r.ecc = .uncorrectable ∨ resKind r.sres = 0 ∨ 4 < resKind r.sres then
      (.lost, newelSync ((setNewel { d.newel with rows := d.newel.rows.filter fun x => x.index != r.index }
        d).count Reg.NEWEL_SHADOW_UE 1))
    else
      let d1 := if r.ecc = .corrected then (putRow { r with ecc := .clean } d).count Reg.NEWEL_SHADOW_CE 1
        else d
      if r.skey = key ∧ r.stable = t then
        (.hit r.sres, (putRow { r with ecc := .clean, ref := true } d1).count Reg.NEWEL_HITS
          (if r.ecc = .corrected then 0 else 1))
      else
        (.falseHit, (putRow { r with
            ecc := .clean
            mkey := r.skey
            mtable := r.stable
            mprio := r.sprio
            mpre := prefilter (newelMix r.skey) } d1).count Reg.NEWEL_FALSE_HIT 1)

/-- What the backing directory holds for a key (R340, R341). -/
def dirFind (d : Dev) (t key : Nat) : Option Nat :=
  match d.newel.dir.find? fun e => e.key == key && inTable t e.res with
  | some e => some e.res
  | none => (d.newel.stash.find? fun e => e.1 == key && inTable t e.2).map (·.2)

/-- Halve every bin (R335). -/
def histHalve (t : Nat) (h : List (Nat × Nat × Nat)) : List (Nat × Nat × Nat) :=
  h.map fun b => if b.1 == t then (b.1, b.2.1, b.2.2 / 2) else b

/-- One lookup enters the histogram of its table (R335). -/
def histCount (t key : Nat) (d : Dev) : Dev :=
  let bin := prefilter (newelMix key)
  let h := d.newel.hist
  let cur := ((h.find? fun b => b.1 == t && b.2.1 == bin).map (·.2.2)).getD 0
  let h1 := (t, bin, cur + 1) :: h.filter fun b => !(b.1 == t && b.2.1 == bin)
  let n := 1 + if t = 0 then d.newel.histLookups.1 else d.newel.histLookups.2
  let wrap := decide (1048576 ≤ n)
  let n1 := if wrap then 0 else n
  setNewel { d.newel with
    hist := if wrap then histHalve t h1 else h1
    histLookups := if t = 0 then (n1, d.newel.histLookups.2) else (d.newel.histLookups.1, n1) } d

/-- A key whose lookup went to the backing directory waits there for BACKING_LOOKUP_DONE (R331, R332). -/
def toBacking (t key : Nat) (d : Dev) : Dev :=
  setNewel { d.newel with waiting := d.newel.waiting ++ [(t, key)] } d

/-- A lookup (R329-R332): the verified result word or the backing directory's, none when both miss. A
repeated lookup is counted once in NEWEL_LOOKUPS (R345). -/
def newelLookup (t key : Nat) (d : Dev) : Option Nat × Dev :=
  let d0 := histCount t key (d.count Reg.NEWEL_LOOKUPS 1)
  match lookOnce t key d0 with
  | (.hit r, d1) => (some r, d1)
  | (.miss, d1) => (dirFind d1 t key, toBacking t key (d1.count Reg.NEWEL_MISSES 1))
  | (.lost, d1) => (dirFind d1 t key, toBacking t key d1)
  | (.falseHit, d1) =>
    match lookOnce t key d1 with
    | (.hit r, d2) => (some r, d2)
    | (.miss, d2) => (dirFind d2 t key, toBacking t key (d2.count Reg.NEWEL_MISSES 1))
    | (.lost, d2) => (dirFind d2 t key, toBacking t key d2)
    | (.falseHit, d2) => (dirFind d2 t key, toBacking t key (d2.count Reg.NEWEL_FALLBACK 1))

/-- The lowest free row of a bank (R328). -/
def freeRow (rows : List NRow) (bank : Nat) : Option Nat :=
  let used := (rows.filter fun r => r.index / 8192 == bank).map fun r => r.index % 8192
  match (List.range (used.length + 1)).find? fun i => !used.contains i with
  | some i => if i < 8192 then some (bank * 8192 + i) else none
  | none => none

/-- Advance a bank's clock hand over rows whose reference bit is set, clearing it: the rows after, and
the hand's position (R328). -/
def clockWalk (fuel bank hand : Nat) (rows : List NRow) : Nat × List NRow :=
  match fuel with
  | 0 => (hand, rows)
  | k + 1 =>
    match rows.find? fun r => r.index == bank * 8192 + hand with
    | none => (hand, rows)
    | some r =>
      if r.ref then
        clockWalk k bank ((hand + 1) % 8192)
          (rows.map fun x => if x.index == r.index then { x with ref := false } else x)
      else (hand, rows)

/-- Install an entry under R328. -/
def newelInstall (t key res : Nat) (d : Dev) : Dev :=
  let x := newelMix key
  let f := tableFirst d t
  let n := tableBanks d t
  let b1 := bank1 f n x
  let b2 := bank2 f n x
  let mk := fun i => (⟨i, key, t, kindPrio (resKind res), prefilter x, false, key, t,
    kindPrio (resKind res), res, .clean⟩ : NRow)
  let wide := if tablePower d t = 2 then none
    else (List.range n).findSome? fun b => freeRow d.newel.rows (f + b)
  let place := fun i => newelSync (setNewel { d.newel with rows := d.newel.rows ++ [mk i] } d)
  match freeRow d.newel.rows b1, freeRow d.newel.rows b2, wide with
  | some i, _, _ => place i
  | none, some i, _ => place i
  | none, none, some i => place i
  | none, none, none =>
    let hand := (assocGet d.newel.hands b1).getD 0
    let (h, rows) := clockWalk 8193 b1 hand d.newel.rows
    let i := b1 * 8192 + h
    newelSync (setNewel { d.newel with
      rows := (rows.filter fun r => r.index != i) ++ [mk i]
      hands := assocSet d.newel.hands b1 h } d)

/-- Delete a key from the Newel part (R336). -/
def newelDrop (t key : Nat) (d : Dev) : Dev :=
  setNewel { d.newel with rows := d.newel.rows.filter fun r =>
    !((r.mkey == key && r.mtable == t) || (r.skey == key && r.stable == t)) } d

/-- Delete a key: in the Newel first and then in the backing directory (R336). -/
def newelDelete (t key : Nat) (d : Dev) : Dev :=
  let d1 := newelDrop t key d
  newelSync (setNewel { d1.newel with
    dir := d1.newel.dir.filter fun e => !(e.key == key && inTable t e.res)
    stash := d1.newel.stash.filter fun e => !(e.1 == key && inTable t e.2)
    waiting := d1.newel.waiting.filter fun w => w != (t, key) } d1)

/-- Rewrite the result word of an existing entry in both places (R336). -/
def newelRewrite (t key res : Nat) (d : Dev) : Dev :=
  setNewel { d.newel with
    rows := d.newel.rows.map fun r => if r.skey == key && r.stable == t
      then { r with sres := res, sprio := kindPrio (resKind res), mprio := kindPrio (resKind res) } else r
    dir := d.newel.dir.map fun e => if e.key == key && inTable t e.res then { e with res := res } else e
    stash := d.newel.stash.map fun e => if e.1 == key && inTable t e.2 then (key, res) else e } d

/-- The lowest empty slot of a bucket (R342). -/
def bucketFree (d : Dev) (b : Nat) : Option Nat :=
  (List.range 8).find? fun s => !(d.newel.dir.any fun e => e.bucket == b && e.slot == s)

/-- The PREFIX entry in the lowest slot of a bucket (R342). -/
def bucketPrefix (d : Dev) (b : Nat) : Option DirEnt :=
  (List.range 8).findSome? fun s =>
    d.newel.dir.find? fun e => e.bucket == b && e.slot == s && resKind e.res == kindPrefix

/-- FORWARD entries held (R342). -/
def forwardCount (d : Dev) : Nat :=
  ((d.newel.dir.map fun e => e.res) ++ d.newel.stash.map (·.2)).countP fun r => resKind r == kindForward

/-- An NT0 insert can be placed (R342). -/
def canInsert (d : Dev) (key res : Nat) : Bool :=
  let x := newelMix key
  let b1 := bucket1 x
  let b2 := bucket2 x
  !(resKind res == kindForward && decide (16777216 ≤ forwardCount d))
  && ((bucketFree d b1).isSome || (bucketFree d b2).isSome || (bucketPrefix d b1).isSome
      || (bucketPrefix d b2).isSome || decide (d.newel.stash.length < 4096))

/-- Insert an entry (R336, R338, R342): written to the backing directory first and then to the Newel. A
key that the table holds already is rewritten in NT0 and left alone in NT1. -/
def newelInsert (t key res : Nat) (d : Dev) : Dev :=
  if (dirFind d t key).isSome then (if t = nt1 then d else newelRewrite t key res d)
  else
    let x := newelMix key
    let b1 := bucket1 x
    let b2 := bucket2 x
    let put := fun b s (e : Dev) =>
      newelInstall t key res (setNewel { e.newel with dir := e.newel.dir ++ [⟨b, s, key, res⟩] } e)
    match bucketFree d b1, bucketFree d b2 with
    | some s, _ => put b1 s d
    | none, some s => put b2 s d
    | none, none =>
      if t = nt1 then d.count Reg.NEWEL_PREFIX_DROP 1
      else
        match (match bucketPrefix d b1 with | some e => some e | none => bucketPrefix d b2) with
        | some v =>
          put v.bucket v.slot ((newelDelete nt1 v.key d).count Reg.NEWEL_PREFIX_EVICT 1)
        | none =>
          if d.newel.stash.length < 4096 then
            newelInstall t key res (setNewel { d.newel with stash := d.newel.stash ++ [(key, res)] } d)
          else d

/-- BACKING_LOOKUP_DONE: the backing directory answers; a hit is installed (R328, R332), a miss is final. -/
def backingDone (t key : Nat) (d : Dev) : Dev :=
  if d.newel.waiting.contains (t, key) then
    let d1 := setNewel { d.newel with waiting := d.newel.waiting.erase (t, key) } d
    match dirFind d1 t key with
    | some r => newelInstall t key r d1
    | none => d1
  else d

/-- NEWEL_SHADOW_SCRUB: the scrubber reads a shadow part (R331, R620): a single-bit error is corrected and
written back, an uncorrectable one invalidates the row. -/
def shadowScrub (row : Nat) (found : EccFind) (d : Dev) : Dev :=
  match d.newel.rows.find? fun r => r.index == row with
  | none => d
  | some r =>
    match found with
    | .clean => d
    | .corrected => (putRow { r with ecc := .clean } d).count Reg.NEWEL_SHADOW_CE 1
    | .uncorrectable =>
      newelSync ((setNewel { d.newel with rows := d.newel.rows.filter fun x => x.index != row } d).count
        Reg.NEWEL_SHADOW_UE 1)

end Sys2Proof.Machine
end

