-- ==== Sys2Proof/Machine/Coherence.lean ====
section
/-! DEFINITION. Writes to granules, and coherence of the host windows (spec/03: R85, R88-R91; spec/11: R349, R353, R356,
R382). -/

namespace Sys2Proof.Machine

open Sys2Proof

/-! ### Granules -/

/-- Granule numbers that a byte range touches. -/
def granulesOf (addr len : Nat) : List Nat :=
  (List.range ((addr + len + granuleBytes - 1) / granuleBytes - addr / granuleBytes)).map
    fun i => addr / granuleBytes + i

/-- A demotion in flight is abandoned and its target copies are freed (R382). -/
def demoteAbandon (o : ObjRef) (d : Dev) : Dev :=
  match d.tier.demos.find? fun x => x.obj == o with
  | none => d
  | some x =>
    let d1 := setTier { d.tier with demos := d.tier.demos.filter fun y => y.obj != o } d
    match objView d o with
    | none => d1
    | some v =>
      let ps := d1.fab.placing.filter fun p => p.what == .demote o
      if ps.isEmpty ∧ (x.tier = 2 ∨ x.tier = 4) then freeCopy x.tier x.loc x.copies x.copyIndex v d1
      else forAll ps (fun p e => endPlacing p.id (forAll (p.got.map (·.2)) (fun a e2 => sendFree a v.keySlot e2) e))
        (if x.tier = 4 then t4Free (x.loc / 16) d1 else d1)

/-- A granule is written: it is given its T1 bytes at the first write unless the host window has reserved them, loses its
backing copy and its demotion in flight, and takes the epoch (R81, R349, R353, R382, R519). -/
def granuleTouch (part idx : Nat) (d : Dev) : Dev :=
  match findGranule d part idx with
  | none => d
  | some g =>
    let o := ObjRef.granule part idx
    let d1 :=
      if g.tier = noTier then
        let (i, d0) := d.fresh
        putGranule { g with
          tier := 1
          loc := Config.hbmAddr i % 2 ^ 39 } (if g.hostWindow then d0 else poolTake part granuleBytes d0)
      else dropBacking o (demoteAbandon o d)
    match findGranule d1 part idx with
    | none => d1
    | some g1 => putGranule { g1 with epoch := d.get Reg.CKPT_EPOCH } d1

/-- Bytes are written to the session range at once. -/
def writeNow (part addr : Nat) (data : Bytes) (d : Dev) : Dev :=
  writeRange part addr data (forAll (granulesOf addr data.length) (granuleTouch part) d)

/-! ### The snoop filter -/

/-- Lines that the filter tracks (R88). -/
def snoopLines : Nat := 4194304

/-- Lines of 64 bytes that a byte range touches. -/
def linesOf (addr len : Nat) : List Nat :=
  (List.range ((addr + len + 63) / 64 - addr / 64)).map fun i => addr / 64 + i

/-- The filter entries of a line. -/
def holders (d : Dev) (part line : Nat) : List Snoop := d.host.snoop.filter fun x => x.part == part && x.line == line

/-- A host owns the line. -/
def lineOwned (d : Dev) (part line : Nat) : Bool := (holders d part line).any (·.owned)

/-- Remove the entry of a slot for a line. -/
def dropHolder (part line slot : Nat) (d : Dev) : Dev :=
  setHost { d.host with snoop := d.host.snoop.filter fun x => !(x.part == part && x.line == line && x.slot == slot) } d

/-- Issue a back-invalidate. -/
def biStart (part line slot : Nat) (p : BiPurpose) (d : Dev) : Dev :=
  (setHost { d.host with bis := d.host.bis ++ [⟨part, line, slot, d.clock, p⟩] } d).emit (.backInv slot line)

/-- A line is granted to a slot and its committed value returned (R86, R90). -/
def grantLine (slot part line : Nat) (own : Bool) (d : Dev) : Dev :=
  let d1 := dropHolder part line slot d
  (setHost { d1.host with snoop := d1.host.snoop ++ [⟨part, line, slot, own⟩] } d1).emit
    (.memData slot (line * 64) (readRange d1 part (line * 64) 64))

/-- A CXL.mem read inside the window (R86, R88-R90): other holders that a grant conflicts with are back-invalidated, then
the least recently granted line when the filter is full; the grant waits for the answers. -/
def readLine (slot part line : Nat) (own : Bool) (d : Dev) : Dev :=
  match (holders d part line).filter fun x => x.slot != slot && (own || x.owned) with
  | x :: r => forAll (x :: r) (fun y e => biStart part line y.slot (.read slot line own) e) d
  | [] =>
    if d.host.snoop.length < snoopLines ∨ (holders d part line).any (fun x => x.slot == slot) then
      grantLine slot part line own d
    else
      match d.host.snoop with
      | [] => grantLine slot part line own d
      | v :: _ => biStart v.part v.line v.slot (.evict slot line own) d

/-- The access lies in the decoded window of the slot (R85). -/
def windowHit (d : Dev) (slot addr len : Nat) : Bool :=
  winDecoded d slot && decide (winBase d slot ≤ addr ∧ addr + len ≤ winBase d slot + winBytes d slot)

/-- HOST_MEM_READ (R85, R116): the address is in the session range of the slot's partition. -/
def hostMemRead (slot addr : Nat) (own : Bool) (d : Dev) : Dev :=
  if d.host.fatal then d
  else if windowHit d slot addr 1 then readLine slot (d.get (Reg.SLOT_PART slot)) (addr / 64) own d
  else (d.count (Reg.HOST_WINDOW_MISS slot) 1).emit (.memData slot addr (zeros 64))

/-- HOST_MEM_WRITE (R85, R116): a write-back from the slot, which gives the line up. -/
def hostMemWrite (slot addr : Nat) (data : Bytes) (d : Dev) : Dev :=
  if d.host.fatal then d
  else if windowHit d slot addr data.length then
    let part := d.get (Reg.SLOT_PART slot)
    forAll (linesOf addr data.length) (fun l e => dropHolder part l slot e) (writeNow part addr data d)
  else d.count (Reg.HOST_WINDOW_MISS slot) 1

/-- A committed write of the device (R90): lines that hosts hold are back-invalidated first and written when the last copy
is gone. -/
def deviceWrite (part addr : Nat) (data : Bytes) (d : Dev) : Dev :=
  forAll (linesOf addr data.length) (fun l e =>
    let a := max addr (l * 64)
    let b := (data.drop (a - addr)).take (l * 64 + 64 - a)
    match holders e part l with
    | [] => writeNow part a b e
    | hs => forAll hs (fun h e2 => biStart part l h.slot (.write a b) e2) e) d

/-- Lines of a range that hosts own are written back before the device reads them (R89). -/
def flushRange (part addr len : Nat) (d : Dev) : Dev :=
  forAll (linesOf addr len) (fun l e =>
    forAll ((holders e part l).filter (·.owned)) (fun h e2 => biStart part l h.slot .flush e2) e) d

/-- No host holds a line of a range. -/
def linesFree (d : Dev) (part addr len : Nat) : Bool := (linesOf addr len).all fun l => (holders d part l).isEmpty

/-- Every host copy of the lines of a range, owned or shared, is called back, unless it is being called already (R90). -/
def linesClear (part addr len : Nat) (d : Dev) : Dev :=
  forAll (linesOf addr len) (fun l e =>
    forAll ((holders e part l).filter fun h => !(e.host.bis.any fun b => b.part == part && b.line == l && b.slot == h.slot))
      (fun h e2 => biStart part l h.slot .flush e2) e) d

/-- No line of a range waits for a back-invalidate. -/
def rangeSettled (d : Dev) (part addr len : Nat) : Bool :=
  !(d.host.bis.any fun b => b.part == part && decide (addr / 64 ≤ b.line ∧ b.line * 64 < addr + len))

/-- A line of an inbox snapshot has been read after its back-invalidate (R91). -/
def snapshotLine (order part line : Nat) (d : Dev) : Dev :=
  setHost { d.host with accepted := d.host.accepted.map fun m =>
    if m.order = order then
      match m.wait with
      | .snapshot ls =>
        let a := max m.c.addrA (line * 64)
        let n := min (m.c.addrA + m.c.lenA) (line * 64 + 64) - a
        { m with
          wait := .snapshot (ls.filter (· != line))
          inbox := m.inbox.take (a - m.c.addrA) ++ readRange d part a n ++ m.inbox.drop (a - m.c.addrA + n) }
      | _ => m
    else m } d

/-- What waited on a back-invalidate of a line proceeds once the slot's copy is gone (R88-R91, R684). A read of a slot whose
window is decoded no more is not answered (R80, R111). -/
def biProceed (b : Bi) (d : Dev) : Dev :=
  match b.purpose with
  | .evict slot line own => if winDecoded d slot then readLine slot (d.get (Reg.SLOT_PART slot)) line own d else d
  | .read slot line own =>
    if (d.host.bis.any fun x => x.part == b.part && x.line == b.line) ∨ ¬ winDecoded d slot then d
    else readLine slot b.part line own d
  | .write addr data => if (holders d b.part b.line).isEmpty then writeNow b.part addr data d else d
  | .snapshot order => snapshotLine order b.part b.line d
  | .flush => d

/-- BI_RESPONSE_RX (R89): the slot's copy of the line is gone; modified data it returns becomes the line's value. -/
def biResponse (slot line : Nat) (dirty : Option Bytes) (d : Dev) : Dev :=
  match d.host.bis.find? fun b => b.slot == slot && b.line == line with
  | none => d
  | some b0 =>
    let part := b0.part
    let done := d.host.bis.filter fun b => b.slot == slot && b.line == line && b.part == part
    let d1 := dropHolder part line slot (setHost { d.host with
      bis := d.host.bis.filter fun b => !(b.slot == slot && b.line == line && b.part == part) } d)
    let d2 := match dirty with
      | some x => if d.get (Reg.SLOT_STATE slot) = 3 then d1 else writeNow part (line * 64) (x.take 64) d1
      | none => d1
    forAll done biProceed d2

end Sys2Proof.Machine
end

