-- ==== Sys2Proof/Machine/Sha256.lean ====
section
/-! DEFINITION. SHA-256, which the plan digest (R65), the prefix hashes (R181), region hashes (R156),
checkpoint manifests and firmware measurements use. FIPS 180-4 gives it. -/

namespace Sys2Proof.Machine

open Sys2Proof

/-- The 64 round constants of FIPS 180-4. -/
def shaK : List (BitVec 32) :=
  [0x428a2f98, 0x71374491, 0xb5c0fbcf, 0xe9b5dba5, 0x3956c25b, 0x59f111f1, 0x923f82a4, 0xab1c5ed5] ++
  [0xd807aa98, 0x12835b01, 0x243185be, 0x550c7dc3, 0x72be5d74, 0x80deb1fe, 0x9bdc06a7, 0xc19bf174] ++
  [0xe49b69c1, 0xefbe4786, 0x0fc19dc6, 0x240ca1cc, 0x2de92c6f, 0x4a7484aa, 0x5cb0a9dc, 0x76f988da] ++
  [0x983e5152, 0xa831c66d, 0xb00327c8, 0xbf597fc7, 0xc6e00bf3, 0xd5a79147, 0x06ca6351, 0x14292967] ++
  [0x27b70a85, 0x2e1b2138, 0x4d2c6dfc, 0x53380d13, 0x650a7354, 0x766a0abb, 0x81c2c92e, 0x92722c85] ++
  [0xa2bfe8a1, 0xa81a664b, 0xc24b8b70, 0xc76c51a3, 0xd192e819, 0xd6990624, 0xf40e3585, 0x106aa070] ++
  [0x19a4c116, 0x1e376c08, 0x2748774c, 0x34b0bcb5, 0x391c0cb3, 0x4ed8aa4a, 0x5b9cca4f, 0x682e6ff3] ++
  [0x748f82ee, 0x78a5636f, 0x84c87814, 0x8cc70208, 0x90befffa, 0xa4506ceb, 0xbef9a3f7, 0xc67178f2]

/-- The initial hash value of FIPS 180-4. -/
def shaInit : List (BitVec 32) :=
  [0x6a09e667, 0xbb67ae85, 0x3c6ef372, 0xa54ff53a, 0x510e527f, 0x9b05688c, 0x1f83d9ab, 0x5be0cd19]

/-- A big-endian 32-bit word from four bytes. -/
def shaWord (b : Bytes) : BitVec 32 := BitVec.ofNat 32 (unle b.reverse)

/-- Extend a 16-word window by one word of the message schedule. -/
def shaNext (w : List (BitVec 32)) : BitVec 32 :=
  let w0 := w.getD 0 0
  let w1 := w.getD 1 0
  let w9 := w.getD 9 0
  let w14 := w.getD 14 0
  let s0 := w1.rotateRight 7 ^^^ w1.rotateRight 18 ^^^ (w1 >>> 3)
  let s1 := w14.rotateRight 17 ^^^ w14.rotateRight 19 ^^^ (w14 >>> 10)
  w0 + s0 + w9 + s1

/-- One round on the eight working variables. -/
def shaRound (v : List (BitVec 32)) (k w : BitVec 32) : List (BitVec 32) :=
  match v with
  | [a, b, c, d, e, f, g, h] =>
    let s1 := e.rotateRight 6 ^^^ e.rotateRight 11 ^^^ e.rotateRight 25
    let ch := (e &&& f) ^^^ (~~~ e &&& g)
    let t1 := h + s1 + ch + k + w
    let s0 := a.rotateRight 2 ^^^ a.rotateRight 13 ^^^ a.rotateRight 22
    let maj := (a &&& b) ^^^ (a &&& c) ^^^ (b &&& c)
    [t1 + (s0 + maj), a, b, c, d + t1, e, f, g]
  | v => v

/-- The rounds of one block: `win` holds the next 16 schedule words. -/
def shaRounds (ks : List (BitVec 32)) (win v : List (BitVec 32)) : List (BitVec 32) :=
  match ks with
  | [] => v
  | k :: rest => shaRounds rest (win.drop 1 ++ [shaNext win]) (shaRound v k (win.getD 0 0))

/-- One 64-byte block. -/
def shaBlock (h : List (BitVec 32)) (b : Bytes) : List (BitVec 32) :=
  let win := (List.range 16).map fun i => shaWord ((b.drop (4 * i)).take 4)
  (h.zip (shaRounds shaK win h)).map fun p => p.1 + p.2

/-- The padded message. -/
def shaPad (b : Bytes) : Bytes :=
  let z := (119 - b.length % 64) % 64
  b ++ [0x80] ++ zeros z ++ (le 8 (8 * b.length)).reverse

/-- SHA-256 of a byte string: 32 bytes. -/
def sha256 (b : Bytes) : Bytes :=
  let p := shaPad b
  let h := (chunks (p.length / 64) 64 p).foldl shaBlock shaInit
  h.flatMap fun w => (le 4 w.toNat).reverse

end Sys2Proof.Machine
end

