-- ==== Sys2Proof/Machine/Flags.lean ====
section
/-! DEFINITION. What follows from the state at once, after every step: the power-loss protection state, the local-only
bit, the mode status, the interrupt messages and the alert line (R60, R588, R629, R654, R661, R671); and how an effect on
the device becomes the outcome of a command. -/

namespace Sys2Proof.Machine

open Sys2Proof

/-! ### Derived modes -/

/-- Ticks are local-only: the servo is in FREE_RUN, ACQUIRING or HOLDOVER_EXPIRED (R60). -/
def ticksLocal (d : Dev) : Bool := !(d.get Reg.TIME_SERVO == servoLocked || d.get Reg.TIME_SERVO == servoHoldover)

/-- HOLDUP_MIN_J and HOLDUP_WARN_J in force (R591). -/
def holdupMin (d : Dev) : Nat := clampNat 12 80 (d.get Reg.HOLDUP_MIN_J)
def holdupWarn (d : Dev) : Nat := max (holdupMin d) (d.get Reg.HOLDUP_WARN_J)

/-- FTL_PLP (R487, R588): 2 while the flush of an input loss runs, 0 ARMED while the store is READY and holds
HOLDUP_MIN_J, else 1 OFF. -/
def plpValue (d : Dev) : Nat :=
  if d.get Reg.HOLDUP_STATE = 3 then 2
  else if d.get Reg.HOLDUP_STATE = 1 ∧ 10 * holdupMin d ≤ d.get Reg.HOLDUP_E_DJ then 0
  else 1

/-- A page policy names a tier that has no capacity now (R654). -/
def tierAbsent (d : Dev) (t : Nat) : Bool :=
  (t == 2 && d.get Reg.FAB_ROUTED == 0) || (t == 3 && d.tier.t3.isEmpty) || (t == 4 && d.isM0)

/-- The order of a park policy (R368); none for a policy that is not set. -/
def policyOrder (d : Dev) (n : Nat) : List Nat := ((assocGet d.tier.policies n).map (·.order)).getD []

/-- Policies in use: those of descriptors, and STW_PRESSURE_POLICY, where 0 acts as 1 (R389, R654). -/
def policiesInUse (d : Dev) : List Nat :=
  (if d.get Reg.STW_PRESSURE_POLICY = 0 then 1 else d.get Reg.STW_PRESSURE_POLICY)
  :: (d.sess.descs.filter fun x => x.state != ssFree).map (·.policy)

/-- A module is PRESENT to this one: the module itself, or a peer in PRESENT (R421). -/
def memberPresent (d : Dev) (m : Nat) : Bool :=
  m == d.self || d.fab.peers.any fun p => p.module_ == m && p.state == .present

/-- The conditions of GLB_MODE_STATUS bits 0-11 (R654). -/
def modeConds (d : Dev) : List (Field × Bool) :=
  [(Reg.DEG_LOCAL_ONLY, ticksLocal d && d.tier.models.any fun m => decide (1 < m.group)),
   (Reg.DEG_HOLDOVER, d.get Reg.TIME_SERVO == servoHoldover),
   (Reg.DEG_GROUP_MISMATCH, d.get Reg.GROUP_MISMATCH == 1),
   (Reg.DEG_GROUP_HELD, d.tier.models.any fun m => m.members.any fun k => !memberPresent d k),
   (Reg.DEG_CAP_QUADS, d.tick.capQuads),
   (Reg.DEG_CAP_ZERO, d.tick.capZero),
   (Reg.DEG_WEIGHT_LATE, d.tick.lastWeightLate.any fun f => decide (d.tick.fired < f + 16)),
   (Reg.DEG_MAINT_TICK, d.tick.lastMaint.any fun f => decide (d.tick.fired < f + 64)),
   (Reg.DEG_TIER_ABSENT, (policiesInUse d).any fun n => (policyOrder d n).any (tierAbsent d)),
   (Reg.DEG_PLP_OFF, d.get Reg.FTL_PLP == 1),
   (Reg.DEG_COPY_DEFICIT, d.get Reg.FAB_COPY_DEFICIT != 0),
   (Reg.DEG_NO_HOST, !(slotNumbers.any (slotBound d)) && d.sess.descs.any fun x => x.state != ssFree)]

/-- Write one bit of GLB_MODE_STATUS. -/
def setCond (c : Field × Bool) (d : Dev) : Dev := d.set c.1 (if c.2 then 1 else 0)

/-- GLB_MODE_STATUS follows its conditions; a bit that goes from 0 to 1 sets bit 0 of the GLB page's
BLK_INT_STATUS (R654). -/
def modeStep (d : Dev) : Dev :=
  let cs := modeConds d
  let rise := cs.any fun c => c.2 && d.get c.1 == 0
  when rise (fun e => e.raise 0 0) (forAll cs setCond d)

/-- The servo's local-only bit, the protection state and the level of the low-input cause (R60, R588, R671). -/
def derivedStep (d : Dev) : Dev :=
  let d1 := d.set Reg.LOCAL_ONLY (if ticksLocal d then 1 else 0)
  let off := plpValue d == 1 && d.get Reg.FTL_PLP != 1 && !d.isM0
  when d.pwr.inputLow (fun e => e.raise 3 3)
    (when off (fun e => e.raise 0x80 2) (d1.set Reg.FTL_PLP (plpValue d)))

/-- Objects of a partition with a copy in T2, T3 or T4 (R618). -/
def partLower (d : Dev) (p : Nat) : Nat :=
  (d.kv.pages.countP fun x => x.part == p && ((decide (2 ≤ x.tier) && x.tier != 0xFF) || x.backTier != 0xFF))
  + (d.tier.granules.countP fun x => x.part == p && ((decide (2 ≤ x.tier) && x.tier != 0xFF) || x.backTier != 0xFF))
  + ((d.srch.indexes.filter fun x => x.part == p).map fun x => x.gens.length + 1).sum
  + d.fab.puts.countP fun x => x.part == p

/-- SEC_PART_OBJECTS follows, and a partition key is cleared when no slot is bound and no object is left (R608, R618). -/
def keyStep (d : Dev) : Dev :=
  forAll (List.range 8) (fun p e =>
    let n := partLower e p
    let e1 := e.set (Reg.SEC_PART_OBJECTS p) n
    if n = 0 ∧ e1.get (Reg.SEC_PART_KEY p) ≠ 0
        ∧ ¬ slotNumbers.any (fun s => e1.get (Reg.SLOT_STATE s) != 0 && e1.get (Reg.SLOT_PART s) == p) then
      e1.set (Reg.SEC_PART_KEY p) 0
    else e1) d

/-- The 64 bytes of the key-ring state (R600). -/
def keyState (d : Dev) : Bytes :=
  le 8 (d.get Reg.SEC_TENANT_PRESENT) ++ le 8 (d.get Reg.SEC_TENANT_RETIRED) ++ le 2 (d.get Reg.SEC_FABRIC_PRESENT)
  ++ le 2 (d.get Reg.SEC_FABRIC_RETIRED) ++ (List.range 8).flatMap (fun p => le 1 (d.get (Reg.SEC_PART_KEY p))) ++ zeros 36

/-- Extend a measurement register by a digest (R599): MR = SHA-256(MR, m). -/
def extendMr (i : Nat) (m : Bytes) (d : Dev) : Dev :=
  (d.set (Reg.SEC_MR i) (unle (sha256 (le 32 (d.get (Reg.SEC_MR i)) ++ m)))).count Reg.SEC_EXTENDS 1

/-- MR5 is extended at every change of the key-ring state after the boot ROM has run (R599); the boot itself extends it once. -/
def keyMeasure (old d : Dev) : Dev :=
  if 3 ≤ old.get Reg.GLB_BOOT_STAGE ∧ 3 ≤ d.get Reg.GLB_BOOT_STAGE ∧ keyState old ≠ keyState d then
    extendMr 5 (sha256 (keyState d)) d
  else d

/-! ### Copies (R410, R415) -/

/-- The page of a published region that lies in a SHARED extent of this module (R419). -/
def regionShared (d : Dev) (id : Nat) : Bool :=
  d.fab.extents.any fun x => x.shared && !x.flash && x.allocator == d.self && x.tag == id && id != 0

/-- An object with fewer copies than the factor of the tier that holds it (R410). -/
def belowFactor (d : Dev) (tier back copies : Nat) (shared : Bool) : Bool :=
  ((tier == 2 || back == 2 || shared) && decide (copies < d.get Reg.FAB_COPY_T2))
  || ((tier == 4 || back == 4) && decide (copies < d.get Reg.FAB_COPY_T4))

/-- Objects of this module below their factor. -/
def deficit (d : Dev) : Nat :=
  (d.kv.pages.countP fun p => belowFactor d p.tier p.backTier p.copies (regionShared d p.id))
  + d.tier.granules.countP fun g => belowFactor d g.tier g.backTier g.copies false

/-- FAB_COPY_DEFICIT follows; COPY_DEFICIT is posted when it leaves 0, COPY_RESTORED when it returns to 0 (R415). -/
def deficitStep (d : Dev) : Dev :=
  let old := d.get Reg.FAB_COPY_DEFICIT
  let n := deficit d
  let d1 := d.set Reg.FAB_COPY_DEFICIT n
  if old = 0 ∧ n ≠ 0 then postAdmins none evCopyDeficit (min 0xFFFFFFFF n) d1
  else if old ≠ 0 ∧ n = 0 then postAdmins none evCopyRestored 0 d1
  else d1

/-! ### Interrupts -/

/-- BLK_INT_STATUS AND BLK_INT_ENABLE of a page. -/
def intPending (d : Dev) (p : Nat) : Nat := Nat.land (d.get (Reg.BLK_INT_STATUS p)) (d.get (Reg.BLK_INT_ENABLE p))

/-- Pages with an enabled cause (R661). A cause is listed in the register file, its reset value being 0. -/
def intPages (d : Dev) : List Nat :=
  ((d.regs.file.filter fun e => e.1 / 8 % 4096 == 0x014).map fun e => e.1 / 32768).filter
    fun p => intPending d p != 0

/-- The level of the alert line (R629, R661). -/
def alertLevel (d : Dev) : Bool :=
  d.get Reg.RAS_FATAL == 1 || (d.get Reg.GLB_ALERT_EN == 1 && !(intPages d).isEmpty)

/-- The interrupt vector goes to every slot bound with ADMIN set (R661). -/
def sendIntVector (d : Dev) : Dev :=
  forAll (slotNumbers.filter (slotAdmin d)) (fun n e => sendMsix n (e.get Reg.GLB_INT_VECTOR) e) d

/-- One message for each page whose enabled causes go from none to some, and the alert line's change (R661). -/
def intStep (old d : Dev) : Dev :=
  let rising := (intPages d).filter fun p => intPending old p == 0
  when (alertLevel old != alertLevel d) (fun e => e.emit (.alert (alertLevel d)))
    (forAll rising (fun _ e => sendIntVector e) d)

/-- What follows at once from a change of the device. -/
def settle (old new : Dev) : Dev := intStep old (modeStep (derivedStep (deficitStep (keyMeasure old (keyStep new)))))

/-- The outcome of a command whose effect on the device is `f`. -/
def State.run (f : Dev → Dev) (s : State) : Host.Outcome State Fault Refusal :=
  .next { s with dev := settle s.dev (f s.dev) }

end Sys2Proof.Machine
end

