-- ==== Sys2Proof/Machine/Operands.lean ====
section
/-! DEFINITION. Operand forms of the host opcodes: which fields of a submission entry each opcode names, when it takes
effect, which slots may issue it, and the general checks of its acceptance (R10, R14, R15, R95-R97, R103, R646 and the
opcode table of each chapter). -/

namespace Sys2Proof.Machine

open Sys2Proof

/-- When an opcode takes effect: when it is accepted, at the seal of the plan it enters (R130), or on its own, entering no
plan. -/
inductive Effect where
  | accept
  | seal_
  | noPlan
  deriving DecidableEq, Repr

/-- A field of a submission entry that an opcode names (R95). `arg off mask` names the bits of `mask`, counted from
byte `off`. -/
inductive EntryField where
  | sess
  | step
  | addrA
  | addrB
  | lenA
  | lenB
  | arg (off mask : Nat)
  deriving DecidableEq, Repr

/-- What the manual says of an opcode. -/
structure OpInfo where
  effect : Effect
  /-- Accepted only on SQ 0 (R97), only from a slot bound with ADMIN set, absent on an SZ-4100-M0 (R2). -/
  sq0 : Bool
  admin : Bool
  m1Only : Bool
  names : List EntryField
  deriving DecidableEq, Repr

/-- An opcode of any slot and queue. -/
def opAny (e : Effect) (names : List EntryField) : Option OpInfo := some ⟨e, false, false, false, names⟩
/-- An opcode of ADMIN slots. -/
def opAdmin (e : Effect) (names : List EntryField) : Option OpInfo := some ⟨e, false, true, false, names⟩
/-- An opcode of SQ 0. -/
def opSq0 (names : List EntryField) : Option OpInfo := some ⟨.accept, true, false, false, names⟩
/-- An opcode of vector search. -/
def opSearch (names : List EntryField) : Option OpInfo := some ⟨.seal_, false, false, true, names⟩

/-- `n` whole bytes of ARG from byte `off` on. -/
def argBytes (off n : Nat) : EntryField := .arg off (2 ^ (8 * n) - 1)

/-- The opcode tables: R97 (host), R129 (sessions), R383 (tiers), R426 (fabric), R313 (text), R510 (search), R538
(checkpoints), R615 (security), R631 (reliability), R277 to R280 (sampling), R75 (time), R570 (partitions). Every other
opcode is reserved (R96). -/
def opInfo (op : Nat) : Option OpInfo :=
  match op with
  | 0x00 => opAny .accept []
  | 0x01 => opSq0 [.addrA, .addrB, argBytes 48 5, .arg 53 1]
  | 0x02 => opSq0 [argBytes 48 2]
  | 0x03 => opSq0 [.addrA, .addrB, argBytes 48 2, argBytes 52 1, .arg 53 3, .arg 54 0x7FF]
  | 0x04 => opSq0 [argBytes 48 2]
  | 0x05 => opSq0 [.addrA, .addrB, argBytes 48 2, argBytes 52 1]
  | 0x06 => opSq0 [argBytes 48 2]
  | 0x07 => opSq0 [.addrA, .addrB, argBytes 48 2, argBytes 52 1, .arg 53 1, .arg 54 0x7FF]
  | 0x08 => opSq0 [argBytes 48 2]
  | 0x09 => opAny .accept [argBytes 48 4]
  | 0x20 => opAny .seal_ [.sess, .addrA]
  | 0x21 => opAny .seal_ [.sess, .addrA, .lenA, .addrB, .lenB, argBytes 48 1, .arg 49 7, argBytes 52 12]
  | 0x22 => opAny .seal_ [.sess, argBytes 48 8]
  | 0x23 => opAny .seal_ [.sess]
  | 0x24 => opAny .seal_ [.sess]
  | 0x25 => opAny .seal_ [.sess, .step]
  | 0x26 => opAny .seal_ [.sess, .addrB, argBytes 48 8, .arg 56 1]
  | 0x27 => opAny .seal_ [.sess, .arg 48 0x3FF, .arg 50 1, argBytes 52 8]
  | 0x28 => opAny .seal_ [.sess]
  | 0x29 => opAny .accept [.sess, .addrA]
  | 0x2A => opAny .seal_ [.sess, .addrA, argBytes 48 4]
  | 0x2B => opAny .seal_ [.sess, .addrA, .lenA, .addrB, argBytes 48 16]
  | 0x40 => opAny .seal_ [.addrA, argBytes 48 8, .arg 56 1]
  | 0x41 => opAny .seal_ [.addrA, argBytes 48 8]
  | 0x42 => opAny .seal_ [.addrA, argBytes 48 9, .arg 57 1]
  | 0x43 => opAny .seal_ [.addrA, .addrB, .lenA]
  | 0x44 => opAny .seal_ [.addrA, .addrB, .lenA]
  | 0x45 => opAny .seal_ [.addrA, .lenA, .addrB, argBytes 48 2]
  | 0x46 => opAny .seal_ [argBytes 56 8]
  | 0x47 => opAny .seal_ [.addrA, argBytes 48 1]
  | 0x48 => opAny .seal_ [.addrA, argBytes 48 8]
  | 0x49 => opAny .seal_ [argBytes 48 1]
  | 0x4A => opAny .seal_ []
  | 0x50 => opAdmin .seal_ [.addrA, .lenA]
  | 0x51 => opAdmin .seal_ [argBytes 48 2]
  | 0x52 => opAny .noPlan [.addrA, .lenA, .arg 48 0x3FF, .arg 50 3]
  | 0x53 => opAny .noPlan [.addrA]
  | 0x54 => opAny .noPlan [.addrA, .lenA, .addrB, argBytes 48 16]
  | 0x55 => opAdmin .seal_ [.arg 48 0x3FF]
  | 0x60 => opAny .seal_ [.addrA, .lenA, argBytes 56 8]
  | 0x61 => opAny .seal_ [argBytes 56 8]
  | 0x62 => opAny .seal_ [.addrA, .lenA, argBytes 48 4, argBytes 56 8]
  | 0x63 => opAny .seal_ [argBytes 48 4, argBytes 56 8]
  | 0x64 => opAny .seal_ [.addrA, .lenA, argBytes 48 4, argBytes 56 8]
  | 0x65 => opAny .seal_ [argBytes 48 4, argBytes 56 8]
  | 0x66 => opAny .noPlan [.addrA, .lenA, .addrB, .lenB, .arg 48 1, argBytes 56 8]
  | 0x67 => opAny .noPlan [.addrA, .lenA, .addrB, .lenB, argBytes 56 8]
  | 0x70 => opSearch [argBytes 48 1]
  | 0x71 => opSearch [.addrA, .lenA, argBytes 48 2]
  | 0x72 => opSearch [argBytes 48 2, .arg 50 1]
  | 0x73 => opSearch [.addrA, .lenA, argBytes 48 2]
  | 0x74 => opSearch [.addrA, .lenA, .addrB, .lenB, argBytes 48 3, argBytes 52 12]
  | 0x75 => opSearch [argBytes 48 2]
  | 0x76 => opSearch [argBytes 48 2]
  | 0x78 => opAny .seal_ [argBytes 48 2, .arg 50 0x3FF, argBytes 56 8]
  | 0x79 => opAny .seal_ [.addrA, .lenA, .addrB, argBytes 48 9, .arg 57 3]
  | 0x7A => opAny .seal_ [.addrB]
  | 0x7B => opAny .seal_ [.addrA, .lenA, .addrB, .step, argBytes 48 1, argBytes 56 8]
  | 0x7C => opAny .seal_ [.addrB, argBytes 48 9]
  | 0x7D => opAny .noPlan [.addrA, .lenA, argBytes 48 1]
  | 0x7E => opAny .noPlan [.addrA, .lenA, argBytes 48 9]
  | 0x7F => opAny .noPlan [.addrA, .lenA, argBytes 48 1]
  | 0x80 => opAny .noPlan [.addrA, .addrB, .lenB]
  | 0x81 => opAny .noPlan [.addrB, .lenB]
  | 0x82 => opAny .noPlan [.addrA]
  | 0x83 => opAdmin .noPlan [.addrA, .lenA]
  | 0x84 => opAdmin .noPlan [argBytes 48 1]
  | 0x85 => opAdmin .noPlan []
  | 0x86 => opAdmin .seal_ [argBytes 48 2]
  | 0x88 => opAdmin .noPlan [argBytes 48 3]
  | 0x89 => opAny .noPlan [.addrA, .lenA, argBytes 48 8]
  | 0x8A => opAny .noPlan [.addrA, .lenA, argBytes 48 8]
  | 0x8B => opAdmin .noPlan []
  | 0x8C => opAdmin .noPlan [argBytes 48 3, argBytes 56 8]
  | 0x90 => opAny .seal_ [.addrA, .lenA, argBytes 48 2, argBytes 56 8]
  | 0x91 => opAny .seal_ [argBytes 48 2, argBytes 56 8]
  | 0x92 => opAny .accept [.sess, .step, .addrA]
  | 0x98 => opAdmin .accept [argBytes 48 10, .arg 58 1]
  | 0xA0 => opAdmin .seal_ [.addrA, argBytes 48 1]
  | 0xA1 => opAny .seal_ [.addrA, argBytes 48 2]
  | 0xA2 => opAny .accept [.addrA, argBytes 48 2]
  | _ => none

/-- The bits of ARG that a list of fields names, ARG read as one number from byte 48 on. -/
def argMask (names : List EntryField) : Nat :=
  names.foldl (fun acc f => match f with
    | .arg off mask => Nat.lor acc (mask * 2 ^ (8 * (off - 48)))
    | _ => acc) 0

/-- The entry is zero in `v` or names the field. -/
def named (names : List EntryField) (f : EntryField) (v : Nat) : Bool := v == 0 || names.contains f

/-- Every reserved field of the entry, and every field its opcode does not name, is 0 (R10). -/
def entryClear (i : OpInfo) (c : HostCmd) : Bool :=
  c.resv == 0 && c.stepHi == 0 && decide (c.flags < 4)
  && named i.names .sess (c.ns + c.sid) && named i.names .step c.step
  && named i.names .addrA c.addrA && named i.names .addrB c.addrB
  && named i.names .lenA c.lenA && named i.names .lenB c.lenB
  && Nat.land (unle c.arg) (argMask i.names) == unle c.arg

/-- Enter a boot stage: bit 1 of the GLB page's BLK_INT_STATUS is set (R640, R663). -/
def setStage (n : Nat) (d : Dev) : Dev := (d.set Reg.GLB_BOOT_STAGE n).raise 0 1

/-- The device is ready (R646). -/
def deviceReady (d : Dev) : Bool := d.get Reg.GLB_BOOT_STAGE == 6

/-- The general checks of an opcode at its acceptance (R10, R14, R97, R103, R646). -/
def generalChecks (d : Dev) (m : Cmd) : List (Bool × Nat) :=
  match opInfo m.c.opcode with
  | none => [(true, stInvalidOpcode)]
  | some i =>
    [(!entryClear i m.c, stReservedNonzero),
     (!deviceReady d, stNotReady),
     (i.m1Only && d.isM0, stUnsupported),
     (i.admin && !m.admin, stAdminRequired),
     (i.sq0 && m.c.sq != 0, stSq0Only)]

/-- The entry carries the opcode of its row. -/
def isOp (op : Nat) (m : Cmd) : List (Bool × Nat) := [(m.c.opcode != op, stInvalidOpcode)]

/-- The directory key that an entry names (R95, R123). -/
def cmdKey (c : HostCmd) : SessKey := ⟨c.ns, c.sid⟩

/-- One command taken whole: it is accepted, checked, and takes its effect (R103). `op` is the opcode of the row,
`checks` those of its owner at acceptance, `apply` the effect with its own later checks. -/
def hostRow (op : Nat) (checks : Dev → Cmd → List (Bool × Nat)) (apply : Cmd → Dev → Dev) (c : HostCmd) (d : Dev) : Dev :=
  let m := cmdOf d c
  guarded m (isOp op m ++ generalChecks d m ++ checks d m) (apply m)
    ({ d with host := { d.host with nextOrder := d.host.nextOrder + 1 } }.count
      (Reg.HOST_CMDS_ACCEPTED c.slot) 1)

/-- KEYS_DISABLED (R616). -/
def stKeysDisabled : Nat := 0x0808

/-- A command that reads T2, T3 or T4 is refused while the key rings are disabled (R613, R616). -/
def keysChecks (d : Dev) (_ : Cmd) : List (Bool × Nat) := [(d.sec.keysOff, stKeysDisabled)]

/-- No checks of its own. -/
def noChecks (_ : Dev) (_ : Cmd) : List (Bool × Nat) := []

end Sys2Proof.Machine
end

