-- ==== Sys2Proof/Machine/CkStore.lean ====
section
/-! DEFINITION. The places that checkpoint stores hold, and the objects that a capture holds (R516, R525, R527, R542). -/

namespace Sys2Proof.Machine

open Sys2Proof

/-- Replace the checkpoint state. -/
def setCkpt (c : CkptSt) (d : Dev) : Dev := { d with ckpt := c }

/-- The object a capture entry stands for: kind, namespace and number. -/
def ckKey (o : CkObj) : Nat × Nat × Nat := (o.kind, o.ns, o.object)

/-- A capture that is running: not yet committed. -/
def ckRunning (c : Capture) : Bool := !c.committed

/-- A capture has still to write a page: it is freed only when the capture releases it (R542). -/
def captureHolds (d : Dev) (id : Nat) : Bool :=
  d.ckpt.captures.any fun c => c.todo.any fun o => (o.kind == 5 || o.kind == 6) && o.object == id

/-- Bytes of a shard's manifest (R530). -/
def manifestLen (s : Shard) : Nat := 128 + 32 * s.entries.length + 40 * (s.entries.map fun o => o.chunks.length).sum

/-- The places that a shard holds: location and bytes of its chunks, and of its manifest once it is written. -/
def shardPlaces (s : Shard) : List (Nat × Nat) :=
  (s.entries.flatMap fun o => o.chunks.map fun c => (c.loc, c.len))
  ++ (if s.committed then [(s.manLoc, manifestLen s)] else [])

/-- The places in use in the store of a kind and target, each once (R516, R528). -/
def storePlaces (d : Dev) (kind target : Nat) : List (Nat × Nat) :=
  (((d.ckpt.shards.filter fun s => s.kind == kind && s.target == target).flatMap shardPlaces)
  ++ ((d.ckpt.captures.filter fun c => c.kind == kind && c.target == target).flatMap fun c =>
      ((c.shard.map shardPlaces).getD []) ++ c.chunks.map fun x => (x.loc, x.len))
  ++ ((d.ckpt.dedup.filter fun x => x.kind == kind && x.target == target).map fun x => (x.loc, x.len))).eraseDups

/-- Bytes in use in a store. -/
def storeUsed (d : Dev) (kind target : Nat) : Nat := ((storePlaces d kind target).map (·.2)).sum

/-- The places in T3 that checkpoint stores hold. -/
def storeT3 (d : Dev) : List (Nat × Nat) :=
  d.tier.t3.flatMap fun r => storePlaces d 2 r.num

end Sys2Proof.Machine
end

