-- ==== Sys2Proof/Machine/Tiers.lean ====
section
/-! DEFINITION. Promotion, demotion, T3 regions, range commands and weight windows (spec/11: R352-R389; R410-R414). -/

namespace Sys2Proof.Machine

open Sys2Proof

/-! ### Promotion (R359-R361) -/

/-- The object is being promoted. -/
def promoting (d : Dev) (o : ObjRef) : Bool := d.tier.promos.any fun p => p.obj == o

/-- The copy that a read of a T2 object takes: fewest hops, then lowest index, of those whose owner is PRESENT and has not
reported the object absent (R414). -/
def readCopy (d : Dev) (o : ObjRef) (locs : List Nat) : Option Nat :=
  let ok := locs.filter fun a => peerState d (addrModule a) == .present
    && !d.fab.absentAt.contains (o, addrModule a)
  let hops := fun a => ((routeEnt d (addrModule a)).map (·.hopsA)).getD 0
  ok.foldl (fun (acc : Option Nat) a =>
    match acc with
    | none => some a
    | some b => if hops a < hops b then some a else some b) none

/-- READs of the bytes of an object from a fabric address, 64 KiB each (R402, R403). -/
def readObject (use : TxnUse) (tc addr bytes keySlot : Nat) (d : Dev) : Dev :=
  forAll (List.range (ceilDiv bytes 65536)) (fun i e =>
    request use opRead tc (addr + 65536 * i) (min 65536 (bytes - 65536 * i)) keySlot [] e) d

/-- A promotion starts when the pool has room and the key rings are not disabled (R361, R613, R683): whether it runs, and the device. An object of T2 is read from
one of its copies. -/
def promoteStart (o : ObjRef) (d : Dev) : Bool × Dev :=
  match objView d o with
  | none => (true, d)
  | some v =>
    if v.tier < 2 ∨ v.tier = noTier ∨ promoting d o then (true, d)
    else if d.sec.keysOff then (true, d)
    else if ¬ poolRoom d v.part v.bytes then (false, d)
    else
      let (loc, d1) := poolAlloc v.part v.bytes d
      let d2 := setTier { d1.tier with promos := d1.tier.promos ++ [⟨o, v.tier, v.bytes, loc⟩] } d1
      if v.tier = 2 then
        match readCopy d2 o (copyLocs d2 v.loc v.copies v.copyIndex) with
        | some a => (true, readObject (.promote o) 4 a v.bytes v.keySlot d2)
        | none => (true, d2)
      else (true, d2)

/-- A promotion is dropped and its T1 bytes are returned (R382). -/
def promoteDrop (o : ObjRef) (d : Dev) : Dev :=
  match d.tier.promos.find? fun p => p.obj == o with
  | none => d
  | some p =>
    let part := match objView d o with
      | some v => v.part
      | none => 8
    poolGive part p.bytes (setTier { d.tier with promos := d.tier.promos.filter fun x => x.obj != o } d)

/-- PARTITION_PULL holds a partition (R386). -/
def pulled (d : Dev) (part : Nat) : Bool := d.tier.pulled.contains part

/-- The copy of a promotion is complete (R359): the object lies in T1 and the old copy is its backing copy. -/
def promoteDone (o : ObjRef) (d : Dev) : Dev :=
  match d.tier.promos.find? fun p => p.obj == o with
  | none => d
  | some p =>
    if d.fab.txns.any fun t => t.use == .promote o then d
    else
      let d1 := setTier { d.tier with promos := d.tier.promos.filter fun x => x.obj != o } d
      match objView d1 o with
      | none => d1
      | some v =>
        let d2 := (setObj o { v with
          tier := 1
          loc := p.loc
          backTier := v.tier
          backLoc := v.loc } d1).count Reg.STW_PROMOTED_BYTES p.bytes
        let d3 := if v.tier = 4 then t4Backing (v.loc / 16) true d2 else d2
        if pulled d3 v.part then dropBacking o d3 else d3

/-! ### T3 regions (R373) -/

/-- Location of a T3 byte (R346). -/
def t3Loc (slot addr : Nat) : Nat := addr % 2 ^ 52 + slot * 2 ^ 52

/-- Places in T3 that objects, their backing copies and demotions hold: location and bytes. -/
def t3Used (d : Dev) : List (Nat × Nat) :=
  ((allObjs d).flatMap fun o =>
    match objView d o with
    | none => []
    | some v => (if v.tier = 3 then [(v.loc, v.bytes)] else []) ++
        (if v.backTier = 3 then [(v.backLoc, v.bytes)] else []))
  ++ ((d.tier.demos.filter fun x => x.tier == 3).map fun x => (x.loc, x.bytes)) ++ storeT3 d

/-- A location lies in a region. -/
def inRegion (r : T3Region) (loc : Nat) : Bool :=
  decide (t3Loc r.slot r.base ≤ loc ∧ loc < t3Loc r.slot r.base + r.len)

/-- A region is being removed by T3_REMOVE. -/
def t3Leaving (d : Dev) (r : T3Region) : Bool :=
  d.tier.waiting.any fun m => m.c.opcode == 0x49 && argAt m.c 48 1 == r.num

/-- The lowest free place of `n` bytes in a region. -/
def t3AllocIn (d : Dev) (r : T3Region) (n : Nat) : Option Nat :=
    let used := t3Used d
    if t3Leaving d r then none
    else
      let base := t3Loc r.slot r.base
      let starts := base :: (used.filter fun u => inRegion r u.1).map fun u => roundUp 4096 (u.1 + u.2)
      (starts.filter fun s => decide (s + n ≤ base + r.len)
        && used.all fun u => decide (s + n ≤ u.1 ∨ u.1 + u.2 ≤ s)).min?

/-- The lowest free place of `n` bytes in the regions of a partition's own slots, in number order (R611). -/
def t3Alloc (d : Dev) (part n : Nat) : Option Nat :=
  (d.tier.t3.filter fun r => d.get (Reg.SLOT_PART r.slot) == part).findSome? fun r => t3AllocIn d r n

/-! ### Demotion (R365-R367) -/

/-- The steps that are planned or drafted read or write the object: a page or session memory of a session with a turn (R365). -/
def planNames (d : Dev) (o : ObjRef) : Bool :=
  d.sess.descs.any fun x => x.state == ssActive && x.turn.isSome && (match o with
    | .page id => x.table.any fun e => e.page == id
    | .granule part idx => x.isHome && x.part == part && x.smemBase != 0
        && (granulesOf x.smemBase x.smemLen).contains idx)

/-- An object that is no candidate (R165, R365, R386). -/
def demoteBarred (d : Dev) (o : ObjRef) : Bool :=
  match o with
  | .page id =>
    match findPage d id with
    | none => true
    | some p => p.cls == 4 || p.pinned || pulled d p.part || planNames d o
  | .granule part idx =>
    match findGranule d part idx with
    | none => true
    | some g => g.pinT1 || g.tier == noTier || g.lost || pulled d part || planNames d o

/-- A tier of a tier order has capacity now (R369, R387). -/
def tierThere (d : Dev) (t : Nat) : Bool := !tierAbsent d t

/-- Switch an object to its new tier and free the upper copy (R366). -/
def demoteSwitch (o : ObjRef) (tier loc copies idx : Nat) (clean : Bool) (d : Dev) : Dev :=
  match objView d o with
  | none => d
  | some v =>
    let back := v.backTier != noTier && !clean
    let d1 := setObj o { v with
      tier := tier
      loc := loc
      backTier := noTier
      backLoc := 0
      copies := copies
      copyIndex := idx } (if back then dropBacking o d else d)
    let d2 := freeCopy v.tier v.loc v.copies v.copyIndex v d1
    let d3 := if clean ∧ tier = 4 then t4Backing (loc / 16) false d2 else d2
    match o with
    | .page id =>
      match findPage d3 id with
      | some p => putPage { p with t0 := none } d3
      | none => d3
    | .granule _ _ => d3

/-- The first tier of the order that has room takes the object (R367): whether one did, and the device. -/
def demoteTry (o : ObjRef) (v : ObjView) (cmd : Option Cmd) (park : Option SessKey) (order : List Nat) (d : Dev) :
    Bool × Dev :=
  match order with
  | [] => (false, d)
  | t :: rest =>
    let rec_ := fun (loc : Nat) =>
      (⟨o, v.bytes, t, loc, 1, 0, rest, cmd, park⟩ : Demo)
    let add := fun (loc : Nat) (e : Dev) => setTier { e.tier with demos := e.tier.demos ++ [rec_ loc] } e
    let stays := t = v.tier ∧ ¬ (t = 3 ∧ cmd.any (fun m => m.c.opcode == 0x49))
    if ¬ tierThere d t ∨ stays then demoteTry o v cmd park rest d
    else if t = 2 then
      let (ok, d1) := placeStart (.demote o) (d.get Reg.FAB_COPY_T2) false 4 v.keySlot false false (objBytes d o) none d
      if ok then (true, add 0 d1) else demoteTry o v cmd park rest d
    else if t = 3 then
      match t3Alloc d v.part v.bytes with
      | some loc => (true, add loc d)
      | none => demoteTry o v cmd park rest d
    else if t = 4 ∧ t4Room d v.bytes then
      match t4Alloc v.bytes d with
      | (some u, d1) =>
        let d2 := flashWrite (.demote o) u (unitsOf v.bytes) v.bytes (add (16 * u) d1)
        if d.get Reg.FAB_COPY_T4 = 2 then
          (true, (placeStart (.demote o) 1 true 4 v.keySlot false false (objBytes d o) none d2).2)
        else (true, d2)
      | (none, _) => demoteTry o v cmd park rest d
    else demoteTry o v cmd park rest d

/-- A demotion of a candidate (R366, R367). -/
def demoteStart (o : ObjRef) (order : List Nat) (cmd : Option Cmd) (park : Option SessKey) (d : Dev) : Bool × Dev :=
  match objView d o with
  | none => (true, d)
  | some v =>
    if d.tier.demos.any (fun x => x.obj == o) ∨ promoting d o then (true, d)
    else if v.tier ≤ 1 ∧ v.backTier ≠ noTier ∧ order.contains v.backTier then
      (true, (demoteSwitch o v.backTier v.backLoc v.copies v.copyIndex true d).count Reg.STW_CLEAN_DEMOTIONS 1)
    else
      let (ok, d1) := demoteTry o v cmd park order d
      if ok then (true, d1)
      else
        let d2 := d.count Reg.STW_DEMOTE_NOROOM 1
        match park with
        | none => (false, d2)
        | some k =>
          let n := ((d2.tier.noRoom.find? fun x => x.1 == k).map (·.2)).getD 0
          (false, setTier { d2.tier with noRoom := (k, n + 1) :: d2.tier.noRoom.filter fun x => x.1 != k } d2)

/-- The write of a demotion is complete in its target tier: owners have sealed, or the programs are done (R366, R413). -/
def demoteWritten (d : Dev) (x : Demo) : Bool :=
  !(d.fab.placing.any fun p => p.what == .demote x.obj)
  && !(d.flash.writes.any fun w => w.use == .demote x.obj)

/-- DEMOTION_CONFIRMED (R366): the switch. -/
def demoteConfirm (o : ObjRef) (d : Dev) : Dev :=
  match d.tier.demos.find? fun x => x.obj == o with
  | none => d
  | some x =>
    if ¬ demoteWritten d x then d
    else
      (demoteSwitch o x.tier x.loc x.copies x.copyIndex false (setTier { d.tier with
        demos := d.tier.demos.filter fun y => y.obj != o } d)).count Reg.STW_DEMOTED_BYTES (x.bytes * x.copies)

/-- Every copy of a demotion's placement is sealed: its locations are recorded (R412, R413). -/
def demotePlaced (o : ObjRef) (p : Placing) (d : Dev) : Dev :=
  match d.tier.demos.find? fun x => x.obj == o with
  | none => d
  | some x =>
    let got := if p.flash then (0, x.loc) :: p.got else p.got
    let (loc, n, idx, d1) := recordCopies got d
    setTier { d1.tier with demos := d1.tier.demos.map fun y =>
      if y.obj == o then
        { y with
          loc := loc
          copies := n
          copyIndex := idx }
      else y } d1

/-- The placement of a demotion found no owner: the next tiers of its order are tried (R367, R411). -/
def demoteUnplaced (o : ObjRef) (d : Dev) : Dev :=
  match d.tier.demos.find? fun x => x.obj == o, objView d o with
  | some x, some v =>
    let d1 := setTier { d.tier with demos := d.tier.demos.filter fun y => y.obj != o }
      (forAll (d.fab.placing.filter fun p => p.what == .demote o)
        (fun p e => endPlacing p.id (forAll (p.got.map (·.2)) (fun a e2 => sendFree a v.keySlot e2) e)) d)
    if x.tier = 4 then (demoteStart o x.rest x.cmd x.park (t4Free (x.loc / 16) d1)).2
    else
      let (ok, d2) := demoteStart o x.rest x.cmd x.park d1
      match ok, x.cmd with
      | false, some m => failWith m stTierFull (setTier { d2.tier with
          waiting := d2.tier.waiting.filter fun w => !sameCmd w m } d2)
      | _, _ => d2
  | _, _ => d

/-! ### Commands that wait for their transfers (R374, R384, R386) -/

/-- Base and length of a range command (R383). -/
def rangeBase (c : HostCmd) : Nat := c.addrA
def rangeLen (c : HostCmd) : Nat := argAt c 48 8

/-- The objects of a partition that PARTITION_PULL empties the lower tiers of. -/
def partObjs (d : Dev) (part : Nat) : List ObjRef :=
  (allObjs d).filter fun o =>
    match objView d o with
    | some v => v.part == part
    | none => false

/-- An object has a copy in T2, T3 or T4. -/
def hasLower (d : Dev) (o : ObjRef) : Bool :=
  match objView d o with
  | some v => (decide (2 ≤ v.tier) && v.tier != noTier) || v.backTier != noTier
  | none => false

/-- Objects of a T3 region: authoritative there. -/
def regionObjs (d : Dev) (r : T3Region) : List ObjRef :=
  (allObjs d).filter fun o =>
    match objView d o with
    | some v => v.tier == 3 && inRegion r v.loc
    | none => false

/-- The backing copies that a T3 region holds are cleared (R374). -/
def regionBacking (r : T3Region) (d : Dev) : Dev :=
  forAll (allObjs d) (fun o e =>
    match objView e o with
    | some v => if v.backTier = 3 ∧ inRegion r v.backLoc then dropBacking o e else e
    | none => e) d

/-- Record the bytes and number of T3 regions (R389). -/
def t3Sync (d : Dev) : Dev :=
  (d.set Reg.STW_T3_BYTES ((d.tier.t3.map (·.len)).sum)).set Reg.STW_T3_REGIONS d.tier.t3.length

/-- A copy of class `cls` starts and gets an identifier (R363). -/
def copyStart (cls : Nat) (kind : CopyKind) (bytes : Nat) (d : Dev) : Dev :=
  setTier { d.tier with
    copies := d.tier.copies ++ [⟨d.tier.nextCopy, cls, kind, bytes, false⟩]
    nextCopy := d.tier.nextCopy + 1 } d

/-- A waiting command leaves the list. -/
def unwait (m : Cmd) (d : Dev) : Dev :=
  setTier { d.tier with waiting := d.tier.waiting.filter fun w => !sameCmd w m } d

/-- Look at a waiting command again. -/
def waiterStep (m : Cmd) (d : Dev) : Dev :=
  let busy := fun (gs : List Nat) => gs.any fun g =>
    promoting d (.granule m.part g) || d.tier.demos.any fun x => x.obj == .granule m.part g
  if m.c.opcode = 0x42 then
    if busy (granulesOf (rangeBase m.c) (rangeLen m.c)) then d else complete m stSuccess 0 0 [] (unwait m d)
  else if m.c.opcode = 0x43 then
    if busy (granulesOf m.c.addrA m.c.lenA) then d else copyStart 4 (.rangeIn m) m.c.lenA (unwait m d)
  else if m.c.opcode = 0x49 then
    match d.tier.t3.find? fun r => r.num == argAt m.c 48 1 with
    | none => complete m stSuccess 0 0 [] (unwait m d)
    | some r =>
      if (regionObjs d r).isEmpty then
        let e := regionBacking r d
        complete m stSuccess 0 0 [] (t3Sync (unwait m (setTier { e.tier with
          t3 := e.tier.t3.filter fun x => x.num != r.num } e)))
      else d
  else if m.c.opcode = 0x4A then
    if (partObjs d m.part).any (hasLower d) then d else complete m stSuccess 0 0 [] (unwait m d)
  else d

/-- Look at every waiting command again, after a transfer has ended. -/
def tierWaiters (d : Dev) : Dev := forAll d.tier.waiting waiterStep d

/-! ### Range commands (R352-R356, R384) -/

/-- A range breaks R384 or the session range. -/
def rangeBad (base len : Nat) : Bool := len == 0 || decide (2 ^ 52 < base + len)

/-- Granules that none, or some, of a predicate holds of. -/
def anyGranule (d : Dev) (part : Nat) (gs : List Nat) (p : Granule → Bool) : Bool :=
  gs.any fun i =>
    match findGranule d part i with
    | some g => p g
    | none => false

/-- A command would read T2, T3 or T4 while the key rings are disabled (R613, R616). -/
def keysCodes (d : Dev) (reads : Bool) : List (Bool × Nat) := [(d.sec.keysOff && reads, stKeysDisabled)]

/-- Some granule of a list lies in T2, T3 or T4. -/
def anyLower (d : Dev) (part : Nat) (gs : List Nat) : Bool := anyGranule d part gs fun g => decide (2 ≤ g.tier ∧ g.tier ≤ 4)

/-- Some granule of a list is unmapped. -/
def anyUnmapped (d : Dev) (part : Nat) (gs : List Nat) : Bool := gs.any fun i => (findGranule d part i).isNone

/-- A granule just mapped (R353, R356). -/
def newGranule (part idx : Nat) (pin window : Bool) : Granule :=
  ⟨part, idx, noTier, pin, window, false, noTier, 0, 1, 0, 0, 0⟩

/-- Checks of base and length. -/
def rangeFieldChecks (_ : Dev) (m : Cmd) : List (Bool × Nat) :=
  [(rangeBad (rangeBase m.c) (rangeLen m.c), stInvalidField),
   (decide (rangeBase m.c % granuleBytes ≠ 0 ∨ rangeLen m.c % granuleBytes ≠ 0), stRangeAlign)]

/-- RANGE_MAP (R353, R384). -/
def rangeMapApply (m : Cmd) (d : Dev) : Dev :=
  let gs := granulesOf (rangeBase m.c) (rangeLen m.c)
  guarded m [(anyGranule d m.part gs (fun _ => true), stRangeMapped)] (fun e =>
    let fresh := gs.map fun g => newGranule m.part g (bitAt (argAt m.c 56 1) 0) false
    complete m stSuccess 0 0 [] (setTier { e.tier with granules := e.tier.granules ++ fresh } e)) d

/-- A granule and its bytes are freed (R353). -/
def granuleFree (part idx : Nat) (d : Dev) : Dev :=
  let o := ObjRef.granule part idx
  let d1 := dropBacking o (demoteAbandon o (promoteDrop o d))
  match objView d1 o with
  | none => d1
  | some v =>
    let d2 := if v.tier = noTier then d1 else freeCopy v.tier v.loc v.copies v.copyIndex v d1
    let lo := rangeKey part (idx * granuleBytes)
    let left := d2.mem.range.filter fun x => !decide (lo ≤ x.1 ∧ x.1 < lo + granuleBytes)
    let d3 := { d2 with mem := { d2.mem with range := left } }
    setTier { d3.tier with granules := d3.tier.granules.filter fun g => !(g.part == part && g.idx == idx) } d3

/-- RANGE_UNMAP (R356, R375, R384). -/
def rangeUnmapApply (m : Cmd) (d : Dev) : Dev :=
  let gs := granulesOf (rangeBase m.c) (rangeLen m.c)
  guarded m [(anyUnmapped d m.part gs, stRangeUnmapped), (anyGranule d m.part gs (·.hostWindow), stRangePinned)] (fun e =>
    tierWaiters (complete m stSuccess 0 0 [] (forAll gs (granuleFree m.part) e))) d

/-- Checks of RANGE_PLACE at acceptance (R383). -/
def rangePlaceChecks (d : Dev) (m : Cmd) : List (Bool × Nat) :=
  (!decide (1 ≤ argAt m.c 56 1 ∧ argAt m.c 56 1 ≤ 4), stInvalidField) :: rangeFieldChecks d m

/-- T1 bytes that granules need before they can be written or kept in T1 (R683). -/
def granulesNeed (d : Dev) (part : Nat) (fresh : Bool) (gs : List Nat) : Nat :=
  granuleBytes * (gs.filter fun i =>
    match findGranule d part i with
    | some g => (decide (2 ≤ g.tier ∧ g.tier ≤ 4) && !promoting d (.granule part i))
        || (fresh && g.tier == noTier && !g.hostWindow)
    | none => false).length

/-- RANGE_PLACE (R356, R384): the granules are promoted, or demoted under R366 to the one tier named. -/
def rangePlaceApply (m : Cmd) (d : Dev) : Dev :=
  let gs := granulesOf (rangeBase m.c) (rangeLen m.c)
  let t := argAt m.c 56 1
  let up := t == 1
  let pin := bitAt (argAt m.c 57 1) 0
  guarded m
    ([(anyUnmapped d m.part gs, stRangeUnmapped),
      (anyGranule d m.part gs (·.hostWindow), stRangePinned),
      (anyGranule d m.part gs (·.lost), stRangeLost),
      (up && !poolRoom d m.part (granulesNeed d m.part false gs), stTierFull),
      (!up && tierAbsent d t, stTierAbsent)]
      ++ keysCodes d (anyGranule d m.part gs fun g => decide (2 ≤ g.tier ∧ g.tier ≤ 4 ∧ g.tier ≠ t))) (fun e =>
    let w := fun (x : Dev) => setTier { x.tier with waiting := x.tier.waiting ++ [m] } x
    if up then
      let e1 := setTier { e.tier with granules := e.tier.granules.map fun g =>
        if g.part == m.part && gs.contains g.idx then { g with pinT1 := pin } else g } e
      tierWaiters (w (forAll gs (fun i x => (promoteStart (.granule m.part i) (demoteAbandon (.granule m.part i) x)).2) e1))
    else
      let todo := gs.filter fun i => !demoteBarred e (.granule m.part i)
        && !(findGranule e m.part i).any fun g => g.tier == t
      let r := todo.foldl (fun (acc : Bool × Dev) i =>
        let x := demoteStart (.granule m.part i) [t] (some m) none acc.2
        (acc.1 && x.1, x.2)) (true, w e)
      if r.1 then tierWaiters r.2 else failWith m stTierFull (unwait m r.2)) d

/-- Checks of RANGE_COPY_IN and RANGE_COPY_OUT at acceptance. -/
def rangeCopyChecks (_ : Dev) (m : Cmd) : List (Bool × Nat) := [(rangeBad m.c.addrA m.c.lenA, stInvalidField)]

/-- RANGE_COPY_IN (R348, R384, R683). -/
def rangeCopyInApply (m : Cmd) (d : Dev) : Dev :=
  let gs := granulesOf m.c.addrA m.c.lenA
  guarded m
    ([(anyUnmapped d m.part gs, stRangeUnmapped), (anyGranule d m.part gs (·.lost), stRangeLost),
      (!poolRoom d m.part (granulesNeed d m.part true gs), stTierFull)] ++ keysCodes d (anyLower d m.part gs)) (fun e =>
    tierWaiters (forAll gs (fun i x =>
      let o := ObjRef.granule m.part i
      match findGranule x m.part i with
      | some g =>
        if g.tier = noTier then granuleTouch m.part i x else (promoteStart o (demoteAbandon o x)).2
      | none => x) (setTier { e.tier with waiting := e.tier.waiting ++ [m] } e))) d

/-- RANGE_COPY_OUT (R89, R384). -/
def rangeCopyOutApply (m : Cmd) (d : Dev) : Dev :=
  let gs := granulesOf m.c.addrA m.c.lenA
  guarded m ([(anyUnmapped d m.part gs, stRangeUnmapped), (anyGranule d m.part gs (·.lost), stRangeLost)]
      ++ keysCodes d (anyLower d m.part gs)) (fun e =>
    copyStart 4 (.rangeOut m) m.c.lenA (flushRange m.part m.c.addrA m.c.lenA e)) d

/-- The bytes of a range copy arrive (R384); a granule that has been unmapped since takes none. -/
def rangeCopied (m : Cmd) (out : Bool) (d : Dev) : Dev :=
  if out then complete m stSuccess 0 0 [(m.c.addrB, readRange d m.part m.c.addrA m.c.lenA)] d
  else if anyUnmapped d m.part (granulesOf m.c.addrA m.c.lenA) then failWith m stRangeUnmapped d
  else complete m stSuccess 0 0 [] (deviceWrite m.part m.c.addrA (padTo m.c.lenA m.c.dataB) d)

/-! ### Park policies and T3 regions (R368, R369, R373, R374) -/

/-- Checks of PARK_POLICY_SET at acceptance. -/
def parkPolicyChecks (d : Dev) (m : Cmd) : List (Bool × Nat) :=
  let n := argAt m.c 48 1
  let ts := [byteAt m.c.dataA 0, byteAt m.c.dataA 1, byteAt m.c.dataA 2]
  let named := ts.filter (· != 0xFF)
  [(n == 0 || decide (16 ≤ n), stInvalidField),
   (d.isM0 && ts.contains 4, stUnsupported),
   (!named.all (fun t => [2, 3, 4].contains t)
      || !(ts.take named.length == named) || decide (named.eraseDups.length < named.length)
      || byteAt m.c.dataA 3 != 0 || !allZero ((m.c.dataA.drop 8).take 8), stPolicyInvalid)]

/-- PARK_POLICY_SET (R368). -/
def parkPolicyApply (m : Cmd) (d : Dev) : Dev :=
  let ts := ([byteAt m.c.dataA 0, byteAt m.c.dataA 1, byteAt m.c.dataA 2]).filter (· != 0xFF)
  complete m stSuccess 0 0 [] (setTier { d.tier with
    policies := assocSet d.tier.policies (argAt m.c 48 1) ⟨ts, fieldAt m.c.dataA 4 4⟩ } d)

/-- T3_ADD (R373): a region of the issuing slot's memory. -/
def t3AddApply (m : Cmd) (d : Dev) : Dev :=
  let base := m.c.addrA
  let len := argAt m.c 48 8
  let slot := m.c.slot
  let bad := decide (base % granuleBytes ≠ 0 ∨ len % granuleBytes ≠ 0 ∨ len = 0 ∨ 2 ^ 52 < base + len
    ∨ 64 ≤ d.tier.t3.length)
    || d.tier.t3.any fun r => r.slot == slot && decide (base < r.base + r.len ∧ r.base < base + len)
  guarded m [(bad, stT3RegionInvalid)] (fun e =>
    let n := ((List.range 64).find? fun i => !(e.tier.t3.any fun r => r.num == i)).getD 0
    complete m stSuccess n 0 [] (t3Sync (setTier { e.tier with t3 := e.tier.t3 ++ [⟨n, slot, base, len⟩] } e))) d

/-- The tier order of STW_PRESSURE_POLICY (R371, R389). -/
def pressureOrder (d : Dev) : List Nat :=
  policyOrder d (if d.get Reg.STW_PRESSURE_POLICY = 0 then 1 else d.get Reg.STW_PRESSURE_POLICY)

/-- T3_REMOVE (R374): authoritative objects move out, and backing copies in the region are cleared. -/
def t3RemoveApply (m : Cmd) (d : Dev) : Dev :=
  match d.tier.t3.find? fun r => r.num == argAt m.c 48 1 with
  | none => failWith m stT3RegionInvalid d
  | some r =>
    guarded m (keysCodes d (!(regionObjs d r).isEmpty)) (fun d0 =>
      let d1 := regionBacking r (setTier { d0.tier with waiting := d0.tier.waiting ++ [m] } d0)
      let res := (regionObjs d1 r).foldl (fun (acc : Bool × Dev) o =>
        let x := demoteTry o ((objView acc.2 o).getD ⟨0, 0, 0, 0, 0, 0, 0, 0, 0⟩) (some m) none (pressureOrder acc.2) acc.2
        (acc.1 && x.1, x.2)) (true, d1)
      if res.1 then tierWaiters res.2 else failWith m stTierFull (unwait m res.2)) d

/-- PARTITION_PULL (R386). -/
def partitionPullApply (m : Cmd) (d : Dev) : Dev :=
  let low := fun (o : ObjRef) => match objView d o with
    | some v => decide (2 ≤ v.tier ∧ v.tier ≤ 4)
    | none => false
  guarded m (keysCodes d ((partObjs d m.part).any low)) (fun d0 =>
    let d1 := setTier { d0.tier with
      pulled := if d0.tier.pulled.contains m.part then d0.tier.pulled else d0.tier.pulled ++ [m.part]
      waiting := d0.tier.waiting ++ [m] } d0
    let res := (partObjs d1 m.part).foldl (fun (acc : Bool × Dev) o =>
      let e := demoteAbandon o acc.2
      match objView e o with
      | none => acc
      | some v =>
        if 2 ≤ v.tier ∧ v.tier ≤ 4 then
          let x := promoteStart o e
          (acc.1 && x.1, x.2)
        else (acc.1, dropBacking o e)) (true, d1)
    if res.1 then tierWaiters res.2 else failWith m stTierFull (unwait m res.2)) d

/-! ### Models (R376-R379, R385) -/

/-- Bytes of a slice's layers: the elements and scales of the tensors that belong to a layer. -/
def layerBytes (h : ImageHdr) (img : Bytes) (l : Nat) : Nat :=
  ((tensorDir h img).filter fun e => e.layer == l).foldl (fun acc e =>
    acc + match fmtOfCode e.format with
      | some f => tensorBytes f e.rows e.cols + (if f = .bf16 then 0 else e.rows * e.cols / 32)
      | none => 0) 0

/-- T1 bytes of a load (R376): the whole image, or what lies outside the layers and 2W layer slots. -/
def loadBytes (h : ImageHdr) (img : Bytes) (w : Nat) : Nat :=
  if w = 0 then img.length
  else
    let ls := (List.range h.layers).map (layerBytes h img)
    img.length - ls.sum + 2 * w * ls.foldl max 0

/-- The image that MODEL_LOAD names: at a T2 source, or in host memory. -/
def loadImage (c : HostCmd) : Bytes := if c.addrB = 0 then c.dataA else c.dataB

/-- The T3 region of the issuing slot that holds the image. -/
def loadRegion (d : Dev) (c : HostCmd) : Bool :=
  d.tier.t3.any fun r => r.slot == c.slot && decide (r.base ≤ c.addrA ∧ c.addrA + c.lenA ≤ r.base + r.len)

/-- Checks of MODEL_LOAD at acceptance: the mode, W and the source of a window. -/
def modelLoadChecks (d : Dev) (m : Cmd) : List (Bool × Nat) :=
  let window := argAt m.c 48 1 == 1
  let w := argAt m.c 49 1
  [(decide (2 ≤ argAt m.c 48 1) || (window && !decide (1 ≤ w ∧ w ≤ 32)) || (!window && w != 0), stInvalidField),
   (window && m.c.addrB == 0 && !d.tier.t3.isEmpty && !loadRegion d m.c, stInvalidField),
   (window && m.c.addrB == 0 && d.tier.t3.isEmpty, stTierAbsent),
   (m.c.addrB != 0 && !routed d, 0x0400)]

/-- The model that a checked image and its load give (R376). -/
def modelOf (m : Cmd) (h : ImageHdr) (img : Bytes) (w : Nat) : Model :=
  { handle := h.handle
    layers := h.layers
    hidden := h.hidden
    qHeads := h.qHeads
    kvHeads := (sliceKv h).2
    kvHeadsAll := h.kvHeads
    headDim := h.headDim
    vocab := h.vocab
    kvFormat := h.kvFormat
    group := h.group
    slice := h.slice
    members := h.members
    attn := (attnRecs h img).map fun r =>
      (r.scoreScale, r.maskKind, r.outFormat, r.window, r.sink, r.maskHandle)
    len := img.length
    content := sha256 img
    bytes := loadBytes h img w
    window := w
    srcTier := if w = 0 then 1 else if m.c.addrB = 0 then 3 else 2
    src := if m.c.addrB = 0 then m.c.addrA else m.c.addrB
    srcSlot := m.c.slot
    srcLost := false
    filled := if w = 0 then [] else List.range (2 * w)
    nextFill := if w = 0 then 0 else 2 * w
    part := m.part }

/-- MODEL_LOAD at the seal (R249, R376, R379, R385, R683): the model is known from here on, and its copy starts. -/
def modelLoadApply (m : Cmd) (d : Dev) : Dev :=
  let img := loadImage m.c
  match imageCheck d.self img with
  | none => failWith m stModelInvalid d
  | some h =>
    let w := if argAt m.c 48 1 = 1 ∧ 2 * argAt m.c 49 1 < h.layers then argAt m.c 49 1 else 0
    let old := d.tier.models.find? fun x => x.handle == h.handle
    guarded m
      ([(!poolRoom d m.part (loadBytes h img w), stTierFull),
        (old.any (fun x => x.group != h.group || x.members != h.members), stModelInvalid),
        (old.any (fun x => !x.srcLost), stModelExists)]
        ++ keysCodes d (m.c.addrB != 0 || argAt m.c 48 1 == 1)) (fun e =>
      let e1 := match old with
        | some y => poolGive y.part y.bytes e
        | none => e
      copyStart 4 (.image m h.handle) img.length (poolTake m.part (loadBytes h img w) (setTier { e1.tier with
        models := e1.tier.models.filter (fun y => y.handle != h.handle) ++ [modelOf m h img w] } e1))) d

/-- The image is in place (R376). -/
def modelLoaded (m : Cmd) (handle : Nat) (d : Dev) : Dev := complete m stSuccess handle 0 [] d

/-- The image of a model is still being copied. -/
def modelLoading (d : Dev) (h : Nat) : Bool := d.tier.copies.any fun c => match c.kind with
  | .image _ x => x == h
  | _ => false

/-- A model by handle. -/
def findModel (d : Dev) (h : Nat) : Option Model := d.tier.models.find? fun x => x.handle == h

/-- MODEL_UNLOAD (R385). -/
def modelUnloadApply (m : Cmd) (d : Dev) : Dev :=
  let h := argAt m.c 56 8
  match findModel d h with
  | none => failWith m 0x0209 d
  | some x =>
    guarded m [(d.sess.descs.any (fun s => s.model == h && s.state != ssFree && s.state != ssExpired), stModelInUse)]
      (fun e => complete m stSuccess 0 0 [] (poolGive x.part x.bytes (setTier { e.tier with
        models := e.tier.models.filter fun y => y.handle != h } e))) d

/-- The half and slot of a layer in its window (R377). -/
def windowSlot (w l : Nat) : Nat × Nat := (l / w % 2, l % w)

/-- WEIGHT_WINDOW_FILL (R377, R378): the next layer takes its slot once the running steps have finished the last layer of the
half; a layer launch that waited for it proceeds. -/
def weightFill (h l : Nat) (d : Dev) : Dev :=
  match findModel d h with
  | none => d
  | some x =>
    if x.window = 0 ∨ x.srcLost ∨ d.sec.keysOff ∨ x.nextFill % x.layers ≠ l then d
    else
      let out := x.filled.filter fun y => windowSlot x.window y == windowSlot x.window l
      let busy := out.any fun y => d.run.steps.any fun s =>
        s.started && !s.committed && decide (s.layer ≤ (y / x.window + 1) * x.window - 1)
        && d.sess.descs.any fun q => q.sid == s.key.sid && q.ns == s.key.ns && q.model == h
      if busy then d
      else
        let y := { x with
          filled := x.filled.filter (fun z => !out.contains z) ++ [l]
          nextFill := (l + 1) % x.layers }
        setRun { d.run with waitWeights := d.run.waitWeights.filter (· != (h, l)) }
          (setTier { d.tier with models := d.tier.models.map fun z => if z.handle = h then y else z } d)

/-- The source of windowed images is lost (R379). -/
def sourcesLost (lost : Model → Bool) (d : Dev) : Dev :=
  forAll (d.tier.models.filter fun x => decide (0 < x.window) && !x.srcLost && lost x) (fun x e =>
    forAll (slotNumbers.filter (slotAdmin e)) (fun n e2 => postEvent n 0 evModelSourceLost 0 x.handle 0 0 e2)
      (setTier { e.tier with models := e.tier.models.map fun z =>
        if z.handle = x.handle then { z with srcLost := true } else z } e)) d

/-- The T3 regions of a lost slot (R375, R382): demotions into them are abandoned, a granule falls back to its backing copy or
is LOST, and so do backing copies end; the pages that are lost come back for their sessions. -/
def t3SlotLost (slot : Nat) (d : Dev) : List Nat × Dev :=
  let mine := fun loc => d.tier.t3.any fun r => r.slot == slot && inRegion r loc
  let d1 := forAll ((d.tier.demos.filter fun x => x.tier == 3 && mine x.loc).map (·.obj)) demoteAbandon d
  let d2 := forAll (allObjs d1) (fun o e =>
    match objView e o with
    | some v =>
      let e1 := if v.backTier = 3 ∧ mine v.backLoc then setObj o { v with
        backTier := noTier
        backLoc := 0 } e else e
      match o with
      | .page _ => e1
      | .granule p i =>
        if v.tier = 3 ∧ mine v.loc then
          if v.backTier ≠ noTier then setObj o { v with
            tier := v.backTier
            loc := v.backLoc
            backTier := noTier
            backLoc := 0 } e1
          else
            match findGranule e1 p i with
            | some g => putGranule { g with lost := true } (promoteDrop o e1)
            | none => e1
        else e1
    | none => e) d1
  let pages := (d2.kv.pages.filter fun p => p.tier == 3 && mine p.loc).map (·.id)
  (pages, sourcesLost (fun x => x.srcTier == 3 && x.srcSlot == slot) (t3Sync (setTier { d2.tier with
    t3 := d2.tier.t3.filter fun r => r.slot != slot } d2)))

/-! ### The meanings -/

def execRangeMap (c : HostCmd) (s : State) : Host.Outcome State Fault Refusal :=
  s.run (hostRow 0x40 rangeFieldChecks rangeMapApply c)
def execRangeUnmap (c : HostCmd) (s : State) : Host.Outcome State Fault Refusal :=
  s.run (hostRow 0x41 rangeFieldChecks rangeUnmapApply c)
def execRangePlace (c : HostCmd) (s : State) : Host.Outcome State Fault Refusal :=
  s.run (hostRow 0x42 rangePlaceChecks rangePlaceApply c)
def execRangeCopyIn (c : HostCmd) (s : State) : Host.Outcome State Fault Refusal :=
  s.run (hostRow 0x43 rangeCopyChecks rangeCopyInApply c)
def execRangeCopyOut (c : HostCmd) (s : State) : Host.Outcome State Fault Refusal :=
  s.run (hostRow 0x44 rangeCopyChecks rangeCopyOutApply c)
def execModelLoad (c : HostCmd) (s : State) : Host.Outcome State Fault Refusal :=
  s.run (hostRow 0x45 modelLoadChecks modelLoadApply c)
def execModelUnload (c : HostCmd) (s : State) : Host.Outcome State Fault Refusal :=
  s.run (hostRow 0x46 noChecks modelUnloadApply c)
def execParkPolicySet (c : HostCmd) (s : State) : Host.Outcome State Fault Refusal :=
  s.run (hostRow 0x47 parkPolicyChecks parkPolicyApply c)
def execT3Add (c : HostCmd) (s : State) : Host.Outcome State Fault Refusal := s.run (hostRow 0x48 noChecks t3AddApply c)
def execT3Remove (c : HostCmd) (s : State) : Host.Outcome State Fault Refusal :=
  s.run (hostRow 0x49 noChecks t3RemoveApply c)
def execPartitionPull (c : HostCmd) (s : State) : Host.Outcome State Fault Refusal :=
  s.run (hostRow 0x4A noChecks partitionPullApply c)
def execDemotionConfirmed (obj : ObjRef) (s : State) : Host.Outcome State Fault Refusal :=
  s.run fun d => tierWaiters (demoteConfirm obj d)
def execHostMemRead (slot addr : Nat) (own : Bool) (s : State) : Host.Outcome State Fault Refusal :=
  s.run (hostMemRead slot addr own)
def execHostMemWrite (slot addr : Nat) (data : Bytes) (s : State) : Host.Outcome State Fault Refusal :=
  s.run (hostMemWrite slot addr data)
end Sys2Proof.Machine
end

