-- ==== Sys2Proof/Machine/Kv.lean ====
section
/-! DEFINITION. Key-value pages: making, sharing, cutting and releasing them, prefix blocks and compaction (spec/05). -/

namespace Sys2Proof.Machine

open Sys2Proof

/-! ### Descriptors -/

/-- The descriptor of a session on this module. -/
def findDesc (d : Dev) (k : SessKey) : Option Desc :=
  d.sess.descs.find? fun x => x.sid == k.sid && x.ns == k.ns && x.state != ssFree

/-- The key of a descriptor. -/
def descKey (x : Desc) : SessKey := ⟨x.ns, x.sid⟩

/-- Put back a descriptor. -/
def putDesc (x : Desc) (d : Dev) : Dev :=
  setSess { d.sess with descs := d.sess.descs.map fun y => if y.index == x.index then x else y } d

/-- Change the descriptor of a session, where there is one. -/
def onDesc (k : SessKey) (f : Desc → Desc) (d : Dev) : Dev :=
  match findDesc d k with
  | none => d
  | some x => putDesc (f x) d

/-! ### Pages -/

/-- Capacity of a class (R164). -/
def classCap (c : Nat) : Nat := 2 ^ c

/-- Bytes of a page of a class for a model (R169). -/
def classBytes (x : Model) (c : Nat) : Nat := pageAlloc x.layers x.kvHeads x.headDim x.kvFormat c

/-- Bytes of a page of a class for a session; 0 when its model is not loaded. -/
def sessPageBytes (d : Dev) (x : Desc) (c : Nat) : Nat :=
  match findModel d x.model with
  | none => 0
  | some m => classBytes m c

/-- The Gallery a session is placed on (R567); 0 before its first placement. -/
def sessGallery (d : Dev) (k : SessKey) : Nat := ((d.part.placed.find? fun p => p.1 == k).map (·.2)).getD 0

/-- Bytes of the T1 pages of a list that lie on an HBM stack. -/
def bytesOnStack (s : Nat) (ps : List Page) : Nat :=
  ((ps.filter fun p => decide (p.tier ≤ 1) && p.stack == s).map pageSize).sum

/-- The stack of eight with the most bytes of a session's T1 pages, the lower first (R567). -/
def fullestStack (ps : List Page) : Option Nat :=
  (List.range 8).foldl (fun (acc : Option Nat) s =>
    if bytesOnStack s ps = 0 then acc
    else match acc with
      | none => some s
      | some t => if bytesOnStack t ps < bytesOnStack s ps then some s else some t) none

/-- The session's pages on this module. -/
def sessPages (d : Dev) (x : Desc) : List Page := (x.table.map (·.page)).filterMap (findPage d)

/-- The stack of a die with the fewest page bytes, the lower first (R568, log entry 21). -/
def leastStack (d : Dev) (die : Nat) : Nat :=
  [1, 2, 3].foldl (fun s i =>
    if bytesOnStack (4 * die + i) d.kv.pages < bytesOnStack s d.kv.pages then 4 * die + i else s) (4 * die)

/-- The stack of a new page (R568): the home stack, or of the Gallery's die the one with the fewest page bytes; a stack
without room gives way to the next of its die, and then to the other die. -/
def newStack (d : Dev) (x : Desc) (n : Nat) : Nat :=
  let room := fun s => decide (bytesOnStack s d.kv.pages + n ≤ 68719476736)
  let die := sessGallery d (descKey x) / 64
  let home := (fullestStack (sessPages d x)).getD (leastStack d die)
  if room home then home
  else
    let same := (List.range 4).map fun i => home / 4 * 4 + i
    let other := (List.range 4).map fun i => 4 - home / 4 * 4 + i
    ((same ++ other).find? room).getD home

/-- A new page in T1 with one reference (R169, R177): its PAGE_ID, and the device. -/
def newPage (x : Desc) (cls first : Nat) (prior toks : List Nat) (d : Dev) : Nat × Dev :=
  let id := d.self * 2 ^ 54 + d.kv.nextPage
  let m := findModel d x.model
  let (loc, d1) := poolAlloc x.part (sessPageBytes d x cls) d
  let p : Page :=
    { id := id
      cls := cls
      fmt := (m.map (·.kvFormat)).getD 0
      layers := (m.map (·.layers)).getD 0
      heads := (m.map (·.kvHeads)).getD 0
      headDim := (m.map (·.headDim)).getD 0
      firstPos := first
      valid := toks.length
      epoch := d.get Reg.CKPT_EPOCH
      model := x.model
      tokens := toks
      prior := prior
      profile := x.profile
      part := x.part
      keySlot := x.keySlot
      planes := none
      count := 1
      tier := 1
      loc := loc
      backTier := noTier
      backLoc := 0
      t0 := none
      copies := 1
      copyIndex := 0
      pinned := false
      stack := newStack d x (sessPageBytes d x cls)
      sealRefs := 1 }
  (id, setKv { d1.kv with
    pages := d1.kv.pages ++ [p]
    nextPage := d1.kv.nextPage + 1 } d1)

/-- Change a page. -/
def onPage (id : Nat) (f : Page → Page) (d : Dev) : Dev :=
  match findPage d id with
  | none => d
  | some p => putPage (f p) d

/-- Take and release a reference (R178, R180). -/
def refPage (id : Nat) (d : Dev) : Dev := onPage id (fun p => { p with count := p.count + 1 }) d
def unrefPage (id : Nat) (d : Dev) : Dev := onPage id (fun p => { p with count := p.count - 1 }) d

/-- Free a page with all its copies (R180, R382). -/
def freePage (id : Nat) (d : Dev) : Dev :=
  let o := ObjRef.page id
  let d1 := dropBacking o (demoteAbandon o (promoteDrop o d))
  match objView d1 o with
  | none => d1
  | some v =>
    let d2 := freeCopy (if v.tier = 0 then 1 else v.tier) v.loc v.copies v.copyIndex v d1
    setKv { d2.kv with pages := d2.kv.pages.filter fun p => p.id != id } d2

/-- Pages whose count is 0 are freed, but for those of a build and those that a capture holds (R180, R191,
R542). -/
def sweepPages (d : Dev) : Dev :=
  let kept := d.kv.builds.flatMap (·.new_)
  forAll ((d.kv.pages.filter fun p => p.count == 0 && !kept.contains p.id && !captureHolds d p.id).map (·.id)) freePage d

/-- The end of a seal (R180): pages that it released are freed, and the counts of the others are those that it leaves. -/
def pagesSeal (d : Dev) : Dev :=
  let d1 := sweepPages d
  setKv { d1.kv with pages := d1.kv.pages.map fun p => { p with sealRefs := p.count } } d1

/-- Release every page entry of a list. -/
def unrefAll (l : List PageEnt) (d : Dev) : Dev := forAll (l.map (·.page)) unrefPage d

/-! ### Layout (R171-R173) -/

/-- Long pages of `c` tokens from `pos` on, classes `n` down to 6: class and position of each, and what is left. -/
def longLayout (fuel n pos c : Nat) : List (Nat × Nat) × Nat × Nat :=
  match fuel with
  | 0 => ([], pos, c)
  | k + 1 =>
    if n < 6 then ([], pos, c)
    else if 2 ^ n ≤ c then
      let r := longLayout k n (pos + 2 ^ n) (c - 2 ^ n)
      ((n, pos) :: r.1, r.2)
    else longLayout k (n - 1) pos c

/-- Short pages of `c` tokens from `pos` on: position and tokens. -/
def shortLayout (fuel pos c : Nat) : List (Nat × Nat) :=
  match fuel with
  | 0 => []
  | k + 1 => if c = 0 then [] else (pos, min 16 c) :: shortLayout k (pos + min 16 c) (c - min 16 c)

/-- New pages for `c` tokens at `pos`: class, position and tokens of each. -/
def pageLayout (pos c : Nat) : List (Nat × Nat × Nat) :=
  let r := longLayout (c / 64 + 9) 13 pos c
  r.1.map (fun x => (x.1, x.2, 2 ^ x.1)) ++ (shortLayout 8 r.2.1 r.2.2).map fun x => (4, x.1, x.2)

/-- A page entry of a table (R174). -/
def pageEnt (first cls valid id : Nat) : PageEnt := ⟨first, cls, valid, id, false, false, false, false⟩

/-- The session's open page: the last page when it is short and not full (R173). -/
def openPage (x : Desc) : Option PageEnt :=
  match x.table.getLast? with
  | some e => if e.cls = 4 ∧ e.valid < 16 then some e else none
  | none => none

/-- The page is shared (R178): it has more references than one, or had at the last seal. -/
def pageShared (p : Page) : Bool := decide (1 < p.count ∨ 1 < p.sealRefs)

/-- Tokens that the session's pages hold; the drawn tokens of the last step follow at its next (R172, log entry 22). -/
def kvLen (x : Desc) : Nat :=
  match x.table.getLast? with
  | some e => e.firstPos + e.valid
  | none => 0

/-- Append tokens to the open page, on a private copy when it is shared (R172, R178): the entry, and the device. -/
def appendOpen (x : Desc) (e : PageEnt) (toks : List Nat) (hist : List Nat) (d : Dev) : PageEnt × Dev :=
  match findPage d e.page with
  | none => (e, d)
  | some p =>
    let held := p.tokens.take e.valid
    if pageShared p then
      let (id, d1) := newPage x 4 e.firstPos (hist.take e.firstPos) (held ++ toks) (unrefPage e.page d)
      ({ e with
         valid := e.valid + toks.length
         page := id
         prefixRef := false
         region := false
         forked := false }, d1.count Reg.KV_COW_COPIES 1)
    else
      ({ e with valid := e.valid + toks.length },
       dropBacking (.page e.page) (putPage { p with
         tokens := held ++ toks
         prior := hist.take e.firstPos
         valid := e.valid + toks.length
         epoch := d.get Reg.CKPT_EPOCH
         planes := none } d))

/-- Lay out the tokens from `pos` to the end of `hist` in the session's table (R172, R173). -/
def appendPages (x : Desc) (hist : List Nat) (pos : Nat) (d : Dev) : Desc × Dev :=
  let c := hist.length - pos
  let r := match openPage x with
    | some e =>
      let f := min (16 - e.valid) c
      let (e1, d1) := appendOpen x e ((hist.drop pos).take f) hist d
      ({ x with table := x.table.dropLast ++ [e1] }, f, d1)
    | none => (x, 0, d)
  (pageLayout (pos + r.2.1) (c - r.2.1)).foldl (fun acc l =>
    let (id, d1) := newPage acc.1 l.1 l.2.1 (hist.take l.2.1) ((hist.drop l.2.1).take l.2.2) acc.2
    ({ acc.1 with table := acc.1.table ++ [pageEnt l.2.1 l.1 l.2.2 id] }, d1)) (r.1, r.2.2)

/-- T1 bytes that `c` more tokens can need: new pages, a private copy and a page-table node (R372). -/
def appendNeed (d : Dev) (x : Desc) (c : Nat) : Nat :=
  let short := sessPageBytes d x 4
  let f := match openPage x with
    | some e => min (16 - e.valid) c
    | none => 0
  let copy := match openPage x with
    | some e => if (findPage d e.page).any pageShared then short else 0
    | none => 0
  copy + 4096 + ((pageLayout 0 (c - f)).map fun l => sessPageBytes d x l.1).sum

/-- Cut a table at `len` tokens: the entries kept, and those released (R180). -/
def cutTable (t : List PageEnt) (len : Nat) : List PageEnt × List PageEnt :=
  let kept := t.filter fun e => decide (e.firstPos < len)
  (kept.map fun e => { e with valid := min e.valid (len - e.firstPos) }, t.filter fun e => decide (len ≤ e.firstPos))

/-- Lower a session's table to `len` tokens (R180); the shared page's header is unchanged (R178). -/
def rewindPages (x : Desc) (len : Nat) (d : Dev) : Desc × Dev :=
  let (kept, gone) := cutTable x.table len
  ({ x with table := kept }, unrefAll gone d)

/-! ### Prefix blocks (R181-R187) -/

/-- Hashes of the complete blocks of a token list (R181). -/
def prefixHashes (model part profile fmt : Nat) (toks : List Nat) : List Nat :=
  let seed := le 8 model ++ le 1 part ++ le 1 (profile % 2) ++ le 1 fmt ++ zeros 5
  let h0 := unle ((sha256 seed).take 8)
  ((List.range (toks.length / 16)).foldl (fun (acc : List Nat × Nat) b =>
    let msg := le 8 acc.2 ++ (((toks.drop (16 * b)).take 16).map (le 4)).flatten
    let h := unle ((sha256 msg).take 8)
    (acc.1 ++ [h], h)) ([], h0)).1

/-- KV format of a session's model. -/
def sessFormat (d : Dev) (x : Desc) : Nat := ((findModel d x.model).map (·.kvFormat)).getD 0

/-- Record the blocks completed beyond those already recorded or matched (R182, R338). `from_` is the first block. -/
def recordBlocks (x : Desc) (from_ : Nat) (d : Dev) : Desc × Dev :=
  let hs := prefixHashes x.model x.part x.profile (sessFormat d x) (x.tokens.take x.ctxLen)
  ((List.range hs.length).filter fun b => decide (from_ ≤ b)).foldl (fun acc b =>
    let h := (hs[b]?).getD 0
    let key := prefixKeyWord b h
    if (dirFind acc.2 nt1 key).isSome then acc
    else
      let d1 := newelInsert nt1 key (resPrefix x.index b) acc.2
      if (dirFind d1 nt1 key).isSome then ({ acc.1 with blocks := acc.1.blocks ++ [(b, h)] }, d1) else (acc.1, d1)) (x, d)

/-- Delete a prefix entry that names the session's descriptor; one that another session has recorded since stays (R183, R336). -/
def dropPrefix (index key : Nat) (d : Dev) : Dev :=
  when ((dirFind d nt1 key).any fun w => resDesc w == index) (newelDelete nt1 key) d

/-- Remove the entries of this session's blocks that are not complete within `len` tokens (R183). -/
def dropBlocks (x : Desc) (len : Nat) (d : Dev) : Desc × Dev :=
  let gone := x.blocks.filter fun b => decide (len < 16 * b.1 + 16)
  ({ x with blocks := x.blocks.filter fun b => decide (16 * b.1 + 16 ≤ len) },
   forAll gone (fun b e => dropPrefix x.index (prefixKeyWord b.1 b.2) e) d)

/-- Walk the hashes from block `b` on: number of hits and the registrant of the last (R184, R339). -/
def matchWalk (d : Dev) (hs : List Nat) (b : Nat) (last : Option Nat) : Nat × Option Nat × Dev :=
  match hs with
  | [] => (b, last, d)
  | h :: r =>
    let (res, d1) := newelLookup nt1 (prefixKeyWord b h) d
    match res with
    | none => (b, last, d1)
    | some w =>
      if d1.sess.descs.any (fun y => y.index == resDesc w && y.state == ssMigrating) then (b, last, d1)
      else matchWalk d1 r (b + 1) (some (resDesc w))

/-- Pages that a match references: wholly within `m` tokens, equal in their tokens, and with room in their count; and why it
ends (R179, R185, R186). -/
def matchPages (toks : List Nat) (m : Nat) (t : List PageEnt) (d : Dev) : List PageEnt × MatchEnd :=
  match t with
  | [] => ([], .covered)
  | e :: r =>
    if m < e.firstPos + e.valid then ([], .covered)
    else
      match findPage d e.page with
      | none => ([], .covered)
      | some p =>
        if p.tokens.take e.valid ≠ (toks.drop e.firstPos).take e.valid then ([], .differs)
        else if 65535 ≤ p.count then ([], .saturated)
        else
          let k := matchPages toks m r d
          (e :: k.1, k.2)

/-- The turn may begin with a prefix match: at home, from CTX_LEN 0, without a region, before its first step (R184). -/
def mayMatch (x : Desc) : Bool :=
  x.isHome && x.state == ssActive && x.ctxLen == 0 && x.table.isEmpty
    && x.turn.any fun t => t.cmd.isSome && t.matched == 0 && t.tried.isNone

/-- The prefix match of a turn, made in the order of the seal's commands (R180, R184-R186): the session references the pages. What
the lookups count is counted when the match stands. -/
def prefixTry (k : SessKey) (d : Dev) : Dev :=
  match findDesc d k with
  | none => d
  | some x =>
    match x.turn with
    | none => d
    | some t =>
      if ¬ mayMatch x then d
      else
        let hs := prefixHashes x.model x.part x.profile (sessFormat d x) t.input
        let (n, reg, _) := matchWalk d hs 0 none
        match reg.bind fun i => d.sess.descs.find? fun y => y.index == i with
        | none => putDesc { x with turn := some { t with tried := some .covered } } d
        | some y =>
          let (es, why) := matchPages t.input (16 * n) y.table d
          let es1 := es.map fun e => { e with
            prefixRef := true
            region := false
            forked := false
            staged := false }
          let x1 := { x with
            table := es1
            turn := some { t with
              matched := ((es.getLast?).map fun e => e.firstPos + e.valid).getD 0
              tried := some why } }
          forAll (es.map (·.page)) refPage (putDesc x1 d)

/-- The descriptor without a match that has not come to stand. -/
def untried (x : Desc) : Desc :=
  match x.turn with
  | some t => if t.tried.isSome then { x with
      table := []
      turn := some { t with
        matched := 0
        tried := none } } else x
  | none => x

/-- The seal did not admit the turn's first step: its match is given up, to be made anew at the seal of that step's plan. -/
def prefixUndo (k : SessKey) (d : Dev) : Dev :=
  match findDesc d k with
  | none => d
  | some x => if x.turn.any fun t => t.tried.isSome then unrefAll x.table (putDesc (untried x) d) else d

/-- The match stands: its lookups, its tokens and what ended it are counted (R179, R185, R193). -/
def prefixStands (k : SessKey) (d : Dev) : Dev :=
  match findDesc d k with
  | none => d
  | some x =>
    match x.turn.bind fun t => t.tried.map fun w => (t, w) with
    | none => d
    | some (t, w) =>
      let (_, _, d1) := matchWalk d (prefixHashes x.model x.part x.profile (sessFormat d x) t.input) 0 none
      let d2 := match w with
        | .covered => d1
        | .differs => d1.count Reg.KV_PREFIX_COLLISIONS 1
        | .saturated => d1.count Reg.KV_REF_SATURATED 1
      (putDesc { x with turn := some { t with tried := none } } d2).count Reg.KV_PREFIX_HIT_TOKENS t.matched

/-! ### Compaction (R188-R191) -/

/-- Runs of short pages of a table: maximal, split at the positions of `cuts`, a page that a cut lies strictly inside
belonging to none (R189). -/
def shortRuns (cuts : List Nat) (acc : List PageEnt) (t : List PageEnt) : List (List PageEnt) :=
  let flush := if acc.isEmpty then [] else [acc]
  match t with
  | [] => flush
  | e :: r =>
    if e.cls ≠ 4 ∨ cuts.any (fun p => decide (e.firstPos < p ∧ p < e.firstPos + e.valid)) then flush ++ shortRuns cuts [] r
    else if cuts.contains e.firstPos then flush ++ shortRuns cuts [e] r
    else shortRuns cuts (acc ++ [e]) r

/-- The runs that compaction takes (R189). -/
def compactRuns (x : Desc) (park : Bool) : List (List PageEnt) :=
  let runs := shortRuns (x.prevCtxLen :: x.turnStarts.map (·.2)) [] x.table
  if park then runs
  else runs.filter fun r => r.all fun e => decide (e.firstPos + e.valid ≤ x.prevCtxLen)

/-- Tokens of a run. -/
def runTokens (r : List PageEnt) : Nat := (r.map (·.valid)).sum

/-- Pages of a run's build: class, position and tokens (R189, R190). -/
def runLayout (r : List PageEnt) (park : Bool) : List (Nat × Nat × Nat) :=
  let pos := ((r.head?).map (·.firstPos)).getD 0
  let l := longLayout (runTokens r / 64 + 9) 13 pos (runTokens r)
  l.1.map (fun x => (x.1, x.2, 2 ^ x.1)) ++ (if park ∧ l.2.2 ≠ 0 then [(6, l.2.1, l.2.2)] else [])

/-- Start the build of one run when the pool has room (R191, R683). -/
def compactRun (x : Desc) (park pressure : Bool) (r : List PageEnt) (d : Dev) : Dev :=
  let lay := runLayout r park
  let first := ((r.head?).map (·.firstPos)).getD 0
  let endPos := ((lay.getLast?).map fun l => l.2.1 + l.2.2).getD first
  let old := (r.filter fun e => decide (e.firstPos + e.valid ≤ endPos)).map (·.page)
  if lay.isEmpty ∨ d.kv.builds.any (fun b => b.key == descKey x && b.run == first)
      ∨ ¬ poolRoom d x.part ((lay.map fun l => sessPageBytes d x l.1).sum) then d
  else
    let (ids, d1) := lay.foldl (fun (acc : List Nat × Dev) l =>
      let (id, e) := newPage x l.1 l.2.1 (x.tokens.take l.2.1) ((x.tokens.drop l.2.1).take l.2.2) acc.2
      (acc.1 ++ [id], unrefPage id e)) ([], d)
    setKv { d1.kv with builds := d1.kv.builds ++ [⟨descKey x, first, first, endPos, old, ids, park, pressure, false⟩] } d1

/-- Compact a session (R188). -/
def compactStart (k : SessKey) (park pressure : Bool) (d : Dev) : Dev :=
  match findDesc d k with
  | none => d
  | some x => forAll (compactRuns x park) (fun r e => compactRun x park pressure r e) d

/-- Abandon builds of a session that `p` selects; their pages are freed (R191). -/
def compactAbandon (k : SessKey) (p : KvBuild → Bool) (d : Dev) : Dev :=
  setKv { d.kv with builds := d.kv.builds.filter fun b => !(b.key == k && p b) } d

/-- COMPACTION_DONE: the pages of a run are complete; they are swapped in at the next seal (R191). -/
def compactDone (k : SessKey) (run : Nat) (d : Dev) : Dev :=
  setKv { d.kv with builds := d.kv.builds.map fun b => if b.key == k && b.run == run then { b with done := true } else b } d

/-- Swap in one completed run at a seal (R191). -/
def compactSwap (b : KvBuild) (d : Dev) : Dev :=
  let d0 := setKv { d.kv with builds := d.kv.builds.filter fun y => y != b } d
  match findDesc d0 b.key with
  | none => forAll b.new_ freePage d0
  | some x =>
    let ents := b.new_.filterMap fun id => (findPage d0 id).map fun p => pageEnt p.firstPos p.cls p.valid id
    let t := x.table.filter (fun e => decide (e.firstPos < b.firstPos)) ++ ents
      ++ x.table.filter fun e => decide (b.endPos ≤ e.firstPos)
    (forAll b.old unrefPage (forAll b.new_ refPage (putDesc { x with table := t } d0))).count Reg.KV_COMPACTIONS 1

/-- Completed runs are swapped in (R191), and sessions with 512 or more short pages begin a compaction (R188). -/
def compactSeal (d : Dev) : Dev :=
  let d1 := forAll (d.kv.builds.filter (·.done)) compactSwap d
  forAll (d1.sess.descs.filter fun x => (x.state == ssActive || x.state == ssStopped)
      && decide (512 ≤ (x.table.filter fun e => e.cls == 4).length))
    (fun x e => compactStart (descKey x) false false e) d1

/-- A promoted long page that is a session's last and not full becomes short pages holding the same tokens (R192). -/
def splitPromoted (id : Nat) (d : Dev) : Dev :=
  match findPage d id with
  | none => d
  | some p =>
    let users := d.sess.descs.filter fun x =>
      match x.table.getLast? with
      | some e => e.page == id && decide (e.cls ≠ 4 ∧ e.valid < classCap e.cls)
      | none => false
    if p.tier ≠ 1 then d
    else
      sweepPages (forAll users (fun x e =>
        match x.table.getLast? with
        | none => e
        | some l =>
          let lay := shortLayout (l.valid / 16 + 1) l.firstPos l.valid
          let (t, e1) := lay.foldl (fun (acc : List PageEnt × Dev) s =>
            let (n, e2) := newPage x 4 s.1 (x.tokens.take s.1) ((x.tokens.drop s.1).take s.2) acc.2
            (acc.1 ++ [pageEnt s.1 4 s.2 n], e2)) (x.table.dropLast, e)
          unrefPage id (putDesc { x with table := t } e1)) d)

/-! ### The meanings -/

def execCompactionDone (key : SessKey) (run : Nat) (s : State) : Host.Outcome State Fault Refusal :=
  s.run (compactDone key run)
def execPromotionComplete (obj : ObjRef) (s : State) : Host.Outcome State Fault Refusal :=
  s.run fun d =>
    let d1 := promoteDone obj d
    tierWaiters (match obj with
      | .page id => if promoting d obj && !promoting d1 obj then splitPromoted id d1 else d1
      | .granule _ _ => d1)
def execBackingLookupDone (table key : Nat) (s : State) : Host.Outcome State Fault Refusal := s.run (backingDone table key)
def execNewelShadowScrub (row : Nat) (found : EccFind) (s : State) : Host.Outcome State Fault Refusal :=
  s.run (shadowScrub row found)

end Sys2Proof.Machine
end

