-- ==== Sys2Proof/Machine/Push.lean ====
section
/-! DEFINITION. Layer-by-layer KV push, sender and receiver (spec/12: R416-R418). -/

namespace Sys2Proof.Machine

open Sys2Proof

/-- Bytes of a push buffer, and of one PUSH_DATA (R393, R416). -/
def pushBytes : Nat := 16777216
def pushPiece : Nat := 65536

/-- Where a push buffer's bytes are kept. -/
def pushKey (buf : Nat) : Nat := 2 ^ 53 + buf * pushBytes

/-- Global address of a byte of a push buffer (R391). -/
def pushAddr (module_ buf off : Nat) : Nat := globalAddr spPush module_ (buf * pushBytes + off)

/-! ### The sender (R416, R417) -/

/-- Header and token array of a page: what precedes its planes (R169). -/
def pageHeadLen (cls : Nat) : Nat := 64 + 4 * classCap cls

/-- Plane `l` of a page. -/
def pagePlane (d : Dev) (p : Page) (l : Nat) : Bytes :=
  let n := planeStride (classCap p.cls) p.heads p.headDim p.fmt
  ((pageImage d p).drop (pageHeadLen p.cls + l * n)).take n

/-- The parts of a push, each of at most one buffer, with the layers that must have started before it (R417). -/
def pushParts (d : Dev) (ids : List Nat) : List (Nat × Bytes) :=
  let ps := ids.filterMap (findPage d)
  let cut := fun (g : Nat) (b : Bytes) => (chunks (b.length / pushBytes + 1) pushBytes b).map fun c => (g, c)
  let layers := ((ps.head?).map (·.layers)).getD 0
  cut 0 ((ps.map fun p => (pageImage d p).take (pageHeadLen p.cls)).flatten)
    ++ (List.range layers).flatMap fun l => cut (l + 1) ((ps.map fun p => pagePlane d p l).flatten)

/-- Put back a push. -/
def putPush (p : PushOut) (d : Dev) : Dev :=
  setFab { d.fab with pushOut := d.fab.pushOut.map fun x => if x.key == p.key then p else x } d

/-- What a PUSH_OPEN tells the receiver: the session, the number of pages and their T1 bytes (log entry 17). -/
def pushOpenPayload (p : PushOut) : Bytes := le 2 p.key.ns ++ le 8 p.key.sid ++ le 4 p.pages ++ le 8 p.bytes

/-- A push has sent everything; the forwarded command whose inputs it carried follows (R125). -/
def pushEnd (p : PushOut) (d : Dev) : Dev :=
  let d1 := setFab { d.fab with pushOut := d.fab.pushOut.filter fun x => x.key != p.key } d
  match p.fwd with
  | some (tag, m) => sendMsg p.dst (.forward tag m.part m.c m.inbox) d1
  | none => d1

/-- Ask for a buffer when the next part may be sent (R416, R417). -/
def pushAdvance (k : SessKey) (d : Dev) : Dev :=
  match d.fab.pushOut.find? fun p => p.key == k with
  | none => d
  | some p =>
    match p.parts with
    | [] => pushEnd p d
    | (g, _) :: _ =>
      if p.busy ∨ p.reached < g then d
      else request (.push k) opPushOpen 3 (globalAddr spPush p.dst 0) 0 p.keySlot (pushOpenPayload p)
        (putPush { p with busy := true } d)

/-- A push of a session's pages begins (R137, R416). -/
def pushStart (k : SessKey) (dst keySlot : Nat) (ids : List Nat) (d : Dev) : Dev :=
  let bytes := (ids.filterMap (findPage d)).map pageSize
  pushAdvance k (setFab { d.fab with
    pushOut := d.fab.pushOut ++ [⟨k, dst, keySlot, ids.length, bytes.sum, pushParts d ids, 0, false, false, none⟩] } d)

/-- The key under which the inputs of a forwarded command are pushed. -/
def inputKey (tag : Nat) (m : Cmd) : SessKey := ⟨65536 + tag, m.c.sid⟩

/-- The inputs of a forwarded command go ahead of it in TC3 (R125). -/
def pushInputs (dst tag : Nat) (m : Cmd) (b : Bytes) (d : Dev) : Dev :=
  let k := inputKey tag m
  let parts := (chunks (b.length / pushBytes + 1) pushBytes b).map fun c => ((0 : Nat), c)
  pushAdvance k (setFab { d.fab with
    pushOut := d.fab.pushOut ++ [⟨k, dst, 0, 0, b.length, parts, 0, false, false, some (tag, m)⟩] } d)

/-- The inputs of a forwarded command cannot be sent: it completes with a code; false for another push. -/
def inputsFail (k : SessKey) (status : Nat) (d : Dev) : Bool × Dev :=
  match (d.fab.pushOut.find? fun p => p.key == k).bind (·.fwd) with
  | some (tag, m) => (true, failWith m status (setFab { d.fab with
      pushOut := d.fab.pushOut.filter fun x => x.key != k
      forwards := d.fab.forwards.filter fun y => y.1 != tag } d))
  | none => (false, d)

/-- A buffer is granted: it is filled, and closed (R416). -/
def pushGranted (k : SessKey) (buf : Nat) (d : Dev) : Dev :=
  match d.fab.pushOut.find? fun p => p.key == k with
  | none => d
  | some p =>
    match p.parts with
    | [] => d
    | (_, b) :: rest =>
      let cs := chunks (b.length / pushPiece + 1) pushPiece b
      let d1 := (cs.zip (List.range cs.length)).foldl (fun e c =>
        request (.push k) opPushData 3 (pushAddr p.dst buf (pushPiece * c.2)) 0 p.keySlot c.1 e)
        (putPush { p with
          parts := rest
          opened := true } d)
      request (.push k) opPushClose 3 (pushAddr p.dst buf 0) 0 p.keySlot [] d1

/-- A buffer has drained: the next part follows. -/
def pushDrained (k : SessKey) (d : Dev) : Dev :=
  match d.fab.pushOut.find? fun p => p.key == k with
  | none => d
  | some p => pushAdvance k (putPush { p with busy := false } d)

/-- A push is given up. -/
def pushStop (k : SessKey) (d : Dev) : Dev :=
  setFab { d.fab with pushOut := d.fab.pushOut.filter fun x => x.key != k } d

/-- LAYER_START of layer `l` in the running tick releases the planes of layers up to it (R417). -/
def pushLayer (l : Nat) (d : Dev) : Dev :=
  forAll (d.fab.pushOut.map (·.key)) pushAdvance (setFab { d.fab with
    pushOut := d.fab.pushOut.map fun p => { p with reached := max p.reached (l + 1) } } d)

/-- A tick begins: no layer of it has started. -/
def pushTick (d : Dev) : Dev :=
  setFab { d.fab with pushOut := d.fab.pushOut.map fun p => { p with reached := 0 } } d

/-! ### The receiver (R416, R418) -/

/-- The lowest free buffer. -/
def pushFree (d : Dev) : Option Nat :=
  (List.range 64).find? fun b => !(d.fab.push.any fun x => x.buf == b)

/-- The session that a PUSH_OPEN names. -/
def pushOpenKey (t : FabTxn) : SessKey := ⟨fieldAt t.payload 0 2, fieldAt t.payload 2 8⟩

/-- Grant a buffer to a PUSH_OPEN, reserving T1 for the pages of a push that begins (R416, R418, R683). -/
def pushGrant (t : FabTxn) (buf : Nat) (d : Dev) : Dev :=
  let k := pushOpenKey t
  let known := d.fab.pushIn.any fun p => p.src == t.src && p.key == k
  let n := fieldAt t.payload 14 8
  if ¬ known ∧ ¬ poolRoom d 8 n then answer t fsNoSpace 0 [] d
  else
    let d1 := if known then d else poolTake 8 n (setFab { d.fab with
      pushIn := d.fab.pushIn ++ [⟨t.src, k, t.keySlot, fieldAt t.payload 10 4, [], [], [], n⟩] } d)
    answer t fsOk buf [] (setFab { d1.fab with push := d1.fab.push ++ [⟨buf, t.src, k⟩] } d1)

/-- PUSH_OPEN (R416): it waits while every buffer is held. -/
def pushOpenRx (t : FabTxn) (d : Dev) : Dev :=
  if t.resv ∨ t.payload.length ≠ 22 then answer t fsMalformed 0 [] d
  else if addrModule t.addr ≠ d.self ∨ addrSpace t.addr ≠ spPush ∨ addrOffset t.addr ≠ 0 ∨ ¬ d.fab.pushTaken then
    answer t fsAddrInvalid 0 [] d
  else
    match (if d.fab.pushWait.isEmpty then pushFree d else none) with
    | some b => pushGrant t b d
    | none => (setFab { d.fab with pushWait := d.fab.pushWait ++ [t] } d).count Reg.FAB_PUSH_WAIT 1

/-- A page whose header and tokens have arrived is allocated in T1 with a new PAGE_ID (R418). -/
def pushPage (x : PushIn) (b : Bytes) (d : Dev) : Nat × Dev :=
  let id := d.self * 2 ^ 54 + d.kv.nextPage
  let cls := byteAt b 8
  let (i, d1) := d.fresh
  let part := ((List.range 8).find? fun p => d.get (Reg.SEC_PART_KEY p) == 64 + x.keySlot).getD 8
  let p : Page :=
    { id := id
      cls := cls
      fmt := byteAt b 9
      layers := fieldAt b 10 2
      heads := fieldAt b 12 2
      headDim := fieldAt b 14 2
      firstPos := fieldAt b 16 4
      valid := fieldAt b 20 2
      epoch := fieldAt b 24 4
      model := fieldAt b 32 8
      tokens := (List.range (fieldAt b 20 2)).map fun j => fieldAt b (64 + 4 * j) 4
      prior := []
      profile := 0
      part := part
      keySlot := x.keySlot
      planes := some []
      count := 1
      tier := 1
      loc := Config.hbmAddr i % 2 ^ 39
      backTier := noTier
      backLoc := 0
      t0 := none
      copies := 1
      copyIndex := 0
      pinned := true
      stack := leastStack d 0
      sealRefs := 1 }
  let n := pageSize p
  (id, setKv { d1.kv with
    pages := d1.kv.pages ++ [p]
    nextPage := d1.kv.nextPage + 1 } (if part < 8 then poolTake part n (poolGive 8 n d1) else d1))

/-- The next page that a plane is due for: planes come layer by layer, each layer page by page (R417). -/
def pushNext (x : PushIn) (d : Dev) : Option Page :=
  let ps := x.pages.filterMap (findPage d)
  let got := fun (p : Page) => ((x.planes.find? fun e => e.1 == p.id).map (·.2.length)).getD 0
  let due := ps.filter fun p => decide (got p < p.layers * planeStride (classCap p.cls) p.heads p.headDim p.fmt)
  due.foldl (fun (acc : Option Page) p =>
    match acc with
    | none => some p
    | some q => if got p / planeStride (classCap p.cls) p.heads p.headDim p.fmt
        < got q / planeStride (classCap q.cls) q.heads q.headDim q.fmt then some p else some q) none

/-- Take what the received bytes complete: headers first, then planes. -/
def pushParse (fuel : Nat) (x : PushIn) (d : Dev) : PushIn × Dev :=
  match fuel with
  | 0 => (x, d)
  | k + 1 =>
    if 0 < x.headers then
      let n := pageHeadLen (byteAt x.rest 8)
      if x.rest.length < 64 ∨ x.rest.length < n then (x, d)
      else
        let (id, d1) := pushPage x (x.rest.take n) d
        pushParse k { x with
          headers := x.headers - 1
          pages := x.pages ++ [id]
          planes := x.planes ++ [(id, [])]
          rest := x.rest.drop n } d1
    else
      match pushNext x d with
      | none => (x, d)
      | some p =>
        let n := planeStride (classCap p.cls) p.heads p.headDim p.fmt
        if x.rest.length < n then (x, d)
        else pushParse k { x with
          planes := x.planes.map fun e => if e.1 = p.id then (e.1, e.2 ++ x.rest.take n) else e
          rest := x.rest.drop n } d

/-- A pushed page is complete when all its planes have arrived (R418). A push without pages carries the inputs of a command,
which takes them. -/
def pushComplete (x : PushIn) (d : Dev) : Bool :=
  x.headers == 0 && !x.pages.isEmpty && (pushNext x d).isNone

/-- A forwarded command takes the inputs that were pushed ahead of it, and their T1 bytes are returned (R125, R683). -/
def inputsTake (src sid : Nat) (d : Dev) : Option Bytes × Dev :=
  match d.fab.pushIn.find? fun x => x.src == src && x.key.sid == sid && x.headers == 0 && x.pages.isEmpty with
  | some x => (some x.rest, poolGive 8 x.reserve (setFab { d.fab with pushIn := d.fab.pushIn.erase x } d))
  | none => (none, d)

/-- The planes received become those of the pages. -/
def pushSettle (x : PushIn) (d : Dev) : Dev :=
  if pushComplete x d then
    setFab { d.fab with pushIn := d.fab.pushIn.filter fun y => !(y.src == x.src && y.key == x.key) }
      (setKv { d.kv with pages := d.kv.pages.map fun p =>
        match x.planes.find? fun e => e.1 == p.id with
        | some e => { p with
            planes := some e.2
            pinned := false }
        | none => p } d)
  else setFab { d.fab with pushIn := d.fab.pushIn.map fun y => if y.src == x.src && y.key == x.key then x else y } d

/-- The buffer that a PUSH address names, when its sender holds it. -/
def pushHeld (t : FabTxn) (d : Dev) : Option PushBuf :=
  if addrModule t.addr ≠ d.self ∨ addrSpace t.addr ≠ spPush ∨ 2 ^ 30 ≤ addrOffset t.addr then none
  else d.fab.push.find? fun x => x.buf == addrOffset t.addr / pushBytes && x.src == t.src

/-- PUSH_DATA (R416-R418): bytes go into the granted buffer, and pages whose headers arrive are allocated. -/
def pushDataRx (t : FabTxn) (d : Dev) : Dev :=
  match pushHeld t d with
  | none => answer t fsAddrInvalid 0 [] d
  | some b =>
    let off := addrOffset t.addr % pushBytes
    if t.resv ∨ pushPiece < t.payload.length then answer t fsMalformed 0 [] d
    else if pushBytes < off + t.payload.length then answer t fsAddrInvalid 0 [] d
    else
      let d1 := (writeExport (pushKey b.buf + off) t.payload d).count Reg.NME_BYTES t.payload.length
      match d1.fab.pushIn.find? fun x => x.src == b.src && x.key == b.key with
      | none => answer t fsOk 0 [] d1
      | some x =>
        let (y, d2) := pushParse (x.rest.length + t.payload.length + 1) { x with rest := x.rest ++ t.payload } d1
        answer t fsOk 0 [] (pushSettle y d2)

/-- PUSH_CLOSE (R416): the buffer's contents have been copied into T1; the first sender that waits gets the lowest free
buffer. -/
def pushCloseRx (t : FabTxn) (d : Dev) : Dev :=
  match pushHeld t d with
  | none => answer t fsAddrInvalid 0 [] d
  | some b =>
    if t.resv then answer t fsMalformed 0 [] d
    else
      let lo := pushKey b.buf
      let left := d.mem.export_.filter fun c => !decide (lo ≤ c.1 ∧ c.1 < lo + pushBytes)
      let d1 := answer t fsOk 0 [] (setFab { d.fab with push := d.fab.push.filter fun x => x.buf != b.buf }
        { d with mem := { d.mem with export_ := left } })
      match d1.fab.pushWait, pushFree d1 with
      | w :: rest, some f => pushGrant w f (setFab { d1.fab with pushWait := rest } d1)
      | _, _ => d1

/-- Everything of a push from a module that is lost is dropped (R423, R425). -/
def pushSrcLost (src : Nat) (d : Dev) : Dev :=
  let mine := d.fab.pushIn.filter fun x => x.src == src
  let d1 := forAll (mine.flatMap (·.pages)) freePage d
  setFab { d1.fab with
    pushIn := d1.fab.pushIn.filter fun x => x.src != src
    push := d1.fab.push.filter fun x => x.src != src
    pushWait := d1.fab.pushWait.filter fun t => t.src != src } d1

end Sys2Proof.Machine
end

