-- ==== Sys2Proof/Machine/Sess.lean ====
section
/-! DEFINITION. Sessions: descriptors, states, timers, rewind, regions, and the session commands (spec/04). -/

namespace Sys2Proof.Machine

open Sys2Proof

/-- Session status codes (R159) and text status codes (R315). -/
def stSessionUnknown : Nat := 0x0200
def stSessionExists : Nat := 0x0201
def stSessionState : Nat := 0x0202
def stSessionTableFull : Nat := 0x0203
def stSessionMigrating : Nat := 0x0204
def stSessionExpired : Nat := 0x0205
def stRewindTarget : Nat := 0x0206
def stForkLimit : Nat := 0x0207
def stHomeInvalid : Nat := 0x0208
def stModelUnknown : Nat := 0x0209
def stRingsMissing : Nat := 0x020A
def stPublishStale : Nat := 0x020B
def stPublishConflict : Nat := 0x020C
def stRegionUnknown : Nat := 0x020D
def stTurnEnded : Nat := 0x020E
def stTextInvalid : Nat := 0x0500
def stTokenRange : Nat := 0x0501
def stVocabMissing : Nat := 0x0502
def stGrammarUnknown : Nat := 0x0507
def stStopsetUnknown : Nat := 0x050B

/-- Stop reasons (R128). -/
def srNone : Nat := 0
def srEndToken : Nat := 1
def srStopString : Nat := 2
def srTokenLimit : Nat := 3
def srStopCommand : Nat := 4
def srGrammarDead : Nat := 5
def srTextInvalid : Nat := 6
def srStepError : Nat := 7
def srPagesLost : Nat := 8
def srRewindCommand : Nat := 9

/-- Session events (R160, R110, R316). -/
def evHostLost : Nat := 0x0180
def evRewound : Nat := 0x0280
def evSessionExpired : Nat := 0x0281
def evSessionFreed : Nat := 0x0282
def evSessionParked : Nat := 0x0283
def evMigrated : Nat := 0x0284
def evGrammarDead : Nat := 0x0580
def evInputReplaced : Nat := 0x0581

/-! ### Rings and events -/

/-- Slot and number of a descriptor's stream ring and event ring (R139). -/
def streamSlot (x : Desc) : Nat := x.streamRing / 1024 % 16
def streamId (x : Desc) : Nat := x.streamRing % 1024
def eventSlot (x : Desc) : Nat := x.eventRing / 256 % 16
def eventId (x : Desc) : Nat := x.eventRing % 256

/-- Ring fields name a stream ring and an event ring that are bound to slots (R136, R687). -/
def ringsOk (d : Dev) (stream event : Nat) : Bool :=
  slotBound d (stream / 1024 % 16) && (findRing d .stream (stream / 1024 % 16) (stream % 1024)).isSome
  && slotBound d (event / 256 % 16) && (findRing d .event (event / 256 % 16) (event % 256)).isSome

/-- Post a session event (R113, R160). -/
def sessEvent (x : Desc) (code detail step : Nat) (d : Dev) : Dev :=
  if slotBound d (eventSlot x) ∧ (findRing d .event (eventSlot x) (eventId x)).isSome then
    postEvent (eventSlot x) (eventId x) code detail x.sid step 0 d
  else
    let r := postPartition x.part code detail x.sid step 0 d
    if r.1 then r.2
    else if code = evHostLost then onDesc (descKey x) (fun y => { y with hostLost := some detail }) d
    else d.count Reg.SESS_EVENTS_DISCARDED 1

/-! ### States and timers -/

/-- The first boundary of the grid in force at or after a counter value. -/
def gridFrom (d : Dev) (at_ : Nat) : Nat :=
  at_ + (((d.get Reg.TICK_EPOCH : Int) - at_) % (max 1 (d.get Reg.TICK_PERIOD_NS) : Nat)).toNat

/-- Start of the tick being planned: what the timers are evaluated against (R131, R150). After a correction it is the first
boundary at which a period of elapsed time has passed (R56). -/
def nextTickStart (d : Dev) : Nat :=
  if ¬ d.tick.running then d.now
  else if d.tick.corrected then gridFrom d (d.now + (d.get Reg.TICK_PERIOD_NS - (d.clock - d.tick.startLocal)))
  else d.tick.start + d.tick.period

/-- A session changes state; entering ACTIVE clears TIMER_START, leaving it starts the timers (R149). -/
def enterState (k : SessKey) (st reason : Nat) (d : Dev) : Dev :=
  onDesc k (fun x => { x with
    state := st
    stopReason := reason
    timerStart := if st = ssActive then 0 else if x.state = ssActive then nextTickStart d else x.timerStart }) d

/-- A running or carried step of a session is dropped and its reservation returned (R133). -/
def dropStep (k : SessKey) (d : Dev) : Dev :=
  let mine := d.run.steps.filter fun s => s.key == k
  let part := ((findDesc d k).map (·.part)).getD 8
  let d1 := forAll mine (fun s e => poolGive part s.reserve e) d
  setRun { d1.run with
    steps := d1.run.steps.filter (fun s => s.key != k)
    carried := d1.run.carried.filter (fun s => s.key != k)
    announced := d1.run.announced.filter fun a => a.1 != k } d1

/-- A page of a region is no longer shared: its extent and its copies in other modules are freed (R419). -/
def unshare (id : Nat) (d : Dev) : Dev :=
  let d1 := forAll (d.fab.extents.filter fun x => x.shared && x.allocator == d.self && x.tag == id && id != 0) extentFree d
  match findPage d1 id with
  | none => d1
  | some p =>
    if regionShared d id then
      forAll ((copyLocs d1 0 p.copies p.copyIndex).drop 1) (fun a e => sendFree a p.keySlot e) (putPage { p with copies := 1 } d1)
    else d1

/-- Regions that a newer version replaced and that nothing references are freed (R157). -/
def sweepRegions (d : Dev) : Dev :=
  let gone := d.sess.regions.filter fun r => !r.current && r.pins == 0 && r.remotePins.isEmpty
  forAll gone (fun r e => forAll r.pages unrefPage (forAll r.pages unshare e))
    (setSess { d.sess with regions := d.sess.regions.filter fun r => !gone.contains r } d)

/-- Pin or release a region version for a local turn (R157). -/
def pinRegion (name version : Nat) (on : Bool) (d : Dev) : Dev :=
  setSess { d.sess with regions := d.sess.regions.map fun r =>
    if r.name = name ∧ r.version = version then { r with pins := if on then r.pins + 1 else r.pins - 1 } else r } d

/-- A turn ends: an APPEND that waits completes with TURN_ENDED, and the regions are released (R136, R157). -/
def endTurn (k : SessKey) (result : Nat) (d0 : Dev) : Dev :=
  let d := prefixUndo k d0
  match findDesc d k with
  | none => d
  | some x =>
    match x.turn with
    | none => d
    | some t =>
      let d1 := forAll t.regions (fun r e => pinRegion r.1 r.2 false e) (putDesc { x with turn := none } d)
      sweepRegions (match t.cmd with
        | some m => complete m stTurnEnded result x.committed [] d1
        | none => d1)

/-! ### Rewind (R147, R180) -/

/-- CTX_LEN at an allowed target; none for a target that R147 does not allow. -/
def rewindLen (x : Desc) (target : Nat) : Option Nat :=
  if target = x.committed then some x.ctxLen
  else if target + 1 = x.committed then some x.prevCtxLen
  else (x.turnStarts.find? fun t => t.1 == target).map (·.2)

/-- The session at an allowed target (R147): tokens, pages, generations and prefix entries beyond it are gone. -/
def rewindTo (k : SessKey) (target : Nat) (d : Dev) : Dev :=
  match findDesc d k with
  | none => d
  | some x =>
    match rewindLen x target with
    | none => d
    | some len =>
      let back := target + 1 == x.committed
      let turn := target != x.committed && x.turnStarts.any fun t => t.1 == target
      let (x1, d1) := rewindPages x len (dropStep k d)
      let (x2, d2) := dropBlocks x1 len d1
      let x3 := { x2 with
        committed := target
        ctxLen := len
        prevCtxLen := if target = x.committed then x.prevCtxLen else len
        tokens := x.tokens.take len
        text := if back then x.textPrev else x.text
        fret := if back then x.fretPrev else x.fret
        grammar := if turn then 0 else x.grammar
        stopSet := if turn then 0 else x.stopSet
        turn := x.turn.map fun t => { t with matched := min t.matched (kvLen x1) }
        turnStarts := x.turnStarts.filter fun t => decide (t.1 ≤ target) }
      compactAbandon k (fun b => decide (len < b.endPos)) ((putDesc x3 d2).count Reg.SESS_REWINDS 1)

/-! ### Park, expiry and the end of a session -/

/-- The park policy in force for a session's pages: order and tokens kept (R368, R386). -/
def parkPolicy (d : Dev) (x : Desc) (pressure : Bool) : List Nat × Nat :=
  if pulled d x.part then ([], 0)
  else if x.policy = 0 ∧ pressure then (pressureOrder d, 0)
  else match assocGet d.tier.policies x.policy with
    | some p => (p.order, p.keep)
    | none => ([], 0)

/-- Demote the pages of a parked session (R370); DEMOTE_NOROOM is posted once for the park (R367). -/
def parkDemote (k : SessKey) (pressure : Bool) (d : Dev) : Dev :=
  match findDesc d k with
  | none => d
  | some x =>
    let (order, keep) := parkPolicy d x pressure
    if order.isEmpty then d
    else
      let pages := (x.table.filter fun e => decide (e.firstPos + e.valid ≤ x.ctxLen - keep) && !demoteBarred d (.page e.page)).map (·.page)
      let d1 := forAll pages (fun id e =>
        match findPage e id with
        | some p => if p.tier = 1 then (demoteStart (.page id) order none (some k) e).2 else e
        | none => e) d
      match d1.tier.noRoom.find? fun r => r.1 == k with
      | none => d1
      | some r => sessEvent x evDemoteNoroom (min 0xFFFFFFFF r.2) 0
          (setTier { d1.tier with noRoom := d1.tier.noRoom.filter fun y => y.1 != k } d1)

/-- A session enters PARKED (R188, R370). -/
def parkSession (k : SessKey) (pressure : Bool) (d : Dev) : Dev :=
  match findDesc d k with
  | none => d
  | some x => parkDemote k pressure (compactStart k true pressure (sessEvent x evSessionParked 0 0
      (onDesc k (fun y => { y with state := ssParked }) d)))

/-- What a session holds is released: its pages, prefix entries, turn and step. -/
def releaseSession (k : SessKey) (result : Nat) (d : Dev) : Dev :=
  match findDesc d k with
  | none => d
  | some _ =>
    let d1 := endTurn k result (dropStep k d)
    match findDesc d1 k with
    | none => d1
    | some x =>
      let (x1, d2) := dropBlocks x 0 (unrefAll x.table d1)
      compactAbandon k (fun _ => true) (putDesc { x1 with table := [] } d2)

/-- T1 bytes of a descriptor's structures: a page-table root and the two state blocks (R174, R311, R683). -/
def structBytes : Nat := 4096 + 256 + 4224

/-- Count descriptors in use (R161). -/
def sessSync (d : Dev) : Dev := d.set Reg.SESS_COUNT d.sess.descs.length

/-- A descriptor enters FREE (R126, R151). -/
def freeDesc (k : SessKey) (d : Dev) : Dev :=
  match findDesc d k with
  | none => d
  | some x =>
    sessSync (poolGive x.part structBytes (newelDelete nt0 (sessKeyWord k)
      (setSess { d.sess with descs := d.sess.descs.filter fun y => y.index != x.index } d)))

/-- The park, TTL and grace instants have come at `b` (R150, R151). -/
def parkDue (x : Desc) (b : Nat) : Bool :=
  (x.state == ssStopped || x.state == ssWaiting) && x.parkMs != 0xFFFFFFFF
  && decide (x.timerStart + x.parkMs * 1000000 ≤ b)
def ttlDue (x : Desc) (b : Nat) : Bool :=
  (x.state == ssCreated || x.state == ssStopped || x.state == ssWaiting || x.state == ssParked) && x.ttlMs != 0
  && decide (x.timerStart + x.ttlMs * 1000000 ≤ b)
def graceDue (d : Dev) (x : Desc) (b : Nat) : Bool :=
  x.state == ssExpired && decide (x.expiry + d.get Reg.SESS_GRACE_MS * 1000000 ≤ b)

/-- Expiry (R151). -/
def expireSession (k : SessKey) (d : Dev) : Dev :=
  match findDesc d k with
  | none => d
  | some x =>
    let b := nextTickStart d
    sessEvent x evSessionExpired 0 x.committed ((onDesc k (fun y => { y with
      state := ssExpired
      expiry := if ttlDue x b then x.timerStart + x.ttlMs * 1000000 else d.now
      ctxLen := 0
      prevCtxLen := 0
      tokens := [] }) (releaseSession k 0 d)).count Reg.SESS_EXPIRED 1)

/-- SESSION_PARK_TIMER, SESSION_TTL_EXPIRE and SESSION_GRACE_EXPIRE: expiry wins over the park (R150). -/
def parkTimer (k : SessKey) (d : Dev) : Dev :=
  match findDesc d k with
  | some x => if x.isHome && parkDue x (nextTickStart d) && !ttlDue x (nextTickStart d) then parkSession k false d else d
  | none => d
def ttlTimer (k : SessKey) (d : Dev) : Dev :=
  match findDesc d k with
  | some x => if x.isHome && ttlDue x (nextTickStart d) then expireSession k d else d
  | none => d
def graceTimer (k : SessKey) (d : Dev) : Dev :=
  match findDesc d k with
  | some x => if x.isHome && graceDue d x (nextTickStart d) then
      sessEvent x evSessionFreed 0 x.committed (freeDesc k d) else d
  | none => d

/-- Every timer at a seal (R131). -/
def timersSeal (d : Dev) : Dev :=
  forAll (d.sess.descs.map descKey) (fun k e => parkTimer k (ttlTimer k (graceTimer k e))) d

/-- Pages of a session that lie in T2, T3 or T4. -/
def lowerPages (d : Dev) (x : Desc) : List Nat :=
  (x.table.map (·.page)).filter fun id =>
    match findPage d id with
    | some p => decide (2 ≤ p.tier ∧ p.tier ≤ 4)
    | none => false

/-- Promote a session's pages; demotions in flight are abandoned (R134, R382). -/
def revivePages (k : SessKey) (d : Dev) : Dev :=
  match findDesc d k with
  | none => d
  | some x => forAll (x.table.map (·.page)) (fun id e => (promoteStart (.page id) (demoteAbandon (.page id) e)).2) d

/-- The wake hint falls within the tick being drafted, or earlier (R134). -/
def hintDue (d : Dev) (x : Desc) : Bool :=
  (x.state == ssParked || x.state == ssWaiting) && x.wakeHint != 0
  && decide (x.wakeHint < nextTickStart d + d.get Reg.TICK_PERIOD_NS)

/-- WAKE_HINT_DUE (R134): the pages are promoted; once they are in T1 a PARKED session enters WAITING. -/
def wakeHint (k : SessKey) (d : Dev) : Dev :=
  match findDesc d k with
  | none => d
  | some x =>
    if ¬ (x.isHome && hintDue d x) then d
    else if (lowerPages d x).isEmpty then
      if x.state = ssParked then onDesc k (fun y => { y with state := ssWaiting }) (compactAbandon k (fun _ => true) d) else d
    else revivePages k d

/-! ### Descriptor bytes (R139) -/

/-- The 256 bytes of a descriptor. -/
def descBytes (x : Desc) : Bytes :=
  le 8 x.sid ++ le 2 x.ns ++ le 1 x.state ++ le 1 x.stopReason ++ le 2 x.context ++ le 2 x.home ++ le 6 x.committed
  ++ le 2 x.flags ++ le 4 x.ctxLen ++ le 4 x.prevCtxLen ++ le 4 x.tokensLeft ++ le 1 (if x.hostLost.isSome then 1 else 0)
  ++ le 1 x.retries ++ le 1 x.policy ++ le 1 x.profile ++ le 8 x.seed ++ le 8 x.model ++ le 8 x.pageTable
  ++ le 8 x.tokenLog ++ le 8 x.inboxBase ++ le 4 x.inboxLen ++ le 2 x.streamRing ++ le 2 x.eventRing
  ++ le 8 x.smemBase ++ le 4 x.smemLen ++ le 4 x.ttlMs ++ le 4 x.parkMs ++ zeros 4 ++ le 8 x.timerStart
  ++ le 8 x.wakeHint ++ le 4 x.grammar ++ le 4 x.stopSet ++ le 8 x.fretState ++ samplerBytes x.sampler
  ++ le 8 x.parent ++ le 8 x.textState
  ++ padTo 48 ((x.turnStarts.map fun t => le 6 t.1 ++ le 4 t.2 ++ zeros 2).flatten)
  ++ le 8 x.lastCommit ++ zeros 8

/-- Host fields of an image that are out of their ranges (R139, R140, R260); `full` checks those of CREATE too. -/
def imageBad (d : Dev) (b : Bytes) (model : Nat) : Bool :=
  let smem := fieldAt b 96 4
  let s := samplerOf ((b.drop 144).take 32)
  decide (16 ≤ byteAt b 38)
  || (smem != 0 && (decide (smem < 64) || decide (smem % 4 ≠ 0)))
  || !samplerOk s
  || (s.bias != 0 && !(d.samp.bias.any fun l => l.handle == s.bias && l.model == model))

/-- Reserved bits of the words of an image that a command takes (R10, R139, R260). -/
def imageResv (b : Bytes) (takes : Nat → Bool) : Bool :=
  (takes 1 && (decide (2 ^ 15 ≤ fieldAt b 12 2) || decide (1024 ≤ fieldAt b 14 2)))
  || (takes 2 && decide (8 ≤ fieldAt b 22 2))
  || (takes 10 && (decide (2 ^ 14 ≤ fieldAt b 84 2) || decide (2 ^ 12 ≤ fieldAt b 86 2)))
  || (takes 13 && fieldAt b 108 4 != 0) || (takes 21 && fieldAt b 174 2 != 0)

/-- A range that R686 allows: none, or wholly inside one host window of a bound slot of the partition. -/
def rangeHosted (d : Dev) (part base len : Nat) : Bool :=
  base == 0 || slotNumbers.any fun n => inWindow d n part base len

/-- Inbox and session memory of an image. -/
def imageRangesHosted (d : Dev) (part : Nat) (b : Bytes) : Bool :=
  rangeHosted d part (fieldAt b 72 8) (fieldAt b 80 4) && rangeHosted d part (fieldAt b 88 8) (fieldAt b 96 4)

/-! ### Finding the session a command names (R123) -/

/-- Why nothing can be sent to a module (R427): no table, a module that is not PRESENT, or a LOST one. -/
def reachCodes (d : Dev) (dst : Nat) : List (Bool × Nat) :=
  [(!routed d, 0x0400), (routed d && !modulePresent d dst, 0x0403), (peerState d dst == .lost, 0x0404)]

/-- The inbox or the source range that a forwarded command carries (R125). -/
def forwardInput (d : Dev) (m : Cmd) : Bytes :=
  if ¬ m.inbox.isEmpty then m.inbox
  else if m.c.opcode = 0x21 ∨ (m.c.opcode = 0x2B ∧ m.c.sid = 0) then readRange d m.part m.c.addrA m.c.lenA
  else []

/-- Bytes of host memory that a forwarded command carries: an image, or a list of regions. -/
def forwardHost (c : HostCmd) : Nat :=
  if c.opcode = 0x20 ∨ c.opcode = 0x2A then 256 else if c.opcode = 0x21 then c.lenB else 0

/-- Forward a command to another module in TC0 (R123, R125, R423): inputs of more than 896 bytes are pushed ahead of it. -/
def forwardTo (dst : Nat) (m : Cmd) (d : Dev) : Dev :=
  let tag := d.fab.nextTag % 2 ^ 32
  let m1 := { m with inbox := forwardInput d m }
  guarded m (reachCodes d dst) (fun e =>
    let e1 := (setFab { e.fab with forwards := e.fab.forwards ++ [(tag, dst, m1)] } e).count Reg.SESS_FORWARDED 1
    if m1.inbox.length + forwardHost m.c ≤ 896 then sendMsg dst (.forward tag m.part m.c m1.inbox) e1
    else pushInputs dst tag m1 m1.inbox e1) d

/-- What the directory holds for the key of a command (R123, R323). -/
inductive Found where
  | home (x : Desc)
  | away (module_ : Nat)
  | none
  deriving Repr

/-- Resolve a key in this module's directory. -/
def resolve (k : SessKey) (d : Dev) : Found × Dev :=
  let (r, d1) := newelLookup nt0 (sessKeyWord k) d
  match r with
  | some w =>
    if resKind w = kindHome then
      match findDesc d1 k with
      | some x => (.home x, d1)
      | none => (.none, d1)
    else if resKind w = kindForward then (.away (w % 1024), d1)
    else (.none, d1)
  | none => (.none, d1)

/-- Run a session command at the session's home, or forward it (R123, R132). -/
def atHome (m : Cmd) (f : Desc → Dev → Dev) (d : Dev) : Dev :=
  match resolve (cmdKey m.c) d with
  | (.home x, d1) => if x.part ≠ m.part then failWith m stPartitionDenied d1 else f x d1
  | (.away h, d1) => forwardTo h m d1
  | (.none, d1) => failWith m stSessionUnknown d1

/-- The state codes of R132 for a command that `allowed` states accept. -/
def stateCodes (x : Desc) (allowed : List Nat) : List (Bool × Nat) :=
  if allowed.contains x.state then []
  else if x.state = ssMigrating then [(true, stSessionMigrating)]
  else if x.state = ssExpired then [(true, stSessionExpired)]
  else [(true, stSessionState)]

/-! ### CREATE, FORK, DESTROY -/

/-- The lowest free descriptor number (R122). -/
def freeIndex (d : Dev) : Nat :=
  ((List.range (d.sess.descs.length + 1)).find? fun i => !(d.sess.descs.any fun x => x.index == i)).getD 0

/-- The descriptor table or the partition's quota is full (R122, R549). -/
def tableFull (d : Dev) (part : Nat) : Bool :=
  decide (16777216 ≤ d.sess.descs.length)
  || (d.get (Reg.PART_DESC_QUOTA part) != 0 &&
      decide (d.get (Reg.PART_DESC_QUOTA part) ≤ (d.sess.descs.filter fun x => x.part == part).length))

/-- Addresses of a descriptor's structures, which the device chooses (R141). -/
def structAddrs (d : Dev) : (Nat × Nat × Nat × Nat) × Dev :=
  ((Config.hbmAddr d.free, Config.hbmAddr (d.free + 1), Config.hbmAddr (d.free + 2), Config.hbmAddr (d.free + 3)),
   { d with free := d.free + 4 })

/-- A new descriptor (R139). -/
def newDesc (d : Dev) (m : Cmd) (b : Bytes) (a : Nat × Nat × Nat × Nat) : Desc :=
  { index := freeIndex d
    sid := fieldAt b 0 8
    ns := fieldAt b 8 2
    state := ssCreated
    stopReason := srNone
    context := fieldAt b 12 2
    part := m.part
    home := fieldAt b 14 2
    committed := 0
    flags := fieldAt b 22 2
    ctxLen := 0
    prevCtxLen := 0
    tokensLeft := 0
    hostLost := none
    retries := 0
    policy := byteAt b 38
    profile := byteAt b 39
    seed := fieldAt b 40 8
    model := fieldAt b 48 8
    pageTable := a.1 % 2 ^ 39
    tokenLog := a.2.1 % 2 ^ 39
    inboxBase := fieldAt b 72 8
    inboxLen := fieldAt b 80 4
    streamRing := fieldAt b 84 2
    eventRing := fieldAt b 86 2
    smemBase := fieldAt b 88 8
    smemLen := fieldAt b 96 4
    ttlMs := fieldAt b 100 4
    parkMs := fieldAt b 104 4
    timerStart := nextTickStart d
    wakeHint := 0
    grammar := 0
    stopSet := 0
    fretState := a.2.2.1 % 2 ^ 39
    sampler := samplerOf ((b.drop 144).take 32)
    parent := 0
    textState := a.2.2.2 % 2 ^ 39
    turnStarts := []
    lastCommit := 0
    isHome := true
    tokens := []
    table := []
    text := textGenNew []
    textPrev := textGenNew []
    fret := ⟨0, []⟩
    fretPrev := ⟨0, []⟩
    turn := none
    blocks := []
    migrFrom := 0
    migrHome := 0
    migrWait := []
    migrCmd := none
    keySlot := d.get (Reg.SEC_PART_KEY m.part) % 64
    expiry := 0
    epochs := List.replicate 5 (d.get Reg.CKPT_EPOCH) }

/-- Add a descriptor and its directory entry (R123, R336). -/
def addDesc (x : Desc) (d : Dev) : Dev :=
  sessSync (newelInsert nt0 (sessKeyWord (descKey x)) (resHome x.index)
    (poolTake x.part structBytes (setSess { d.sess with descs := d.sess.descs ++ [x] } d)))

/-- Codes of a CREATE wherever the home is (R132, R140, R550). -/
def createCommon (m : Cmd) (d : Dev) : List (Bool × Nat) :=
  let b := padTo 256 m.c.dataA
  [(imageResv b (fun _ => true) || fieldAt b 248 8 != 0 || decide (2 ≤ byteAt b 39), stReservedNonzero),
   (fieldAt b 0 8 != m.c.sid || fieldAt b 8 2 != m.c.ns || imageBad d b (fieldAt b 48 8)
      || decide (d.get (Reg.PART_CONTEXTS m.part) ≤ fieldAt b 12 2 % 4096), stInvalidField),
   (fieldAt b 12 2 / 4096 % 8 != m.part, stPartitionDenied),
   ((dirFind d nt0 (sessKeyWord (cmdKey m.c))).isSome, stSessionExists)]

/-- Codes of a CREATE that this module executes (R122, R136, R140, R683, R686). -/
def createCodes (m : Cmd) (d : Dev) : List (Bool × Nat) :=
  let b := padTo 256 m.c.dataA
  let mdl := findModel d (fieldAt b 48 8)
  createCommon m d ++
    [(!imageRangesHosted d m.part b, stAddressOutsideWindow),
     (mdl.isNone, stModelUnknown),
     (mdl.any (fun x => !x.members.contains (fieldAt b 14 2)), stHomeInvalid),
     (tableFull d m.part || !canInsert d (sessKeyWord (cmdKey m.c)) (resHome 0), stSessionTableFull),
     (!ringsOk d (fieldAt b 84 2) (fieldAt b 86 2), stRingsMissing),
     (!poolRoom d m.part structBytes, stTierFull)]

/-- CREATE (R120, R124, R132, R136, R140, R550). -/
def createApply (m : Cmd) (d : Dev) : Dev :=
  let b := padTo 256 m.c.dataA
  let home := fieldAt b 14 2
  let key := sessKeyWord (cmdKey m.c)
  if home ≠ d.self ∧ ((findModel d (fieldAt b 48 8)).all fun x => x.members.contains home) then
    guarded m (createCommon m d ++ [(!canInsert d key (resForward home), stSessionTableFull)])
      (fun e => forwardTo home m (newelInsert nt0 key (resForward home) e)) d
  else
    guarded m (createCodes m d) (fun e =>
      let (a, e1) := structAddrs e
      complete m stSuccess 0 0 [] ((addDesc (newDesc e m b a) e1).count Reg.SESS_CREATED 1)) d

/-- Codes of a FORK of the parent `x` (R122, R132, R136, R154, R683). -/
def forkCodes (m : Cmd) (x : Desc) (e : Dev) : List (Bool × Nat) :=
  let key := sessKeyWord ⟨m.c.ns, argAt m.c 48 8⟩
  let atLimit := x.table.any fun p => ((findPage e p.page).map fun q => decide (65535 ≤ q.count)).getD false
  stateCodes x [ssActive, ssStopped, ssWaiting, ssParked] ++
    [((dirFind e nt0 key).isSome, stSessionExists),
     (tableFull e x.part || !canInsert e key (resHome 0), stSessionTableFull),
     (atLimit, stForkLimit),
     (!ringsOk e x.streamRing x.eventRing, stRingsMissing),
     (!poolRoom e x.part structBytes, stTierFull)]

/-- FORK (R152-R154). -/
def forkApply (m : Cmd) (d : Dev) : Dev :=
  atHome m (fun x e =>
    guarded m (forkCodes m x e) (fun e1 =>
      let (a, e2) := structAddrs e1
      let y := { x with
        index := freeIndex e1
        sid := argAt m.c 48 8
        state := if x.state = ssParked then ssParked else ssStopped
        seed := if bitAt (argAt m.c 56 1) 0 then x.seed else m.c.addrB
        parent := x.sid
        pageTable := a.1 % 2 ^ 39
        tokenLog := a.2.1 % 2 ^ 39
        fretState := a.2.2.1 % 2 ^ 39
        textState := a.2.2.2 % 2 ^ 39
        timerStart := nextTickStart e1
        wakeHint := 0
        hostLost := none
        retries := 0
        turn := none
        blocks := []
        epochs := List.replicate 5 (e1.get Reg.CKPT_EPOCH)
        table := x.table.map fun p => { p with forked := true } }
      complete m stSuccess x.committed 0 []
        ((addDesc y (forAll (x.table.map (·.page)) refPage e2)).count Reg.SESS_FORKS 1)) e) d

/-- DESTROY (R132, R133). -/
def destroyApply (m : Cmd) (d : Dev) : Dev :=
  atHome m (fun x e =>
    guarded m (stateCodes x [ssCreated, ssActive, ssStopped, ssWaiting, ssParked, ssExpired]) (fun e1 =>
      complete m stSuccess 0 0 [] (freeDesc (descKey x) (releaseSession (descKey x) 0 e1))) e) d

/-! ### APPEND (R132, R134-R136, R157, R158, R176, R287-R297) -/

/-- The vocabulary of a model. -/
def vocabFor (d : Dev) (model : Nat) : Option Vocab := d.text.vocabs.find? fun v => v.model == model

/-- Region names that an APPEND lists (R158). -/
def regionNames (c : HostCmd) : List Nat := (List.range (c.lenB / 8)).map fun i => fieldAt c.dataB (8 * i) 8

/-- The current version of a region. -/
def currentRegion (d : Dev) (name : Nat) : Option Region := d.sess.regions.find? fun r => r.name == name && r.current

/-- The token IDs that an APPEND's inbox gives, what it leaves pending, and what was replaced (R287-R296). -/
def appendTokens (v : Vocab) (strict generate text : Bool) (pend input : Bytes) : Tokenised × Bytes :=
  if text then tokeniseAppend v strict generate pend input
  else
    let ids := (List.range (input.length / 4)).map fun i => fieldAt input (4 * i) 4
    if pend.isEmpty then (⟨ids, 0, 0, false⟩, [])
    else (tokJoin (tokenise v strict pend) ⟨ids, 0, 0, false⟩, [])

/-- Checks of an APPEND at its acceptance (R129, R135, R176, R290, R686). -/
def appendChecks (d : Dev) (m : Cmd) : List (Bool × Nat) :=
  let c := m.c
  [(decide (2 ≤ argAt c 48 1) || argAt c 52 4 == 0
      || (argAt c 48 1 == 1 && c.lenA % 4 != 0) || c.lenB % 8 != 0 || decide (128 < c.lenB), stInvalidField),
   (!(c.lenA == 0 || inWindow d c.slot m.part c.addrA c.lenA), stAddressOutsideWindow)]

/-- The input of an APPEND: its inbox snapshot, or what the inbox range holds now. -/
def appendInput (d : Dev) (m : Cmd) : Bytes :=
  if m.inbox.isEmpty then readRange d m.part m.c.addrA m.c.lenA else m.inbox

/-- Cache misses of a text pass, which no rule fixes (R286, log entry 19). -/
def cacheMisses (unit : Nat) (d : Dev) : Dev := d.countFree (Reg.TXU_VCACHE_MISS unit)

/-- A text unit counts what a tokenisation pass consumed and gave (R318). -/
def passCount (unit : Nat) (bytes : Nat) (t : Tokenised) (d : Dev) : Dev :=
  (((cacheMisses unit d).count (Reg.TXU_BYTES_IN unit) bytes).count
    (Reg.TXU_TOKENS_IN unit) t.ids.length).count (Reg.TXU_IN_SUBPARTS unit) t.subparts

/-- The pass of an APPEND of UTF-8 input ends on a text unit (R287, R318). -/
def appendPass (unit : Nat) (m : Cmd) (d : Dev) : Dev :=
  match findDesc d (cmdKey m.c) with
  | none => d
  | some x =>
    match vocabFor d x.model with
    | none => d
    | some v =>
      let input := appendInput d m
      passCount unit input.length (appendTokens v (bitAt x.flags 1) (bitAt (argAt m.c 49 1) 0) true x.text.inPend input).1 d

/-- The lowest-numbered free text unit (R288). -/
def freeUnit (d : Dev) : Option Nat := (List.range 4).find? fun u => !(d.text.passes.any fun p => p.unit == some u)

/-- An APPEND is of UTF-8 input. -/
def appendText (m : Cmd) : Bool := argAt m.c 48 1 == 0

/-- Regions that an APPEND names and that have a version, in order; the first is that of PREFIX_REGION (R158). -/
def appendRegions (m : Cmd) (e : Dev) : List Region := (regionNames m.c).filterMap (currentRegion e)

/-- Tokens of the prefix region, when the APPEND asks for one. -/
def appendPrefix (m : Cmd) (e : Dev) : List Nat :=
  if bitAt (argAt m.c 49 1) 2 then (((appendRegions m e).head?).map (·.tokens)).getD [] else []

/-- CTX_LEN that an APPEND starts from (R135). -/
def appendStart (m : Cmd) (x : Desc) : Nat := if bitAt (argAt m.c 49 1) 1 then 0 else x.ctxLen

/-- The input tokens of an APPEND to session `x`, with what its text leaves pending (R287-R296). -/
def appendResult (m : Cmd) (x : Desc) (e : Dev) : Tokenised × Bytes :=
  match vocabFor e x.model with
  | some v => appendTokens v (bitAt x.flags 1) (bitAt (argAt m.c 49 1) 0) (appendText m)
      (if bitAt (argAt m.c 49 1) 1 then [] else x.text.inPend) (appendInput e m)
  | none => (⟨[], 0, 0, false⟩, [])

/-- The grammar program that an APPEND names. -/
def appendGrammar (m : Cmd) (x : Desc) (e : Dev) : Option (Nat × Nat × Nat × Grammar) :=
  e.text.grammars.find? fun g => g.1 == argAt m.c 56 4 && g.2.1 == x.model

/-- Codes of an APPEND at the seal (R132, R135, R136, R157, R158, R176, R290, R315). -/
def appendCodes (m : Cmd) (x : Desc) (e : Dev) : List (Bool × Nat) :=
  let c := m.c
  let rep := bitAt (argAt c 49 1) 1
  let pre := bitAt (argAt c 49 1) 2
  let regs := appendRegions m e
  let nIn := if appendText m then c.lenA else c.lenA / 4
  let v := vocabFor e x.model
  let s := e.text.stops.find? fun q => q.1 == argAt c 60 4 && q.2.1 == x.model
  let input := appendInput e m
  let codes := stateCodes x ([ssCreated, ssStopped, ssWaiting, ssParked] ++ (if rep then [ssExpired] else []))
  let kvOk := regs.head?.any fun r => r.kv && r.model == x.model && r.part == x.part && r.profile == x.profile
    && r.format == sessFormat e x
  let badIds := !appendText m && v.isSome && (List.range (input.length / 4)).any fun i =>
    decide (((v.map (·.tokens.length)).getD 0) ≤ fieldAt input (4 * i) 4)
  [((rep && x.state != ssExpired)
      || decide (16777216 < appendStart m x + (appendPrefix m e).length + nIn + argAt c 52 4)
      || (pre && (!kvOk || appendStart m x != 0)), stInvalidField)] ++ codes ++ (if codes.isEmpty then
    [((regionNames c).length != regs.length, stRegionUnknown),
     (!ringsOk e x.streamRing x.eventRing, stRingsMissing),
     (v.isNone, stVocabMissing),
     (badIds, stTokenRange),
     (argAt c 56 4 != 0 && (appendGrammar m x e).isNone, stGrammarUnknown),
     (argAt c 60 4 != 0 && s.isNone, stStopsetUnknown)] else [])

/-- APPEND at the seal of its plan. -/
def appendApply (m : Cmd) (d : Dev) : Dev :=
  atHome m (fun x e =>
    let c := m.c
    let rep := bitAt (argAt c 49 1) 1
    let pre := bitAt (argAt c 49 1) 2
    let regs := appendRegions m e
    let tok := appendResult m x e
    guarded m (appendCodes m x e) (fun e1 =>
      if tok.1.invalid then
        let e2 := if x.state = ssExpired then e1 else onDesc (descKey x) (fun y => { y with
          state := ssStopped
          stopReason := srTextInvalid }) e1
        failWith m stTextInvalid e2
      else
        let e3 := when (tok.1.replaced != 0) (sessEvent x evInputReplaced (min 0xFFFFFFFF tok.1.replaced) x.committed) e1
        let regTok := appendPrefix m e
        let ents := if pre then ((regs.head?.map (·.pages)).getD []).filterMap fun id => (findPage e3 id).map fun p =>
            { pageEnt p.firstPos p.cls p.valid id with region := true } else []
        let e4 := forAll regs (fun r z => pinRegion r.name r.version true z) (forAll (ents.map (·.page)) refPage e3)
        let lower := x.state == ssParked || !(lowerPages e4 x).isEmpty
        let y := { x with
          state := ssActive
          stopReason := srNone
          timerStart := 0
          ctxLen := appendStart m x
          prevCtxLen := if rep then 0 else x.prevCtxLen
          tokens := if rep then [] else x.tokens
          retries := 0
          tokensLeft := argAt c 52 4
          grammar := argAt c 56 4
          stopSet := argAt c 60 4
          wakeHint := 0
          turnStarts := ((x.committed, appendStart m x) :: (if rep then [] else x.turnStarts)).take 4
          text := textGenNew tok.2
          fret := match appendGrammar m x e with
            | some q => fretStart q.2.2.2
            | none => ⟨0, []⟩
          table := if pre then ents else if rep then [] else x.table
          turn := some
            { input := regTok ++ tok.1.ids
              generate := bitAt (argAt c 49 1) 0
              cmd := some m
              regions := regs.map fun r => (r.name, r.version)
              matched := regTok.length
              revive := if lower then some e.tick.fired else none
              generated := []
              tried := none } }
        let e5 := putDesc y e4
        let e6 := if x.state = ssParked then compactAbandon (descKey x) (fun _ => true) e5 else e5
        let others := ((findModel e6 x.model).map fun q => q.members.filter (· != e6.self)).getD []
        prefixTry (descKey x) <| sendAll others (.tokens (descKey x) tok.1.ids)
          (forAll (if lower then y.table.map (·.page) else []) (fun id => demoteAbandon (.page id)) e6)) e) d

/-! ### WAIT, PARK, STOP, REWIND, QUERY, MODIFY, MIGRATE -/

/-- WAIT (R132, R134). -/
def waitApply (m : Cmd) (d : Dev) : Dev :=
  atHome m (fun x e =>
    guarded m (stateCodes x [ssStopped, ssWaiting, ssParked]) (fun e1 =>
      complete m stSuccess 0 0 [] (putDesc { x with
        state := if x.state = ssStopped then ssWaiting else x.state
        wakeHint := argAt m.c 48 8 } e1)) e) d

/-- PARK (R132). -/
def parkApply (m : Cmd) (d : Dev) : Dev :=
  atHome m (fun x e =>
    guarded m (stateCodes x [ssStopped, ssWaiting, ssParked]) (fun e1 =>
      complete m stSuccess 0 0 [] (if x.state = ssParked then e1 else parkSession (descKey x) false e1)) e) d

/-- STOP (R132, R133, R136). -/
def stopApply (m : Cmd) (d : Dev) : Dev :=
  atHome m (fun x e =>
    guarded m (stateCodes x [ssActive, ssStopped]) (fun e1 =>
      complete m stSuccess 0 0 [] (if x.state = ssActive then
        enterState (descKey x) ssStopped srStopCommand (endTurn (descKey x) x.ctxLen (dropStep (descKey x) e1)) else e1)) e) d

/-- Codes of a REWIND (R132, R136, R147). -/
def rewindCodes (m : Cmd) (x : Desc) (e : Dev) : List (Bool × Nat) :=
  let codes := stateCodes x [ssActive, ssStopped, ssWaiting, ssParked]
  codes ++ (if codes.isEmpty then
    [((rewindLen x m.c.step).isNone, stRewindTarget), (!ringsOk e x.streamRing x.eventRing, stRingsMissing)] else [])

/-- REWIND (R132, R133, R136, R147). -/
def rewindApply (m : Cmd) (d : Dev) : Dev :=
  atHome m (fun x e =>
    let len := rewindLen x m.c.step
    guarded m (rewindCodes m x e) (fun e1 =>
      let k := descKey x
      let starts := x.turnStarts.any fun t => t.1 == m.c.step
      let clear := fun (y : Desc) => if starts then { y with
        grammar := 0
        stopSet := 0 } else y
      let e2 := onDesc k clear (rewindTo k m.c.step e1)
      let e3 := if x.state = ssActive then
          enterState k ssStopped srRewindCommand (endTurn k (len.getD 0) e2) else e2
      complete m stSuccess (len.getD 0) m.c.step [] e3) e) d

/-- QUERY (R130, R132). -/
def queryApply (m : Cmd) (d : Dev) : Dev :=
  atHome m (fun x e => complete m stSuccess x.state 0 [(m.c.addrA, descBytes x)] e) d

/-- Words that MODIFY may change, and those it may not while the session is ACTIVE (R139, R141). -/
def modifyWords : List Nat := [2, 4, 9, 10, 11, 12, 13, 18, 19, 20, 21]
def guardedWords : List Nat := [2, 18, 19, 20, 21]

/-- The descriptor with the masked host fields of an image (R139, R141). -/
def modified (x : Desc) (mask : Nat) (b : Bytes) (b0 : Nat) : Desc :=
  let w := fun i => bitAt mask i
  let s0 := samplerBytes x.sampler
  let s1 := [18, 19, 20, 21].foldl (fun acc i =>
    if w i then acc.take (8 * (i - 18)) ++ (b.drop (8 * i)).take 8 ++ acc.drop (8 * (i - 17)) else acc) s0
  { x with
    flags := if w 2 then fieldAt b 22 2 else x.flags
    policy := if w 4 then byteAt b 38 else x.policy
    inboxBase := if w 9 then fieldAt b 72 8 else x.inboxBase
    inboxLen := if w 10 then fieldAt b 80 4 else x.inboxLen
    streamRing := if w 10 then fieldAt b 84 2 else x.streamRing
    eventRing := if w 10 then fieldAt b 86 2 else x.eventRing
    smemBase := if w 11 then fieldAt b 88 8 else x.smemBase
    smemLen := if w 12 then fieldAt b 96 4 else x.smemLen
    ttlMs := if w 12 then fieldAt b 100 4 else x.ttlMs
    parkMs := if w 13 then fieldAt b 104 4 else x.parkMs
    timerStart := if (w 12 || w 13) && x.timerStart != 0 then b0 else x.timerStart
    sampler := samplerOf s1 }

/-- The descriptor that a MODIFY asks for. -/
def modifyWanted (m : Cmd) (x : Desc) (e : Dev) : Desc :=
  modified x (argAt m.c 48 4) (padTo 256 m.c.dataA) (nextTickStart e)

/-- Codes of a MODIFY (R132, R136, R139-R141, R686). -/
def modifyCodes (m : Cmd) (x : Desc) (e : Dev) : List (Bool × Nat) :=
  let mask := argAt m.c 48 4
  let y := modifyWanted m x e
  let codes := stateCodes x [ssCreated, ssActive, ssStopped, ssWaiting, ssParked]
  codes ++ [(imageBad e (descBytes y) x.model, stInvalidField),
    (imageResv (padTo 256 m.c.dataA) fun w => modifyWords.contains w && bitAt mask w, stReservedNonzero),
    (!imageRangesHosted e x.part (descBytes y), stAddressOutsideWindow)] ++ (if codes.isEmpty then
    [(x.state == ssActive && guardedWords.any fun i => bitAt mask i, stSessionState),
     (!ringsOk e y.streamRing y.eventRing, stRingsMissing)] else [])

/-- MODIFY (R132, R136, R139-R141, R149, R686). -/
def modifyApply (m : Cmd) (d : Dev) : Dev :=
  atHome m (fun x e => guarded m (modifyCodes m x e) (fun e1 =>
    complete m stSuccess 0 0 [] (putDesc (modifyWanted m x e) e1)) e) d

/-- Codes of a MIGRATE (R132, R137, R138). -/
def migrateCodes (m : Cmd) (x : Desc) (e : Dev) : List (Bool × Nat) :=
  let target := argAt m.c 48 2 % 1024
  let mem := ((findModel e x.model).map (·.members)).getD []
  let ok := if bitAt (argAt m.c 50 1) 0 then modulePresent e target && !mem.contains target && argAt m.c 52 8 != x.model
    else mem.contains target && target != e.self
  let codes := stateCodes x [ssCreated, ssStopped, ssWaiting, ssParked]
  codes ++ (if codes.isEmpty then [(!ok, stHomeInvalid)] else [])

/-- MIGRATE (R137, R138, R416): the descriptor goes to the target home; with REGROUP the pages in T0 and T1 are pushed. -/
def migrateApply (m : Cmd) (d : Dev) : Dev :=
  atHome m (fun x e =>
    let target := argAt m.c 48 2 % 1024
    let regroup := bitAt (argAt m.c 50 1) 0
    let mem := ((findModel e x.model).map (·.members)).getD []
    guarded m (migrateCodes m x e) (fun e1 =>
      let k := descKey x
      let e2 := putDesc { x with
        state := ssMigrating
        migrFrom := x.state
        migrHome := target
        migrWait := if regroup then [target] else mem.filter (· != e1.self)
        migrCmd := some m } (compactAbandon k (fun _ => true) e1)
      let e3 := sendMsg target (.migrate k (descBytes x)) e2
      let pages := (x.table.map (·.page)).filter fun id =>
        ((findPage e3 id).map fun p => decide (p.tier ≤ 1)).getD false
      if regroup ∧ ¬ pages.isEmpty then pushStart k target x.keySlot pages e3
      else complete m stSuccess 0 0 [] e3) e) d

/-- The target has no room for the pages of a MIGRATE: it completes with TIER_FULL and has no effect (R683). -/
def migrateNoRoom (k : SessKey) (d : Dev) : Dev :=
  match findDesc d k with
  | none => d
  | some x =>
    match x.migrCmd with
    | none => d
    | some m => failWith m stTierFull (pushStop k (putDesc { x with
        state := x.migrFrom
        migrWait := []
        migrCmd := none } d))

/-- The target has taken the first pages of a MIGRATE: the command completes. -/
def migrateBegun (k : SessKey) (d : Dev) : Dev :=
  match findDesc d k with
  | none => d
  | some x =>
    match x.migrCmd with
    | none => d
    | some m => complete m stSuccess 0 0 [] d

/-- MIGRATION_COMPLETE (R124, R138, R183): the home moves; a member of the same group keeps a replica, and a forwarding entry
leads to the new home. -/
def migrationComplete (k : SessKey) (d : Dev) : Dev :=
  match findDesc d k with
  | none => d
  | some x =>
    if x.state ≠ ssMigrating then d
    else
      let regroup := (x.migrCmd.map fun m => bitAt (argAt m.c 50 1) 0).getD false
      let d1 := sessEvent x evMigrated x.migrHome x.committed d
      let (x1, d2) := dropBlocks x 0 d1
      let x2 := { x1 with
        state := x.migrFrom
        home := x.migrHome
        isHome := false
        migrWait := []
        migrCmd := none }
      let d3 := newelRewrite nt0 (sessKeyWord k) (resForward x.migrHome) (putDesc x2 d2)
      if regroup then
        sessSync (sweepPages (poolGive x.part structBytes (unrefAll x.table (setSess { d3.sess with
          descs := d3.sess.descs.filter fun y => y.index != x.index } d3))))
      else d3

/-! ### Published regions (R156-R158, R419) -/

/-- Bytes of a KV region: the tokens and planes of its pages. -/
def kvRegionBytes (d : Dev) (x : Desc) (n : Nat) : Bytes :=
  let toks := x.tokens.take n
  (toks.map (le 4)).flatten ++ Config.planeBytes (unle (((findModel d x.model).map (·.content)).getD [])) x.profile 0 toks

/-- Checks of a PUBLISH at acceptance. -/
def publishChecks (_ : Dev) (m : Cmd) : List (Bool × Nat) :=
  [(m.c.sid == 0 && decide (2 ^ 52 < m.c.addrA + m.c.lenA), stInvalidField),
   (m.c.sid != 0 && (m.c.addrA != 0 || m.c.lenA == 0 || m.c.lenA % 64 != 0), stInvalidField)]

/-- The source that a PUBLISH copies at its acceptance (R156): the bytes of its range, or of the session's first tokens where it
has committed as many. -/
def publishSource (m : Cmd) (d : Dev) : Bytes :=
  if m.c.sid = 0 then readRange d m.part m.c.addrA m.c.lenA
  else
    match findDesc d (cmdKey m.c) with
    | some x => if x.part = m.part ∧ m.c.lenA ≤ x.ctxLen then kvRegionBytes d x m.c.lenA else []
    | none => []

/-- PUBLISH enters the publication batch of the tick its plan begins (R156). -/
def publishQueue (m : Cmd) (data : Bytes) (d : Dev) : Dev :=
  let from_ := match m.origin with
    | .host _ _ _ _ => d.self
    | .peer src _ => src
  setTick { d.tick with pubBatch := d.tick.pubBatch ++ [⟨argAt m.c 56 8, from_, m.c.slot, m, data⟩] } d

/-- PUBLISH: executed at the region's home module. -/
def publishApply (m : Cmd) (d : Dev) : Dev :=
  let home := argAt m.c 48 8 / 2 ^ 54
  if home ≠ d.self then forwardTo home m d
  else if m.c.sid = 0 then
    publishQueue m (if m.inbox.isEmpty then readRange d m.part m.c.addrA m.c.lenA else m.inbox) d
  else
    atHome m (fun x e =>
      guarded m (stateCodes x [ssActive, ssStopped, ssWaiting, ssParked] ++ [(decide (x.ctxLen < m.c.lenA), stInvalidField)])
        (fun e1 => publishQueue m (if m.inbox.isEmpty then kvRegionBytes e1 x m.c.lenA else m.inbox) e1) e) d

/-- The region that a PUBLISH makes current (R156, R158). -/
def regionSet (p : PubReq) (hash : Bytes) (d : Dev) : Dev :=
  let name := argAt p.cmd.c 48 8
  let x : Option Desc := if p.cmd.c.sid = 0 then none else findDesc d (cmdKey p.cmd.c)
  let toks := (List.range p.cmd.c.lenA).map fun i => fieldAt p.data (4 * i) 4
  let (pages, d1) : List Nat × Dev := match x with
    | none => ([], d)
    | some y =>
      (pageLayout 0 p.cmd.c.lenA).foldl (fun (acc : List Nat × Dev) l =>
        let (id, e) := newPage y l.1 l.2.1 (toks.take l.2.1) ((toks.drop l.2.1).take l.2.2) acc.2
        (acc.1 ++ [id], e)) ([], d)
  let r : Region :=
    { name := name
      version := p.version
      hash := hash
      data := if x.isNone then p.data else []
      kv := x.isSome
      model := (x.map (·.model)).getD 0
      part := p.cmd.part
      profile := (x.map (·.profile)).getD 0
      format := (x.map (sessFormat d)).getD 0
      tokens := if x.isSome then toks else []
      pages := pages
      current := true
      setThisTick := true
      pins := 0
      remotePins := [] }
  sweepRegions (setSess { d1.sess with regions := d1.sess.regions.map (fun q =>
    if q.name = name then { q with current := false } else q) ++ [r] } d1)

/-- One PUBLISH of the batch (R156). -/
def publishOne (p : PubReq) (d : Dev) : Dev :=
  let hash := sha256 p.data
  let cur := currentRegion d (argAt p.cmd.c 48 8)
  let cv := (cur.map (·.version)).getD 0
  let set_ := (cur.map (·.setThisTick)).getD false
  if p.version < cv ∨ (p.version = cv ∧ ¬ set_) then failWith p.cmd stPublishStale d
  else if p.version = cv then
    let ch := (cur.map (·.hash)).getD []
    if hash = ch then complete p.cmd stSuccess p.version 0 [] d
    else (complete p.cmd stPublishConflict (unle (ch.take 8)) 0 [(p.cmd.c.addrB, ch)] d).count Reg.SESS_PUBLISH_CONFLICTS 1
  else complete p.cmd stSuccess p.version 0 [] (regionSet p hash d)

/-- Order of the batch: version, then module, then slot (R156). -/
def pubBefore (a b : PubReq) : Bool :=
  decide (a.version < b.version) || (a.version == b.version && (decide (a.module_ < b.module_)
    || (a.module_ == b.module_ && decide (a.slot < b.slot))))

/-- Insert a PUBLISH in order. -/
def pubInsert (p : PubReq) (l : List PubReq) : List PubReq :=
  match l with
  | [] => [p]
  | q :: r => if pubBefore p q then p :: q :: r else q :: pubInsert p r

/-- The publication batch at a tick's start (R156). -/
def publishBatch (d : Dev) : Dev :=
  let d1 := setSess { d.sess with regions := d.sess.regions.map fun r => { r with setThisTick := false } } d
  forAll (d1.tick.pubBatch.foldr pubInsert []) publishOne (setTick { d1.tick with pubBatch := [] } d1)

/-- REGION_PIN_RX (R157, R419): another module pins or releases a version. -/
def regionPinRx (src name version : Nat) (pin : Bool) (d : Dev) : Dev :=
  sweepRegions (setSess { d.sess with regions := d.sess.regions.map fun r =>
    if r.name = name ∧ r.version = version then
      { r with remotePins := if pin then src :: r.remotePins else r.remotePins.erase src }
    else r } d)

/-- FORWARDED_COMPLETION_RX (R125): outputs go to the host addresses of the command, then its completion is written. -/
def forwardedCompletion (src tag status result step : Nat) (data : Bytes) (d : Dev) : Dev :=
  match d.fab.forwards.find? fun f => f.1 == tag && f.2.1 == src with
  | none => d
  | some f =>
    let m := f.2.2
    let addr := if m.c.opcode = 0x29 ∨ m.c.opcode = 0x92 then m.c.addrA else m.c.addrB
    complete m status result step (if data.isEmpty then [] else [(addr, data)])
      (setFab { d.fab with forwards := d.fab.forwards.filter fun y => y.1 != tag } d)

/-! ### The meanings -/

def execCreate (c : HostCmd) (s : State) : Host.Outcome State Fault Refusal := s.run (hostRow 0x20 noChecks createApply c)
def execAppend (c : HostCmd) (s : State) : Host.Outcome State Fault Refusal :=
  s.run (hostRow 0x21 appendChecks (fun m d => appendApply m (when (appendText m)
    (fun e => appendPass ((freeUnit e).getD 0) m e) d)) c)
def execWait (c : HostCmd) (s : State) : Host.Outcome State Fault Refusal := s.run (hostRow 0x22 noChecks waitApply c)
def execPark (c : HostCmd) (s : State) : Host.Outcome State Fault Refusal := s.run (hostRow 0x23 noChecks parkApply c)
def execStop (c : HostCmd) (s : State) : Host.Outcome State Fault Refusal := s.run (hostRow 0x24 noChecks stopApply c)
def execRewind (c : HostCmd) (s : State) : Host.Outcome State Fault Refusal := s.run (hostRow 0x25 noChecks rewindApply c)
def execFork (c : HostCmd) (s : State) : Host.Outcome State Fault Refusal := s.run (hostRow 0x26 noChecks forkApply c)
def execMigrate (c : HostCmd) (s : State) : Host.Outcome State Fault Refusal :=
  s.run (hostRow 0x27 noChecks migrateApply c)
def execDestroy (c : HostCmd) (s : State) : Host.Outcome State Fault Refusal :=
  s.run (hostRow 0x28 noChecks destroyApply c)
def execQuery (c : HostCmd) (s : State) : Host.Outcome State Fault Refusal := s.run (hostRow 0x29 noChecks queryApply c)
def execModify (c : HostCmd) (s : State) : Host.Outcome State Fault Refusal := s.run (hostRow 0x2A noChecks modifyApply c)
def execPublish (c : HostCmd) (s : State) : Host.Outcome State Fault Refusal :=
  s.run (hostRow 0x2B publishChecks publishApply c)
def execForwardedCompletionRx (src tag status result step : Nat) (data : Bytes) (s : State) :
    Host.Outcome State Fault Refusal := s.run (fromPeer src (forwardedCompletion src tag status result step data))
def execMigrationComplete (key : SessKey) (s : State) : Host.Outcome State Fault Refusal := s.run (migrationComplete key)
def execSessionParkTimer (key : SessKey) (s : State) : Host.Outcome State Fault Refusal := s.run (parkTimer key)
def execSessionTtlExpire (key : SessKey) (s : State) : Host.Outcome State Fault Refusal := s.run (ttlTimer key)
def execSessionGraceExpire (key : SessKey) (s : State) : Host.Outcome State Fault Refusal := s.run (graceTimer key)
def execWakeHintDue (key : SessKey) (s : State) : Host.Outcome State Fault Refusal := s.run (wakeHint key)
def execRegionPinRx (src name version : Nat) (pin : Bool) (s : State) : Host.Outcome State Fault Refusal :=
  s.run (fromPeer src (regionPinRx src name version pin))

end Sys2Proof.Machine
end

