-- ==== Sys2Proof/Machine/Capture.lean ====
section
/-! DEFINITION. Capture into checkpoint stores (R515-R531, R539, R542): the objects of a scope and their bytes, the capture seal,
copy on write, chunks, and the commit of a shard. -/

namespace Sys2Proof.Machine

open Sys2Proof

/-- Checkpoint status codes (R540). -/
def stCkptStoreInvalid : Nat := 0x0700
def stCkptBusy : Nat := 0x0701
def stCkptSync : Nat := 0x0702
def stCkptStoreFull : Nat := 0x0703
def stCkptVerifyFail : Nat := 0x0704
def stCkptMixed : Nat := 0x0705
def stCkptScopeBusy : Nat := 0x0706
def stCkptDependency : Nat := 0x0707
def stCkptNotFound : Nat := 0x0708
def stCkptInChain : Nat := 0x0709
def stCkptAborted : Nat := 0x070A
def stCkptImageInvalid : Nat := 0x070B

/-- Checkpoint events (R541). -/
def evCkptCommitted : Nat := 0x0780
def evCkptComplete : Nat := 0x0781
def evCkptIncomplete : Nat := 0x0782

/-- Bytes of a chunk (R517). -/
def chunkBytes : Nat := 1048576

/-- The key slot of a partition (R517, R608). -/
def partKey (d : Dev) (part : Nat) : Nat := d.get (Reg.SEC_PART_KEY part) % 64

/-- The content hash of a chunk (R517). -/
def chunkHash (key : Nat) (b : Bytes) : Bytes := sha256 (le 1 key ++ b)

/-! ### Stores (R516) -/

/-- A store by number. -/
def findStore (d : Dev) (n : Nat) : Option CkStore := d.ckpt.stores.find? fun s => s.num == n

/-- The condition of a store's kind (R516). -/
def storeThere (d : Dev) (kind target : Nat) : Bool :=
  match kind with
  | 0 => !d.isM0
  | 1 => match routeEnt d target with
    | some e => e.present && e.flashCopy
    | none => false
  | 2 => d.tier.t3.any fun r => r.num == target
  | _ => false

/-- Free bytes of a store: what its medium has, within its capacity (R516, R543). -/
def storeFree (d : Dev) (kind target cap : Nat) : Nat :=
  let used := storeUsed d kind target
  let medium := match kind with
    | 0 => d.get Reg.STW_T4_FREE
    | 1 => 56 * 2 ^ 40 - used
    | _ => (((d.tier.t3.find? fun r => r.num == target).map (·.len)).getD 0) - used
  if cap = 0 then medium else min medium (cap - used)

/-- The store a capture writes to has room (R539). -/
def storeRoom (d : Dev) (c : Capture) (n : Nat) : Bool :=
  match d.ckpt.stores.find? fun s => s.kind == c.kind && s.target == c.target with
  | none => false
  | some s => decide (n ≤ storeFree d s.kind s.target s.cap)

/-- Free a place in a store. -/
def placeFree (kind target key loc : Nat) (d : Dev) : Dev :=
  match kind with
  | 0 => t4Free loc d
  | 1 => if peerState d target = .present then sendFree loc key d else d
  | _ => d

/-! ### Objects and their bytes (R174, R311, R515, R524) -/

/-- A page entry of a leaf (R174). -/
def pageEntBytes (e : PageEnt) : Bytes :=
  le 4 e.firstPos ++ le 1 e.cls ++ le 1 0 ++ le 2 e.valid ++ le 8 e.page
  ++ le 2 ((if e.staged then 1 else 0) + (if e.prefixRef then 2 else 0) + (if e.region then 4 else 0)
    + (if e.forked then 8 else 0)) ++ zeros 14

/-- A node: its header and entries (R174). -/
def nodeBytes (kind depth first toks : Nat) (entries : List Bytes) : Bytes :=
  padTo 4096 (le 1 kind ++ le 1 depth ++ le 2 entries.length ++ le 4 first ++ le 4 toks ++ zeros 52 ++ entries.flatten)

/-- Pieces of at most 126 elements. -/
def nodeCut {α : Type} (fuel : Nat) (l : List α) : List (List α) :=
  match fuel with
  | 0 => []
  | k + 1 => if l.length ≤ 126 then [l] else l.take 126 :: nodeCut k (l.drop 126)

/-- First position and tokens of a run of ranges. -/
def spanOf (l : List (Nat × Nat)) : Nat × Nat := (((l.head?).map (·.1)).getD 0, (l.map (·.2)).sum)

/-- The levels of a tree above nodes of the given spans, lowest first: the spans of each node's children. -/
def treeLevels (fuel : Nat) (l : List (Nat × Nat)) : List (List (List (Nat × Nat))) :=
  match fuel with
  | 0 => []
  | k + 1 =>
    if l.length ≤ 1 then []
    else
      let up := nodeCut (l.length + 1) l
      up :: treeLevels k (up.map spanOf)

/-- The nodes of a page table, the root first, then each level down (R174). -/
def tableBytes (root : Nat) (t : List PageEnt) : Bytes :=
  let leaves := nodeCut (t.length + 1) t
  let spans := leaves.map fun l => spanOf (l.map fun e => (e.firstPos, e.valid))
  let ups := (treeLevels 2 spans).reverse
  let depth := ups.length + 1
  let inner := ups.foldl (fun (acc : List Bytes × Nat × Nat) level =>
    let total := acc.2.1 + level.length
    let nodes := level.foldl (fun (a : List Bytes × Nat) kids =>
      let (f, n) := spanOf kids
      let ents := (kids.zip (List.range kids.length)).map fun c =>
        le 4 c.1.1 ++ le 4 c.1.2 ++ le 8 (Config.nodeAddr root (total + a.2 + c.2)) ++ zeros 16
      (a.1 ++ [nodeBytes 1 (if acc.2.2 = 0 then depth else 0) f n ents], a.2 + kids.length)) ([], 0)
    (acc.1 ++ nodes.1, total, acc.2.2 + 1)) ([], 0, 0)
  let low := (leaves.zip spans).map fun l =>
    nodeBytes 0 (if depth = 1 then 1 else 0) l.2.1 l.2.2 (l.1.map pageEntBytes)
  (inner.1 ++ low).flatten

/-- The two generations of a block: step s at the place of s mod 2 (R311). -/
def twoGens (step : Nat) (now prev : Bytes) : Bytes := if step % 2 = 0 then now ++ prev else prev ++ now

/-- The four regions of a plane: offset and bytes of one slot (R168). -/
def planeRegions (t h hd fmt : Nat) : List (Nat × Nat) :=
  let e := h * hd / (if fmt = 0 then 1 else 2)
  let s := h * hd / 32
  [(0, e), (t * e, e), (2 * t * e, s), (2 * t * e + t * s, s)]

/-- The bytes of a captured page: a short page is its header, its tokens and the first VALID slots of every plane (R524). -/
def pageCapture (d : Dev) (p : Page) : Bytes :=
  let img := pageImage d p
  if p.cls ≠ 4 then img
  else
    let stride := planeStride 16 p.heads p.headDim p.fmt
    let planes := (List.range p.layers).flatMap fun l =>
      (planeRegions 16 p.heads p.headDim p.fmt).flatMap fun r => (img.drop (128 + l * stride + r.1)).take (p.valid * r.2)
    img.take (64 + 4 * p.valid) ++ planes

/-- The plane bytes of a captured page: the slots of a short page go back to their places. -/
def planesOf (cls heads hd fmt layers valid : Nat) (b : Bytes) : Bytes :=
  if cls ≠ 4 then b.drop (64 + 4 * 2 ^ cls)
  else
    let regs := planeRegions 16 heads hd fmt
    let per := (regs.map fun r => valid * r.2).sum
    (List.range layers).flatMap fun l =>
      let raw := (b.drop (64 + 4 * valid + l * per)).take per
      padTo (planeStride 16 heads hd fmt) ((regs.foldl (fun (acc : Bytes × Bytes) r =>
        (acc.1 ++ padTo (16 * r.2) (acc.2.take (valid * r.2)), acc.2.drop (valid * r.2))) ([], raw)).1)

/-- An object entry without chunks. -/
def ckObj (kind object ns : Nat) (b : Bytes) : CkObj :=
  { kind := kind
    source := 0xFF
    valid := 0
    object := object
    ns := ns
    page := false
    bytes := b
    image := none
    chunks := [] }

/-- The pages of a session that are in the scope: those of its committed entries (R515). -/
def scopePages (d : Dev) (x : Desc) : List Page := ((x.table.filter fun e => !e.staged).map (·.page)).filterMap (findPage d)

/-- The objects of a session with their EPOCH (R515, R519): the descriptor at its home, the rest on every member. -/
def sessObjs (x : Desc) : List (Nat × CkObj) :=
  let ep := fun i => (x.epochs[i]?).getD 0
  let t := x.table.filter fun e => !e.staged
  (if x.isHome then [(ep 0, ckObj 0 x.sid x.ns (descBytes x))] else [])
  ++ [(ep 1, ckObj 1 x.sid x.ns (tableBytes x.pageTable t)),
      (ep 2, ckObj 2 x.sid x.ns ((x.tokens.map (le 4)).flatten)),
      (ep 3, ckObj 3 x.sid x.ns (twoGens x.committed (textGenBytes x.text) (textGenBytes x.textPrev))),
      (ep 4, ckObj 4 x.sid x.ns (twoGens x.committed (fretGenBytes x.fret) (fretGenBytes x.fretPrev)))]

/-- The lowest slice that holds the KV heads of a slice, when it is another one (R250, R529). -/
def headSource (m : Model) : Nat :=
  if m.group ≤ m.kvHeadsAll then 0xFF
  else
    let share := m.group / max 1 m.kvHeadsAll
    let low := m.slice / share * share
    if low = m.slice then 0xFF else low

/-- A page as a captured object. -/
def pageObj (d : Dev) (m : Model) (kind : Nat) (p : Page) : Nat × CkObj :=
  (p.epoch, { ckObj kind p.id 0 (pageCapture d p) with
    valid := p.valid
    page := true
    source := headSource m })

/-- Insert an object in ascending (kind, object) order. -/
def objInsert (o : Nat × CkObj) (l : List (Nat × CkObj)) : List (Nat × CkObj) :=
  match l with
  | [] => [o]
  | x :: r =>
    if o.2.kind < x.2.kind ∨ (o.2.kind = x.2.kind ∧ o.2.object < x.2.object) then o :: x :: r else x :: objInsert o r

/-- The in-scope objects on this member with their EPOCH, in ascending (kind, object) order (R515, R524). -/
def scopeObjs (d : Dev) (m : Model) (regions : List Nat) (base : Bool) : List (Nat × CkObj) :=
  let xs := d.sess.descs.filter fun x => x.model == m.handle && x.state != ssFree
  let pages := ((xs.flatMap (scopePages d)).map (·.id)).eraseDups
  let regs := (((d.sess.regions.filter fun r => r.current && regions.contains r.name).flatMap (·.pages)).eraseDups).filter
    fun id => !pages.contains id
  let image := if base then [(d.get Reg.CKPT_EPOCH, { ckObj 7 m.handle 0
      ((List.range m.len).map fun i => Config.imageByte (unle m.content) i) with image := some m })] else []
  ((xs.flatMap sessObjs) ++ (pages.filterMap (findPage d)).map (pageObj d m 5)
    ++ (regs.filterMap (findPage d)).map (pageObj d m 6) ++ image).foldr objInsert []

/-! ### Chains (R523, R539) -/

/-- The shards of a scope in a store. -/
def shardsOf (d : Dev) (kind target model : Nat) : List Shard :=
  d.ckpt.shards.filter fun s => s.kind == kind && s.target == target && s.model == model

/-- The newest committed shard of a scope in a store. -/
def newestShard (l : List Shard) : Option Shard :=
  (l.filter (·.committed)).foldl (fun (acc : Option Shard) s =>
    match acc with
    | none => some s
    | some t => if t.tick < s.tick then some s else some t) none

/-- The shard that a delta names as its base. -/
def baseOf (d : Dev) (s : Shard) : Option Shard :=
  if s.full then none else (shardsOf d s.kind s.target s.model).find? fun b => b.tick == s.baseTick && b.committed

/-- The chain of a shard, the FULL one first; none when a shard of it is missing or not committed (R523, R533). -/
def chainOf (d : Dev) (fuel : Nat) (s : Shard) : Option (List Shard) :=
  match fuel with
  | 0 => none
  | k + 1 =>
    if ¬ s.committed then none
    else if s.full then some [s]
    else
      match baseOf d s with
      | none => none
      | some b => (chainOf d k b).map fun l => l ++ [s]

/-- A chain applied in order: entries replace objects, and GONE entries remove them (R535). -/
def applyChain (l : List Shard) : List CkObj :=
  (l.flatMap (·.entries)).foldl (fun acc o =>
    if o.kind = 8 then
      acc.filter fun x => !(x.object == o.object && x.ns == o.ns && x.page == o.page && x.kind != 7)
    else if acc.any fun x => ckKey x == ckKey o then acc.map fun x => if ckKey x == ckKey o then o else x
    else acc ++ [o]) []

/-! ### Captures -/

/-- The running capture of a scope. -/
def findCapture (d : Dev) (model : Nat) : Option Capture := d.ckpt.captures.find? fun c => c.model == model && ckRunning c

/-- Put back a running capture. -/
def putCapture (c : Capture) (d : Dev) : Dev :=
  setCkpt { d.ckpt with captures := d.ckpt.captures.map fun x => if x.model == c.model && ckRunning x then c else x } d

/-- The dedup entry of a chunk in a store (R527). -/
def findDedup (d : Dev) (hash : Bytes) (kind target : Nat) : Option Dedup :=
  d.ckpt.dedup.find? fun x => x.hash == hash && x.kind == kind && x.target == target

/-- One reference to a chunk is released; a chunk without references is freed (R539). -/
def chunkDrop (kind target key : Nat) (c : CkChunk) (d : Dev) : Dev :=
  match findDedup d c.hash kind target with
  | some x =>
    if x.loc ≠ c.loc then placeFree kind target key c.loc d
    else if x.refs ≤ 1 then
      placeFree kind target key c.loc (setCkpt { d.ckpt with dedup := d.ckpt.dedup.erase x } d)
    else setCkpt { d.ckpt with dedup := d.ckpt.dedup.map fun y => if y == x then { y with refs := y.refs - 1 } else y } d
  | none => placeFree kind target key c.loc d

/-- Start a capture on this member: a CKPT_BEGIN here or announced by another member (R521). -/
def captureStart (a : CaptureMsg) (kind target : Nat) (cmd : Option Cmd) (d : Dev) : Dev :=
  let c : Capture :=
    { model := a.model
      ckptId := a.ckptId
      tick := a.tick
      kind := kind
      target := target
      full := a.full
      baseWeights := a.baseWeights
      part := a.part
      regions := a.regions
      cmd := cmd
      import_ := false
      shard := none
      todo := []
      chunks := []
      placed := none
      buffered := []
      bufUsed := 0
      bufBytes := 0
      votes := []
      committed := false }
  setCkpt { d.ckpt with captures := d.ckpt.captures ++ [c] } d

/-- A capture ends without a shard (R524, R539, R540): its chunks lose their references, its protection and buffer are
released, and its command completes. -/
def captureFail (model code : Nat) (d : Dev) : Dev :=
  match findCapture d model with
  | none => d
  | some c =>
    let key := partKey d c.part
    let d1 := setCkpt { d.ckpt with captures := d.ckpt.captures.filter fun x => !(x.model == model && ckRunning x) } d
    let done := ((c.shard.map (·.entries)).getD []).flatMap (·.chunks)
    let d2 := forAll (done ++ c.chunks) (chunkDrop c.kind c.target key) d1
    let d3 := sweepPages (poolGive 8 c.bufBytes (forAll (d2.fab.placing.filter fun p => p.what == PlaceWhat.ckpt model)
      (fun p e => endPlacing p.id e) d2))
    match c.cmd with
    | some m => failWith m code d3
    | none => d3

/-- Captures whose store is lost (R542). -/
def storeLost (lost : Nat → Nat → Bool) (d : Dev) : Dev :=
  forAll ((d.ckpt.captures.filter fun c => ckRunning c && lost c.kind c.target).map (·.model))
    (fun h e => captureFail h stCkptAborted e) d

/-- CKPT_BUF_MIB in force, in bytes (R543). -/
def captureBuf (d : Dev) : Nat := min 16384 (max 64 (d.get Reg.CKPT_BUF_MIB)) * 1048576

/-- Whether a capture is FULL against a base (R523). -/
def captureFull (c : Capture) (e : Nat) (base : Option Shard) : Bool :=
  match base with
  | none => true
  | some b => c.full || decide (64 ≤ b.chainLen) || b.baseWeights != c.baseWeights
      || decide (2 ^ 31 ≤ (e + 2 ^ 32 - b.epoch) % 2 ^ 32)

/-- R520: an object of EPOCH `ep` changed after base epoch B, up to E. -/
def epochIn (ep b e : Nat) : Bool :=
  let x := (ep + 2 ^ 32 - b) % 2 ^ 32
  decide (1 ≤ x ∧ x ≤ (e + 2 ^ 32 - b) % 2 ^ 32)

/-- GONE entries: objects of the base that have left the scope, one for each session, page and image (R522, R524). -/
def goneObjs (old : List CkObj) (now : List CkObj) : List CkObj :=
  let id := fun (o : CkObj) => (o.page, o.ns, o.object)
  let gone := (old.filter fun o => decide (o.kind ≤ 6) && !now.any fun x => id x == id o).map id
  gone.eraseDups.map fun k => { ckObj 8 k.2.2 k.2.1 [] with page := k.1 }

/-- An object that is written without chunks: a GONE entry, or one whose chunks another slice's manifest holds (R529). -/
def chunkless (o : CkObj) : Bool := o.kind == 8 || o.source != 0xFF || o.bytes.isEmpty

/-- Objects at the front that need no chunk are entered at once (R524). -/
def captureSkip (fuel : Nat) (c : Capture) : Capture :=
  match fuel, c.todo, c.shard with
  | k + 1, o :: rest, some s =>
    if chunkless o then captureSkip k { c with
      todo := rest
      shard := some { s with entries := s.entries ++ [o] } }
    else c
  | _, _, _ => c

/-- The capture seal of one scope (R522, R523, R526): `e` is the epoch recorded. -/
def captureAt (e : Nat) (c : Capture) (d : Dev) : Dev :=
  match findModel d c.model with
  | none => captureFail c.model stCkptAborted d
  | some m =>
    if ¬ poolRoom d 8 (captureBuf d) then captureFail c.model stTierFull d
    else
      let base := newestShard (shardsOf d c.kind c.target c.model)
      let full := captureFull c e base
      let all := scopeObjs d m c.regions c.baseWeights
      let listed := match base with
        | some b => if full then all.map (·.2) else ((all.filter fun o => o.2.kind != 7 && epochIn o.1 b.epoch e).map (·.2))
            ++ goneObjs (((chainOf d 64 b).map applyChain).getD []) (all.map (·.2))
        | none => all.map (·.2)
      let s : Shard :=
        { kind := c.kind
          target := c.target
          ckptId := c.ckptId
          tick := c.tick
          epoch := e
          baseEpoch := if full then 0 else (base.map (·.epoch)).getD 0
          baseTick := if full then 0 else (base.map (·.tick)).getD 0
          model := c.model
          group := m.group
          slice := m.slice
          module_ := d.self
          full := full
          baseWeights := c.baseWeights
          committed := false
          verifyFailed := false
          chainLen := if full then 1 else (base.map (·.chainLen)).getD 0 + 1
          manLoc := 0
          entries := [] }
      (poolTake 8 (captureBuf d) (putCapture (captureSkip (listed.length + 1) { c with
        shard := some s
        todo := listed
        bufBytes := captureBuf d }) d)).count Reg.CKPT_CAPTURES 1

/-! ### Copy on write (R525, R526) -/

/-- The protected objects that a commit of a session writes: kind, object and bytes copied. -/
def cowWrites (d : Dev) (x : Desc) (laysOut : Bool) : List (Nat × Nat × Nat × Nat) :=
  (if x.isHome then [(0, x.ns, x.sid, 256)] else [])
  ++ (if laysOut then [(1, x.ns, x.sid, 4096)] else [])
  ++ [(3, x.ns, x.sid, 256)]
  ++ (if x.grammar ≠ 0 then [(4, x.ns, x.sid, 4224)] else [])
  ++ (match openPage x with
      | some e => if laysOut then [(5, 0, e.page, ((findPage d e.page).map pageSize).getD 0)] else []
      | none => [])

/-- The writes of a commit that a capture must copy first: appends beyond the captured VALID need no copy (R525). -/
def cowNeeds (c : Capture) (x : Desc) (ws : List (Nat × Nat × Nat × Nat)) : List (Nat × Nat × Nat × Nat) :=
  ws.filter fun w => (c.todo.any fun o => ckKey o == (w.1, w.2.1, w.2.2.1)
      && !(w.1 == 5 && ((openPage x).any fun e => decide (o.valid ≤ e.valid))))
    && !c.buffered.contains (w.1, w.2.1, w.2.2.1)

/-- The buffer of a capture has no room for the copies that a commit needs (R526). -/
def cowBlocks (c : Capture) (x : Desc) (ws : List (Nat × Nat × Nat × Nat)) : Bool :=
  let n := cowNeeds c x ws
  !n.isEmpty && decide (c.bufBytes < c.bufUsed + (n.map (·.2.2.2)).sum)

/-- A commit of the session waits for a capture (R525, R526). -/
def cowWaits (d : Dev) (x : Desc) (laysOut : Bool) : Bool :=
  (findCapture d x.model).any fun c => cowBlocks c x (cowWrites d x laysOut)

/-- The objects that a blocked commit writes are captured next, straight to the store (R526). -/
def cowAhead (x : Desc) (laysOut : Bool) (d : Dev) : Dev :=
  match findCapture d x.model with
  | none => d
  | some c =>
    let ns := (cowNeeds c x (cowWrites d x laysOut)).map fun w => (w.1, w.2.1, w.2.2.1)
    let head := if c.chunks.isEmpty then [] else c.todo.take 1
    let rest := c.todo.drop head.length
    let order := head ++ (rest.filter fun o => ns.contains (ckKey o)) ++ rest.filter fun o => !ns.contains (ckKey o)
    putCapture { c with todo := order } d

/-- The Stairwell copies what a commit writes into the capture buffer (R525). -/
def cowCommit (x : Desc) (laysOut : Bool) (d : Dev) : Dev :=
  match findCapture d x.model with
  | none => d
  | some c =>
    let n := cowNeeds c x (cowWrites d x laysOut)
    if n.isEmpty then d
    else
      ((putCapture { c with
        buffered := c.buffered ++ n.map (fun w => (w.1, w.2.1, w.2.2.1))
        bufUsed := c.bufUsed + (n.map (·.2.2.2)).sum } d).count Reg.CKPT_COW_COPIES n.length).count
        Reg.CKPT_COW_BYTES (n.map (·.2.2.2)).sum

/-! ### Chunks (R524, R527, R528) -/

/-- The bytes of the chunk that a capture writes next. -/
def nextChunk (c : Capture) : Option Bytes :=
  c.todo.head?.map fun o => (o.bytes.drop (chunkBytes * c.chunks.length)).take chunkBytes

/-- A chunk of the first object is in the store: the object is released once it has all of them. -/
def chunkEntered (x : CkChunk) (c : Capture) (d : Dev) : Dev :=
  match c.todo, c.shard with
  | o :: rest, some s =>
    let cs := c.chunks ++ [x]
    if cs.length * chunkBytes < o.bytes.length then putCapture { c with
        chunks := cs
        placed := none } d
    else
      sweepPages (putCapture (captureSkip (rest.length + 1) { c with
        todo := rest
        chunks := []
        placed := none
        buffered := c.buffered.filter fun k => k != ckKey o
        shard := some { s with entries := s.entries ++ [{ o with chunks := cs }] } }) d)
  | _, _ => d

/-- Take a place of `n` bytes in a LOCAL or HOST store. -/
def storeTake (c : Capture) (n : Nat) (d : Dev) : Option Nat × Dev :=
  match c.kind with
  | 0 => t4Alloc n d
  | _ => ((d.tier.t3.find? fun r => r.num == c.target).bind fun r => t3AllocIn d r n, d)

/-- Write bytes to a place of a LOCAL or HOST store. -/
def storeWrite (c : Capture) (loc : Nat) (b : Bytes) (d : Dev) : Dev :=
  let sealed_ := Config.xtsSeal (partKey d c.part) loc b
  if c.kind = 0 then
    let id := d.flash.nextId
    (flashProgram id none (flashWrite (.capture c.model) loc (unitsOf b.length) b.length d)).2
  else
    match d.tier.t3.find? fun r => r.num == c.target with
    | some r => d.emit (.hostWrite r.slot (r.base + (loc - t3Loc r.slot r.base)) sealed_)
    | none => d

/-- The next chunk of a capture to a REMOTE store starts on its way in TC6 (R516, R524). -/
def remoteStart (model : Nat) (d : Dev) : Dev :=
  match findCapture d model with
  | none => d
  | some c =>
    match nextChunk c with
    | none => d
    | some b =>
      let key := partKey d c.part
      if c.kind ≠ 1 ∨ c.placed.isSome ∨ (findDedup d (chunkHash key b) 1 c.target).isSome
          ∨ d.fab.placing.any fun p => p.what == PlaceWhat.ckpt model then d
      else (placeStart (.ckpt model) 1 true 6 key false false b (some c.target) d).2

/-- The extent of a chunk in a REMOTE store is sealed. -/
def remotePlaced (model : Nat) (got : List (Nat × Nat)) (d : Dev) : Dev :=
  match findCapture d model, got with
  | some c, g :: _ => putCapture { c with placed := some g.2 } d
  | _, _ => d

/-- CAPTURE_CHUNK_DONE (R524, R527, R528): the chunk is found in the dedup table, or its write has completed and been read back,
with a second write when the first read-back differed. While the key rings are disabled nothing can be read back: the capture
ends with KEYS_DISABLED (R613). -/
def chunkDone (model : Nat) (firstOk secondOk : Bool) (d : Dev) : Dev :=
  match findCapture d model with
  | none => d
  | some c =>
    match nextChunk c with
    | none => d
    | some b =>
      if d.sec.keysOff then captureFail model stKeysDisabled d
      else
        let key := partKey d c.part
        let h := chunkHash key b
        match findDedup d h c.kind c.target with
        | some x =>
          remoteStart model (chunkEntered ⟨h, x.loc, b.length⟩ c ((setCkpt { d.ckpt with
            dedup := d.ckpt.dedup.map fun y => if y == x then { y with refs := y.refs + 1 } else y } d).count
            Reg.CKPT_DEDUP_HITS 1))
        | none =>
          if c.kind = 1 ∧ c.placed.isNone then remoteStart model d
          else if c.kind ≠ 1 ∧ ¬ storeRoom d c b.length then captureFail model stCkptStoreFull d
          else
            let (loc, d1) : Option Nat × Dev := if c.kind = 1 then (c.placed, d) else storeTake c b.length d
            match loc with
            | none => captureFail model stCkptStoreFull d
            | some l =>
              let d2 := ((if c.kind = 1 then d1 else storeWrite c l b d1).count Reg.CKPT_BYTES_WRITTEN b.length)
              let keep := fun (at_ : Nat) (e : Dev) =>
                let e1 := if e.ckpt.dedup.length < 16777216 then setCkpt { e.ckpt with
                    dedup := e.ckpt.dedup ++ [⟨h, c.kind, c.target, 1, at_, b.length⟩] } e
                  else e.count Reg.CKPT_DEDUP_FULL 1
                remoteStart model (chunkEntered ⟨h, at_, b.length⟩ c e1)
              if firstOk then keep l d2
              else
                let d3 := d2.count Reg.CKPT_VERIFY_RETRIES 1
                if c.kind = 1 then
                  if secondOk then keep l d3 else captureFail model stCkptVerifyFail (placeFree 1 c.target key l d3)
                else
                  let (loc2, d4) := storeTake c b.length d3
                  match loc2 with
                  | none => captureFail model stCkptStoreFull (placeFree c.kind c.target key l d4)
                  | some l2 =>
                    let d5 := placeFree c.kind c.target key l ((storeWrite c l2 b d4).count Reg.CKPT_BYTES_WRITTEN b.length)
                    if secondOk then keep l2 d5
                    else captureFail model stCkptVerifyFail (placeFree c.kind c.target key l2 d5)

/-- The capture seals at the seal of plan `number` (R518, R522): CKPT_EPOCH advances once. -/
def captureSeal (number : Nat) (d : Dev) : Dev :=
  let cs := d.ckpt.captures.filter fun c => ckRunning c && c.shard.isNone && decide ((number + two64 - c.tick % two64) % two64 < two64 / 2)
  if cs.isEmpty then d
  else
    let e := d.get Reg.CKPT_EPOCH
    forAll cs (fun c z => remoteStart c.model (captureAt e c z)) (d.set Reg.CKPT_EPOCH (e + 1))

/-! ### Commit (R530, R531) -/

/-- Votes of a committed capture are settled: with all of them the checkpoint is complete; when every member that has not voted
is LOST it is incomplete (R531). -/
def ckptSettle (d : Dev) : Dev :=
  forAll (d.ckpt.captures.filter (·.committed)) (fun c e =>
    let members := ((findModel e c.model).map (·.members)).getD [e.self]
    let missing := members.filter fun m => !c.votes.contains m
    let drop := fun (z : Dev) => setCkpt { z.ckpt with captures := z.ckpt.captures.erase c } z
    if missing.isEmpty then (postPartition c.part evCkptComplete (c.tick % 2 ^ 32) c.model 0 0 (drop e)).2
    else if missing.all fun m => peerState e m == .lost then
      (postPartition c.part evCkptIncomplete ((missing.min?).getD 0) c.model 0 0 (drop e)).2
    else e) d

/-- SHARD_COMMIT (R524, R531): the manifest has been written and read back. -/
def shardCommit (model : Nat) (readEqual : Bool) (d : Dev) : Dev :=
  match findCapture d model with
  | none => d
  | some c =>
    match c.shard with
    | none => d
    | some s =>
      if ¬ c.todo.isEmpty then d
      else if d.sec.keysOff then captureFail model stKeysDisabled d
      else if ¬ readEqual then captureFail model stCkptVerifyFail d
      else if ¬ storeRoom d c (manifestLen s) then captureFail model stCkptStoreFull d
      else
        let (loc, d1) : Option Nat × Dev := if c.kind = 1 then (some 0, d) else storeTake c (manifestLen s) d
        match loc with
        | none => captureFail model stCkptStoreFull d
        | some l =>
          let s1 := { s with
            committed := true
            manLoc := l }
          let others := if c.import_ then [] else ((findModel d1 model).map fun q => q.members.filter (· != d1.self)).getD []
          let left := d1.ckpt.captures.filter fun x => !(x.model == model && ckRunning x)
          let kept := if c.import_ then left else left ++ [{ c with
            shard := none
            committed := true
            cmd := none
            bufBytes := 0
            votes := if c.votes.contains d1.self then c.votes else c.votes ++ [d1.self] }]
          let d2 := poolGive 8 c.bufBytes (setCkpt { d1.ckpt with
            shards := d1.ckpt.shards ++ [s1]
            captures := kept } d1)
          let d3 := match c.cmd with
            | some m => complete m stSuccess (if c.import_ then 0 else c.tick) 0 [] d2
            | none => d2
          if c.import_ then d3
          else ckptSettle (sendAll others (.shardVote model c.ckptId) (postPartition c.part evCkptCommitted d3.self model 0 0 d3).2)

/-- SHARD_VOTE_RX (R531). -/
def shardVoteRx (src model ckpt : Nat) (d : Dev) : Dev :=
  if peerState d src = .lost then d
  else
    let vote := fun (c : Capture) =>
      if c.model == model && c.ckptId == ckpt && !c.votes.contains src && !c.import_ then
        { c with votes := c.votes ++ [src] } else c
    ckptSettle (setCkpt { d.ckpt with captures := d.ckpt.captures.map vote } d)

/-- CAPTURE_ANNOUNCE_RX (R521): the capture starts unless the capture tick's plan is sealed already. -/
def captureAnnounceRx (src : Nat) (a : CaptureMsg) (d : Dev) : Dev :=
  if peerState d src = .lost ∨ a.tick ≤ d.get Reg.TICK_NOW ∨ (d.tick.sealed ∧ a.tick = d.get Reg.TICK_NOW + 1) then d
  else
    match findStore d a.store with
    | none => d
    | some s => if (findCapture d a.model).isSome ∨ ¬ storeThere d s.kind s.target then d
        else captureStart a s.kind s.target none d

end Sys2Proof.Machine
end

