-- ==== Sys2Proof/Machine/Host.lean ====
section
/-! DEFINITION. Host slots, queues, rings, doorbells and the loss of a host (spec/03). -/

namespace Sys2Proof.Machine

open Sys2Proof

/-- Host events (R110). -/
def evSlotBound : Nat := 0x0181
def evSlotUnbound : Nat := 0x0182
def evDoorbellInvalid : Nat := 0x0183
def evEventsDropped : Nat := 0x0184
def evQueueFault : Nat := 0x0185

/-- Key status codes (R615). -/
def stKeySlotEmpty : Nat := 0x0803
def stKeySlotRetired : Nat := 0x0804
def stKeyPartitionMismatch : Nat := 0x0806

/-- Bytes of a stream ring's spill area (R108). -/
def spillBytes : Nat := 262144

/-- HOST_BI_TIMEOUT_US in force, in ns (R92, R118). -/
def biTimeoutNs (d : Dev) (n : Nat) : Nat := clampNat 10 10000 (d.get (Reg.HOST_BI_TIMEOUT_US n)) * 1000

/-! ### BIND_SLOT and UNBIND_SLOT (R79-R82, R356, R549, R608, R609, R613) -/

/-- Granules of a slot's window. -/
def windowGranules (d : Dev) (n : Nat) : List Nat := granulesOf (winBase d n) (winBytes d n)

/-- A granule that BIND_SLOT must reserve bytes for: never written and not reserved by another window (R81). -/
def unreserved (d : Dev) (part idx : Nat) : Bool :=
  match findGranule d part idx with
  | none => true
  | some g => g.tier == noTier && !g.hostWindow

/-- The checks of BIND_SLOT: the window's size in bytes. -/
def bindChecks (slot part key size base : Nat) (d : Dev) : List (Bool × Nat) :=
  let total := ((slotNumbers.filter fun n => d.get (Reg.SLOT_STATE n) != 0).map (winBytes d)).sum
  let need := granuleBytes * ((granulesOf base size).filter (unreserved d part)).length
  let pk := d.get (Reg.SEC_PART_KEY part)
  [(decide (16 ≤ slot ∨ 8 ≤ part ∨ 64 ≤ key) || d.get (Reg.PART_ENABLED part) == 0, stInvalidField),
   (!deviceReady d, stNotReady),
   (d.get (Reg.SLOT_STATE slot) != 0, stSlotBusy),
   (!decide (268435456 ≤ size ∧ size ≤ 68719476736 ∧ size % 268435456 = 0 ∧ base % 268435456 = 0
      ∧ base + size ≤ 2 ^ 52 ∧ total + size ≤ 137438953472), stWindowRange),
   (!poolRoom d part need, stTierFull),
   (!bitAt (d.get Reg.SEC_TENANT_PRESENT) key, stKeySlotEmpty),
   (bitAt (d.get Reg.SEC_TENANT_RETIRED) key, stKeySlotRetired),
   (pk != 0 && pk != 64 + key, stKeyPartitionMismatch),
   (d.sec.keysOff, stKeysDisabled)]

/-- Map and pin the granules of a window (R356). -/
def windowMap (part : Nat) (gs : List Nat) (d : Dev) : Dev :=
  let need := granuleBytes * (gs.filter (unreserved d part)).length
  let fresh := (gs.filter fun i => (findGranule d part i).isNone).map fun i => newGranule part i true true
  let old := d.tier.granules.map fun g => if g.part == part && gs.contains g.idx then
      { g with
        pinT1 := true
        hostWindow := true } else g
  poolTake part need (setTier { d.tier with granules := old ++ fresh } d)

/-- BIND_SLOT: `size` is in bytes. -/
def bindSlot (slot part key size base : Nat) (admin : Bool) (d : Dev) : Dev :=
  match lowest (bindChecks slot part key size base d) with
  | some st => d.emit (.fmStatus slot st)
  | none =>
    let d1 := if d.get (Reg.SEC_PART_KEY part) = 0 then
        setTier { d.tier with pulled := d.tier.pulled.filter (· != part) } (d.set (Reg.SEC_PART_KEY part) (64 + key)) else d
    let d2 := windowMap part (granulesOf base size) d1
    let d3 := (((((d2.set (Reg.SLOT_STATE slot) 1).set (Reg.SLOT_PART slot) part).set (Reg.SLOT_KEY slot) key).set
      (Reg.SLOT_ADMIN slot) (if admin then 1 else 0)).set (Reg.WIN_SIZE slot) (size / 268435456)).set (Reg.WIN_BASE slot) base
    postAdmins (some slot) evSlotBound (slot + part * 16 + key * 128) (d3.emit (.fmStatus slot stSuccess))

/-- A slot enters UNBOUND (R82, R111 step 6, R356, R687). -/
def toUnbound (n : Nat) (viaLost : Bool) (d : Dev) : Dev :=
  let part := d.get (Reg.SLOT_PART n)
  let others := (slotNumbers.filter fun s => s != n && d.get (Reg.SLOT_STATE s) != 0 && d.get (Reg.SLOT_PART s) == part)
  let mine := (windowGranules d n).filter fun i =>
    !(others.any fun s => decide (winBase d s ≤ i * granuleBytes ∧ i * granuleBytes < winBase d s + winBytes d s))
  let unwritten := d.tier.granules.countP fun g => g.part == part && mine.contains g.idx && g.tier == noTier
  let d1 := setTier { d.tier with granules := d.tier.granules.map fun g =>
    if g.part == part && mine.contains g.idx then
      { g with
        pinT1 := false
        hostWindow := false }
    else g } d
  let spills := d.host.rings.countP fun r => r.slot == n && r.kind == .stream
  let d2 := poolGive 8 (spillBytes * spills) (poolGive part (granuleBytes * unwritten) d1)
  let d3 := setHost { d2.host with
    sqs := d2.host.sqs.filter fun q => q.slot != n
    cqs := d2.host.cqs.filter fun q => q.slot != n
    rings := d2.host.rings.filter fun q => q.slot != n
    snoop := d2.host.snoop.filter fun q => q.slot != n
    bis := d2.host.bis.filter fun q => q.slot != n
    slots := d2.host.slots.filter fun q => q.1 != n } d2
  postAdmins (some n) evSlotUnbound (n + if viaLost then 16 else 0)
    (((d3.set (Reg.SLOT_STATE n) 0).set (Reg.Q0_ENABLE n) 0).set (Reg.WIN_SIZE n) 0)

/-! ### When a host is lost (R111-R115, R148, R375) -/

/-- Pages are lost and no replica is left (R148): sessions that hold them go back to the newest allowed target before the
first lost token, and stop; without one they expire. -/
def pagesLost (ids : List Nat) (d : Dev) : Dev :=
  forAll (d.sess.descs.filter fun x => x.table.any fun e => ids.contains e.page) (fun x0 e =>
    let k := descKey x0
    match findDesc e k with
    | none => e
    | some x =>
      let firstLost := (((x.table.filter fun t => ids.contains t.page).map (·.firstPos)).min?).getD 0
      let cands := [x.committed] ++ (if x.committed = 0 then [] else [x.committed - 1]) ++ x.turnStarts.map (·.1)
      let ok := cands.filter fun c => ((rewindLen x c).map fun l => decide (l ≤ firstLost)).getD false
      match ok.max? with
      | some t =>
        let e1 := rewindTo k t (onDesc k (fun y => { y with
          migrWait := []
          migrCmd := none }) e)
        sessEvent x evRewound 2 t (enterState k ssStopped srPagesLost (endTurn k ((rewindLen x t).getD 0) e1))
      | none => sessEvent x evRewound 2 0 (expireSession k e)) d

/-- Sessions with a line that the slot owns in their inbox or session memory (R111 step 2). -/
def markedBy (d : Dev) (n : Nat) : List SessKey :=
  let own := d.host.snoop.filter fun s => s.slot == n && s.owned
  (d.sess.descs.filter fun x => own.any fun s => s.part == x.part &&
    (decide (x.inboxBase ≠ 0 ∧ x.inboxBase < s.line * 64 + 64 ∧ s.line * 64 < x.inboxBase + x.inboxLen)
     || decide (x.smemBase ≠ 0 ∧ x.smemBase < s.line * 64 + 64 ∧ s.line * 64 < x.smemBase + x.smemLen))).map descKey

/-- A slot enters LOST: steps 1 to 4 of R111, its pending commands are dropped (R114), its T3 regions are lost (R375), and the
work that waited for its lines proceeds (R684). -/
def slotLost (n : Nat) (d : Dev) : Dev :=
  if d.get (Reg.SLOT_STATE n) ≠ 1 ∧ d.get (Reg.SLOT_STATE n) ≠ 2 then d
  else
    let marked := markedBy d n
    let owned := d.host.snoop.countP fun s => s.slot == n && s.owned
    let bis := d.host.bis.filter fun b => b.slot == n
    let d1 := (setHost { d.host with
      snoop := d.host.snoop.filter fun s => s.slot != n
      bis := d.host.bis.filter fun b => b.slot != n
      accepted := d.host.accepted.filter fun m =>
        match m.origin with
        | .host s _ _ _ => s != n
        | .peer _ _ => true
      slots := (n, ⟨true, d.clock, marked, 0⟩) :: d.host.slots.filter fun s => s.1 != n } d).set (Reg.SLOT_STATE n) 3
    let d2 := d1.count (Reg.HOST_LINES_ABANDONED n) owned
    let d3 := forAll marked (fun k e => (dropStep k e).count Reg.SESS_REWINDS 1) d2
    let regs := (d3.tier.t3.filter fun r => r.slot == n).map (·.num)
    let (ids, d4) := t3SlotLost n (storeLost (fun k t => k == 2 && regs.contains t) d3)
    forAll bis biProceed (pagesLost ids d4)

/-- HOST_LOSS_COMPLETE: steps 5 and 6 of R111. -/
def hostLossComplete (n : Nat) (d : Dev) : Dev :=
  if d.get (Reg.SLOT_STATE n) ≠ 3 then d
  else
    let marked := ((assocGet d.host.slots n).map (·.marked)).getD []
    let d1 := forAll marked (fun k e =>
      match findDesc e k with
      | some x => sessEvent x evHostLost n x.committed e
      | none => e) d
    toUnbound n true d1

/-- UNBIND_SLOT (R80, R687). -/
def unbindSlot (n : Nat) (flush : Bool) (d : Dev) : Dev :=
  if ¬ deviceReady d then d.emit (.fmStatus n stNotReady)
  else if 16 ≤ n then d.emit (.fmStatus n stInvalidField)
  else
    let d0 := d.emit (.fmStatus n stSuccess)
    let st := d.get (Reg.SLOT_STATE n)
    if st = 0 ∨ st = 3 ∨ (st = 2 ∧ flush) then d0
    else if ¬ flush then slotLost n d0
    else
      let d1 := (setHost { d0.host with
        slots := (n, ⟨false, 0, [], d.clock⟩) :: d0.host.slots.filter fun s => s.1 != n } d0).set (Reg.SLOT_STATE n) 2
      forAll (d1.host.snoop.filter fun s => s.slot == n && s.owned) (fun s e => biStart s.part s.line n .flush e) d1

/-- Commands of a slot that have been accepted and have not completed. -/
def slotBusy (d : Dev) (n : Nat) : Bool := d.host.sqs.any fun q => q.slot == n && !q.outstanding.isEmpty

/-- UNBIND_COMPLETE (R80). -/
def unbindComplete (n : Nat) (d : Dev) : Dev :=
  if d.get (Reg.SLOT_STATE n) = 2 ∧ ¬ (d.host.snoop.any fun s => s.slot == n && s.owned) ∧ ¬ slotBusy d n then
    toUnbound n false d
  else d

/-- UNBIND_FLUSH_TIMEOUT (R80). -/
def unbindTimeout (n : Nat) (d : Dev) : Dev :=
  let at_ := ((assocGet d.host.slots n).map (·.unbindAt)).getD 0
  if d.get (Reg.SLOT_STATE n) = 2 ∧ d.host.snoop.any (fun s => s.slot == n && s.owned)
      ∧ at_ + biTimeoutNs d n ≤ d.clock then slotLost n d
  else d

/-- HOST_LINK_DOWN (R115): every slot that is served is lost. -/
def hostLinkDown (d : Dev) : Dev :=
  forAll slotNumbers slotLost (setHost { d.host with linkUp := false } d)

/-- HOST_LINK_UP (R637): the link is trained. -/
def hostLinkUp (d : Dev) : Dev := setHost { d.host with linkUp := true } d

/-- BI_TIMEOUT (R684): the slot that left a back-invalidate unanswered is lost. -/
def biTimeout (slot line : Nat) (d : Dev) : Dev :=
  let late := d.host.bis.any fun b => b.slot == slot && b.line == line && decide (b.at_ + biTimeoutNs d slot ≤ d.clock)
    && (match b.purpose with
      | .snapshot _ => false
      | _ => true)
  if late then slotLost slot d else d

/-- SNAPSHOT_BI_TIMEOUT (R92). -/
def snapshotTimeout (slot line : Nat) (d : Dev) : Dev :=
  let late := d.host.bis.filterMap fun b =>
    match b.purpose with
    | .snapshot o => if b.slot == slot && b.line == line && decide (b.at_ + biTimeoutNs d slot ≤ d.clock) then some o else none
    | _ => none
  forAll (d.host.accepted.filter fun m => late.contains m.order) (fun m e =>
    failWith m stHostBiTimeout (e.count (Reg.HOST_BI_TIMEOUTS m.c.slot) 1)) d

/-! ### Queues and rings (R93-R98, R105, R118) -/

/-- Watched lines of a slot (R105). -/
def watchedLines (d : Dev) (n : Nat) : Nat :=
  (d.host.sqs.countP fun q => q.slot == n && q.polled) + (d.host.cqs.countP fun q => q.slot == n && q.polled)
  + d.host.rings.countP fun r => r.slot == n

/-- A further watched line is beyond the limit. -/
def pollFull (d : Dev) (n : Nat) : Bool := decide (8192 ≤ watchedLines d n)

/-- Sessions with a HOST_LOST that waits get it on the first event ring created in their partition (R113). -/
def deliverLost (slot ring : Nat) (d : Dev) : Dev :=
  forAll (d.sess.descs.filter fun x => x.hostLost.isSome && x.part == d.get (Reg.SLOT_PART slot)) (fun x e =>
    postEvent slot ring evHostLost (x.hostLost.getD 0) x.sid x.committed 0
      (onDesc (descKey x) (fun y => { y with hostLost := none }) e)) d

/-- DUMP_PRESENT goes to the first slot bound with ADMIN set, once its event ring 0 exists (R630). -/
def deliverDump (slot : Nat) (d : Dev) : Dev :=
  if d.get Reg.RAS_DUMP_PRESENT = 1 ∧ ¬ d.boot.dumpPosted ∧ slotAdmin d slot then
    postEvent slot 0 evDumpPresent ((d.ras.dump.map (·.cause)).getD 0) 0 0 0
      { d with boot := { d.boot with dumpPosted := true } }
  else d

/-- Q0_ENABLE_WRITE (R118): the word at 0x130. -/
def q0EnableWrite (n word : Nat) (d : Dev) : Dev :=
  let d1 := ((d.set (Reg.SQ0_LOG2 n) (bitsOf word 0 5)).set (Reg.CQ0_LOG2 n) (bitsOf word 8 5)).set (Reg.EVT0_LOG2 n)
    (bitsOf word 16 5)
  if ¬ bitAt word 24 ∨ d1.get (Reg.Q0_ENABLE n) = 1 then d1
  else
    let sm := bitsOf word 0 5
    let cm := bitsOf word 8 5
    let em := bitsOf word 16 5
    let ok := slotBound d1 n && decide (1 ≤ sm ∧ sm ≤ 16 ∧ 1 ≤ cm ∧ cm ≤ 16 ∧ 6 ≤ em ∧ em ≤ 20
      ∧ d1.get (Reg.SQ0_BASE n) % 4096 = 0 ∧ d1.get (Reg.CQ0_BASE n) % 4096 = 0 ∧ d1.get (Reg.EVT0_BASE n) % 4096 = 0
      ∧ d1.get (Reg.EVT0_HEAD_LINE n) % 64 = 0)
    if ¬ ok then d1.set (Reg.Q0_FAULT n) 1
    else
      let q : Sq := ⟨n, 0, d1.get (Reg.SQ0_BASE n), sm, 0, false, 0, 0, 0, []⟩
      let c : Cq := ⟨n, 0, d1.get (Reg.CQ0_BASE n), cm, false, 0, true, d1.get (Reg.CQ0_VECTOR n), 0, 0, true, []⟩
      let r : Ring := ⟨.event, n, 0, d1.get (Reg.EVT0_BASE n), em, d1.get (Reg.EVT0_HEAD_LINE n), true,
        d1.get (Reg.EVT0_VECTOR n), 0, 0, true, [], 0⟩
      deliverDump n (deliverLost n 0 (((setHost { d1.host with
        sqs := d1.host.sqs ++ [q]
        cqs := d1.host.cqs ++ [c]
        rings := d1.host.rings ++ [r] } d1).set (Reg.Q0_ENABLE n) 1).set (Reg.Q0_FAULT n) 0))

/-- NOP (R97). -/
def nopApply (m : Cmd) (d : Dev) : Dev := complete m stSuccess 0 0 [] d

/-- CREATE_SQ (R93, R97, R105). -/
def createSqChecks (d : Dev) (m : Cmd) : List (Bool × Nat) :=
  let id := argAt m.c 48 2
  let sz := argAt m.c 52 1
  let polled := bitAt (argAt m.c 53 1) 0
  [(polled && m.c.addrB % 64 != 0, stInvalidField),
   (!decide (1 ≤ id ∧ id ≤ 16383) || (findCq d m.c.slot (argAt m.c 50 2)).isNone, stQueueInvalid),
   ((findSq d m.c.slot id).isSome, stQueueExists),
   (!decide (1 ≤ sz ∧ sz ≤ 16 ∧ m.c.addrA % 4096 = 0), stQueueSize),
   (polled && pollFull d m.c.slot, stPollLimit)]
def createSqApply (m : Cmd) (d : Dev) : Dev :=
  let polled := bitAt (argAt m.c 53 1) 0
  complete m stSuccess 0 0 [] (setHost { d.host with sqs := d.host.sqs ++
    [⟨m.c.slot, argAt m.c 48 2, m.c.addrA, argAt m.c 52 1, argAt m.c 50 2, polled, m.c.addrB, 0, 0, []⟩] } d)

/-- CREATE_CQ (R97, R106). -/
def createCqChecks (d : Dev) (m : Cmd) : List (Bool × Nat) :=
  let id := argAt m.c 48 2
  let sz := argAt m.c 52 1
  let polled := bitAt (argAt m.c 53 1) 0
  [(polled && m.c.addrB % 64 != 0, stInvalidField),
   (!decide (1 ≤ id ∧ id ≤ 16383), stQueueInvalid),
   ((findCq d m.c.slot id).isSome, stQueueExists),
   (!decide (1 ≤ sz ∧ sz ≤ 16 ∧ m.c.addrA % 4096 = 0), stQueueSize),
   (polled && pollFull d m.c.slot, stPollLimit)]
def createCqApply (m : Cmd) (d : Dev) : Dev :=
  let f := argAt m.c 53 1
  complete m stSuccess 0 0 [] (setHost { d.host with cqs := d.host.cqs ++
    [⟨m.c.slot, argAt m.c 48 2, m.c.addrA, argAt m.c 52 1, bitAt f 0, m.c.addrB, bitAt f 1, argAt m.c 54 2 % 2048,
      0, 0, true, []⟩] } d)

/-- CREATE_STREAM_RING (R97, R108, R683) and CREATE_EVENT_RING. -/
def createRingChecks (k : QueueKind) (lo hi : Nat) (d : Dev) (m : Cmd) : List (Bool × Nat) :=
  let id := argAt m.c 48 2
  let sz := argAt m.c 52 1
  [(m.c.addrB % 64 != 0, stInvalidField),
   (!decide (lo ≤ id ∧ id ≤ hi), stQueueInvalid),
   ((findRing d k m.c.slot id).isSome, stQueueExists),
   (!decide (6 ≤ sz ∧ sz ≤ 20 ∧ m.c.addrA % 4096 = 0), stQueueSize),
   (pollFull d m.c.slot, stPollLimit),
   (k == .stream && !poolRoom d 8 spillBytes, stTierFull)]
def createStreamApply (m : Cmd) (d : Dev) : Dev :=
  complete m stSuccess 0 0 [] (poolTake 8 spillBytes (setHost { d.host with rings := d.host.rings ++
    [⟨.stream, m.c.slot, argAt m.c 48 2, m.c.addrA, argAt m.c 52 1, m.c.addrB, false, 0, 0, 0, true, [], 0⟩] } d))
def createEventApply (m : Cmd) (d : Dev) : Dev :=
  complete m stSuccess 0 0 [] (deliverLost m.c.slot (argAt m.c 48 2) (setHost { d.host with rings := d.host.rings ++
    [⟨.event, m.c.slot, argAt m.c 48 2, m.c.addrA, argAt m.c 52 1, m.c.addrB, bitAt (argAt m.c 53 1) 0,
      argAt m.c 54 2 % 2048, 0, 0, true, [], 0⟩] } d))

/-- The command takes effect at a seal, so it can be aborted while it is pending (R98). -/
def abortable (m : Cmd) : Bool := ((opInfo m.c.opcode).map fun i => i.effect == .seal_).getD false

/-- A pending command completes with ABORTED, and its tokenisation pass is stopped (R98). -/
def abortCmd (m : Cmd) (d : Dev) : Dev :=
  failWith m stAborted (setText { d.text with passes := d.text.passes.filter fun p => p.order != m.order } d)

/-- Pending commands of a queue (R98). -/
def sqPending (d : Dev) (slot sq : Nat) : List Cmd :=
  d.host.accepted.filter fun m =>
    match m.origin with
    | .host s q _ _ => s == slot && q == sq && abortable m
    | .peer _ _ => false

/-- Delete an SQ (R98). -/
def deleteSq (slot id : Nat) (d : Dev) : Dev :=
  let d1 := forAll (sqPending d slot id) abortCmd d
  setHost { d1.host with sqs := d1.host.sqs.filter fun q => !(q.slot == slot && q.id == id) } d1

/-- DELETE_SQ, DELETE_CQ and the deletion of rings (R97, R98). -/
def deleteSqChecks (d : Dev) (m : Cmd) : List (Bool × Nat) :=
  [(argAt m.c 48 2 == 0 || (findSq d m.c.slot (argAt m.c 48 2)).isNone, stQueueInvalid)]
def deleteSqApply (m : Cmd) (d : Dev) : Dev := complete m stSuccess 0 0 [] (deleteSq m.c.slot (argAt m.c 48 2) d)
def deleteCqChecks (d : Dev) (m : Cmd) : List (Bool × Nat) :=
  let id := argAt m.c 48 2
  [(id == 0 || (findCq d m.c.slot id).isNone, stQueueInvalid),
   (d.host.sqs.any fun q => q.slot == m.c.slot && q.cq == id, stCqInUse)]
def deleteCqApply (m : Cmd) (d : Dev) : Dev :=
  complete m stSuccess 0 0 [] (setHost { d.host with cqs := d.host.cqs.filter fun q =>
    !(q.slot == m.c.slot && q.id == argAt m.c 48 2) } d)

/-- Remove a ring; a stream ring's spill area returns to the pool (R683). -/
def deleteRing (k : QueueKind) (slot id : Nat) (d : Dev) : Dev :=
  let d1 := setHost { d.host with rings := d.host.rings.filter fun r => !(r.kind == k && r.slot == slot && r.id == id) } d
  if k = .stream then poolGive 8 spillBytes d1 else d1
def deleteStreamChecks (d : Dev) (m : Cmd) : List (Bool × Nat) :=
  [((findRing d .stream m.c.slot (argAt m.c 48 2)).isNone, stQueueInvalid)]
def deleteStreamApply (m : Cmd) (d : Dev) : Dev :=
  complete m stSuccess 0 0 [] (deleteRing .stream m.c.slot (argAt m.c 48 2) d)
def deleteEventChecks (d : Dev) (m : Cmd) : List (Bool × Nat) :=
  [(argAt m.c 48 2 == 0 || (findRing d .event m.c.slot (argAt m.c 48 2)).isNone, stQueueInvalid)]
def deleteEventApply (m : Cmd) (d : Dev) : Dev :=
  complete m stSuccess 0 0 [] (deleteRing .event m.c.slot (argAt m.c 48 2) d)

/-- ABORT (R98). -/
def abortTarget (d : Dev) (m : Cmd) : Option Cmd :=
  (sqPending d m.c.slot (argAt m.c 48 2)).find? fun x => x.c.cid == argAt m.c 50 2
def abortChecks (d : Dev) (m : Cmd) : List (Bool × Nat) := [((abortTarget d m).isNone, stAbortNotFound)]
def abortApply (m : Cmd) (d : Dev) : Dev :=
  match abortTarget d m with
  | some x => complete m stSuccess 0 0 [] (abortCmd x d)
  | none => d

/-! ### Doorbells and watched lines (R87, R104, R110) -/

/-- Code of a queue kind in an event (R110). -/
def kindCode (k : QueueKind) : Nat :=
  match k with
  | .sq => 0
  | .cq => 1
  | .stream => 2
  | .event => 3

/-- A refused doorbell or index (R87, R104). -/
def doorbellInvalid (n id : Nat) (k : QueueKind) (watched : Bool) (d : Dev) : Dev :=
  postEvent n 0 evDoorbellInvalid (id % 16384 + kindCode k * 16384 + if watched then 65536 else 0) 0 0 0
    (d.count (Reg.HOST_DB_ERR n) 1)

/-- A new tail that keeps it behind the head (R87, R93). -/
def tailOk (q : Sq) (v : Nat) : Bool :=
  decide (v < 2 ^ q.m) && decide (ringUsed q.m q.head q.tail + (v + 2 ^ q.m - q.tail) % 2 ^ q.m ≤ 2 ^ q.m - 1)

/-- A new head that does not pass the tail. -/
def headOk (m head tail v : Nat) : Bool :=
  decide (v < 2 ^ m) && decide ((v + 2 ^ m - head) % 2 ^ m ≤ ringUsed m head tail)

/-- SQ_TAIL_DOORBELL (R84, R87, R104). -/
def sqTailDoorbell (n off size v : Nat) (d : Dev) : Dev :=
  if d.host.fatal ∨ ¬ slotBound d n then d
  else
    let id := off / 8
    if size ≠ 4 ∨ off % 8 ≠ 0 then doorbellInvalid n id .sq false d
    else
      match findSq d n id with
      | none => doorbellInvalid n id .sq false d
      | some q => if q.polled then d else if tailOk q v then putSq { q with tail := v } d else doorbellInvalid n id .sq false d

/-- CQ_HEAD_DOORBELL (R84, R87, R93, R104). -/
def cqHeadDoorbell (n off size v : Nat) (d : Dev) : Dev :=
  if d.host.fatal ∨ ¬ slotBound d n then d
  else
    let id := off / 8
    if size ≠ 4 ∨ off % 8 ≠ 4 then doorbellInvalid n id .cq false d
    else
      match findCq d n id with
      | none => doorbellInvalid n id .cq false d
      | some q =>
        if q.polled then d
        else if headOk q.m q.head q.tail v then cqDrain n id q.waiting.length (putCq { q with head := v } d)
        else doorbellInvalid n id .cq false d

/-- A queue's base or watched line cannot be read: QUEUE_FAULT, and the queue is deleted (R110). -/
def queueFault (n : Nat) (q : QueueRef) (d : Dev) : Dev :=
  let d1 := postEvent n 0 evQueueFault (q.id % 16384 + kindCode q.kind * 16384) 0 0 0 d
  match q.kind with
  | .sq => deleteSq n q.id d1
  | .cq => setHost { d1.host with cqs := d1.host.cqs.filter fun x => !(x.slot == n && x.id == q.id) } d1
  | .stream => deleteRing .stream n q.id d1
  | .event => deleteRing .event n q.id d1

/-- Room returns to an event ring (R110): EVENTS_DROPPED goes first. -/
def eventRoom (n id : Nat) (d : Dev) : Dev :=
  match findRing d .event n id with
  | none => d
  | some r =>
    if r.dropped = 0 ∨ ringFull r.m r.head r.tail then d
    else eventWrite { r with dropped := 0 } (eventBytes evEventsDropped r.dropped 0 0 0 d.now) d

/-- WATCHED_LINE_INVALIDATE (R104): the index that the re-read returns, none when the read fails. -/
def watchedLine (n : Nat) (q : QueueRef) (value : Option Nat) (d : Dev) : Dev :=
  if d.host.fatal ∨ ¬ slotServed d n then d
  else
    match value with
    | none => queueFault n q d
    | some v =>
      match q.kind with
      | .sq =>
        match findSq d n q.id with
        | none => d
        | some x => if ¬ x.polled then d else if tailOk x v then putSq { x with tail := v } d
            else doorbellInvalid n q.id .sq true d
      | .cq =>
        match findCq d n q.id with
        | none => d
        | some x => if ¬ x.polled then d
            else if headOk x.m x.head x.tail v then cqDrain n q.id x.waiting.length (putCq { x with head := v } d)
            else doorbellInvalid n q.id .cq true d
      | .stream =>
        match findRing d .stream n q.id with
        | none => d
        | some x => if headOk x.m x.head x.tail v then streamDrain n q.id x.spill.length (putRing { x with head := v } d)
            else doorbellInvalid n q.id .stream true d
      | .event =>
        match findRing d .event n q.id with
        | none => d
        | some x => if headOk x.m x.head x.tail v then eventRoom n q.id (putRing { x with head := v } d)
            else doorbellInvalid n q.id .event true d

/-- MSIX_HOLDOFF_END (R106): the held messages of a vector go as one. -/
def holdoffEnd (n vector : Nat) (d : Dev) : Dev :=
  match d.host.msix.find? fun m => m.slot == n && m.vector == vector with
  | none => d
  | some m =>
    if m.held ∧ m.last + d.get (Reg.INT_HOLDOFF_NS n) ≤ d.clock then
      (setHost { d.host with msix := ⟨n, vector, d.clock, false⟩ :: d.host.msix.filter fun x =>
        !(x.slot == n && x.vector == vector) } d).emit (.msix n vector)
    else d

/-! ### The meanings -/

def execBindSlot (slot part key size base : Nat) (admin : Bool) (s : State) : Host.Outcome State Fault Refusal :=
  s.run (bindSlot slot part key size base admin)
def execUnbindSlot (slot : Nat) (flush : Bool) (s : State) : Host.Outcome State Fault Refusal := s.run (unbindSlot slot flush)
def execUnbindComplete (slot : Nat) (s : State) : Host.Outcome State Fault Refusal := s.run (unbindComplete slot)
def execUnbindFlushTimeout (slot : Nat) (s : State) : Host.Outcome State Fault Refusal := s.run (unbindTimeout slot)
def execHostLinkDown (s : State) : Host.Outcome State Fault Refusal := s.run hostLinkDown
def execHostLinkUp (s : State) : Host.Outcome State Fault Refusal := s.run hostLinkUp
def execHostViral (slot : Nat) (s : State) : Host.Outcome State Fault Refusal := s.run fun d => slotLost slot d
def execHostLossComplete (slot : Nat) (s : State) : Host.Outcome State Fault Refusal := s.run (hostLossComplete slot)
def execBiTimeout (slot line : Nat) (s : State) : Host.Outcome State Fault Refusal := s.run (biTimeout slot line)
def execSnapshotBiTimeout (slot line : Nat) (s : State) : Host.Outcome State Fault Refusal :=
  s.run (snapshotTimeout slot line)
def execSqTailDoorbell (slot offset size value : Nat) (s : State) : Host.Outcome State Fault Refusal :=
  s.run (sqTailDoorbell slot offset size value)
def execCqHeadDoorbell (slot offset size value : Nat) (s : State) : Host.Outcome State Fault Refusal :=
  s.run (cqHeadDoorbell slot offset size value)
def execWatchedLineInvalidate (slot : Nat) (q : QueueRef) (value : Option Nat) (s : State) :
    Host.Outcome State Fault Refusal := s.run (watchedLine slot q value)
def execMsixHoldoffEnd (slot vector : Nat) (s : State) : Host.Outcome State Fault Refusal := s.run (holdoffEnd slot vector)
def execQ0EnableWrite (via : Via) (slot word : Nat) (s : State) : Host.Outcome State Fault Refusal :=
  s.run (regGate via (0x10 + slot) (q0EnableWrite slot word))
def execNop (c : HostCmd) (s : State) : Host.Outcome State Fault Refusal := s.run (hostRow 0x00 noChecks nopApply c)
def execCreateSq (c : HostCmd) (s : State) : Host.Outcome State Fault Refusal :=
  s.run (hostRow 0x01 createSqChecks createSqApply c)
def execDeleteSq (c : HostCmd) (s : State) : Host.Outcome State Fault Refusal :=
  s.run (hostRow 0x02 deleteSqChecks deleteSqApply c)
def execCreateCq (c : HostCmd) (s : State) : Host.Outcome State Fault Refusal :=
  s.run (hostRow 0x03 createCqChecks createCqApply c)
def execDeleteCq (c : HostCmd) (s : State) : Host.Outcome State Fault Refusal :=
  s.run (hostRow 0x04 deleteCqChecks deleteCqApply c)
def execCreateStreamRing (c : HostCmd) (s : State) : Host.Outcome State Fault Refusal :=
  s.run (hostRow 0x05 (createRingChecks .stream 0 1023) createStreamApply c)
def execDeleteStreamRing (c : HostCmd) (s : State) : Host.Outcome State Fault Refusal :=
  s.run (hostRow 0x06 deleteStreamChecks deleteStreamApply c)
def execCreateEventRing (c : HostCmd) (s : State) : Host.Outcome State Fault Refusal :=
  s.run (hostRow 0x07 (createRingChecks .event 1 255) createEventApply c)
def execDeleteEventRing (c : HostCmd) (s : State) : Host.Outcome State Fault Refusal :=
  s.run (hostRow 0x08 deleteEventChecks deleteEventApply c)
def execAbort (c : HostCmd) (s : State) : Host.Outcome State Fault Refusal := s.run (hostRow 0x09 abortChecks abortApply c)

end Sys2Proof.Machine
end

