-- ==== Sys2Proof/Machine/Loads.lean ====
section
/-! DEFINITION. Loaded data, sampling queries and the passes of the text units (spec/08: R276-R280; spec/09: R283-R290,
R313-R318). -/

namespace Sys2Proof.Machine

open Sys2Proof

/-- Text status codes (R315) and sampling status codes (R280). -/
def stVocabFormat : Nat := 0x0503
def stVocabExists : Nat := 0x0504
def stVocabInUse : Nat := 0x0505
def stGrammarFormat : Nat := 0x0506
def stGrammarExists : Nat := 0x0508
def stGrammarInUse : Nat := 0x0509
def stStopsetFormat : Nat := 0x050A
def stStopsetExists : Nat := 0x050C
def stStopsetInUse : Nat := 0x050D
def stTextTableFull : Nat := 0x050E
def stOutputShort : Nat := 0x050F
def stBiasFormat : Nat := 0x0A00
def stBiasTableFull : Nat := 0x0A01
def stBiasExists : Nat := 0x0A02
def stBiasUnknown : Nat := 0x0A03
def stBiasInUse : Nat := 0x0A04
def stSampleGone : Nat := 0x0A05
def stExportFull : Nat := 0x0407

/-! ### What is loaded -/

/-- Bytes of what is loaded of a kind. -/
def heldBytes (d : Dev) (k : LoadKind) : Nat := ((d.text.held.filter fun h => h.1 == k).map fun h => h.2.2.2.1).sum

/-- Record what is loaded in the TXU, FRET and PLEC pages (R281, R317). -/
def loadSync (d : Dev) : Dev :=
  let d1 := forAll (List.range 4) (fun u e => e.set (Reg.TXU_VOCABS u) e.text.vocabs.length) d
  ((((d1.set Reg.FRET_PROG_KIB (ceilDiv (heldBytes d1 .grammar) 1024)).set Reg.FRET_PROGS
    d1.text.grammars.length).set Reg.FRET_STOPSETS d1.text.stops.length).set Reg.PLEC_BIAS_ENTRIES
      ((d1.samp.bias.map (·.entries.length)).sum)).set Reg.PLEC_BIAS_LISTS d1.samp.bias.length

/-- Data of a kind, handle and model is loaded or on its way. -/
def loadKnown (d : Dev) (k : LoadKind) (handle model : Nat) : Bool :=
  (d.text.held.any fun h => h.1 == k && h.2.1 == handle && h.2.2.1 == model)
  || d.text.loads.any fun w => w.kind == k && w.handle == handle && w.model == model

/-- The data has the format of its kind for a model of `vocab` tokens (R276, R285, R302, R306). -/
def loadOk (k : LoadKind) (model vocab : Nat) (b : Bytes) : Bool :=
  match k with
  | .vocab => vocabOk model vocab b
  | .grammar => grammarOk model vocab b
  | .stopset => stopsetOk b
  | .bias => biasOk vocab b

/-- The module's table has no room for the data (R276, R315). -/
def loadFull (d : Dev) (k : LoadKind) (b : Bytes) : Bool :=
  match k with
  | .vocab => false
  | .grammar => decide (2 ^ 30 < heldBytes d .grammar + b.length)
  | .stopset => decide (65536 ≤ d.text.stops.length)
  | .bias => decide (16777216 < d.get Reg.PLEC_BIAS_ENTRIES + b.length / 8)

/-- Codes of a kind: format, exists, table full. -/
def loadCodes (k : LoadKind) : Nat × Nat × Nat :=
  match k with
  | .vocab => (stVocabFormat, stVocabExists, stTextTableFull)
  | .grammar => (stGrammarFormat, stGrammarExists, stTextTableFull)
  | .stopset => (stStopsetFormat, stStopsetExists, stTextTableFull)
  | .bias => (stBiasFormat, stBiasExists, stBiasTableFull)

/-- Loaded data takes effect on this module. -/
def install (w : LoadWork) (d : Dev) : Dev :=
  let d1 := setText { d.text with
    loads := d.text.loads.filter fun x => !(x.kind == w.kind && x.handle == w.handle && x.model == w.model)
    held := d.text.held ++ [(w.kind, w.handle, w.model, w.data.length, w.part)] } d
  loadSync (match w.kind with
    | .vocab => setText { d1.text with vocabs := d1.text.vocabs ++ [vocabOf w.data] } d1
    | .grammar => setText { d1.text with
        grammars := d1.text.grammars ++ [(w.handle, w.model, w.data.length, grammarOf w.data)] } d1
    | .stopset => setText { d1.text with stops := d1.text.stops ++ [(w.handle, w.model, stopStrings w.data)] } d1
    | .bias => setSamp { d1.samp with bias := d1.samp.bias ++ [⟨w.handle, w.model, biasEntriesOf w.data⟩] } d1)

/-- The handle that a load command names: a vocabulary has none. -/
def loadHandle (k : LoadKind) (c : HostCmd) : Nat :=
  match k with
  | .vocab => 0
  | .bias => argAt c 48 2
  | _ => argAt c 48 4

/-- The handle is in the range of its kind (R279, R313). -/
def handleOk (k : LoadKind) (h : Nat) : Bool :=
  match k with
  | .vocab => true
  | .bias => decide (1 ≤ h ∧ h ≤ 4095)
  | _ => h != 0

/-- Vocabularies and grammar programs travel through an extent of the executing member (R314). -/
def viaExtent (k : LoadKind) : Bool := k == .vocab || k == .grammar

/-- The other members of a model's slice group. -/
def otherMembers (d : Dev) (model : Nat) : List Nat :=
  ((findModel d model).map fun q => q.members.filter (· != d.self)).getD []

/-- The export window has room for an extent of `n` bytes (R394). -/
def exportRoom (d : Dev) (n : Nat) : Bool :=
  decide (d.fab.extents.length < extentLimit) && (exportFit d (roundUp 4096 n)).isSome

/-- Forget a load on its way, and return its T1 bytes and its extent. -/
def loadDrop (w : LoadWork) (d : Dev) : Dev :=
  let d1 := poolGive w.part w.data.length (setText { d.text with
    loads := d.text.loads.filter fun x => !(x.kind == w.kind && x.handle == w.handle && x.model == w.model) } d)
  match w.extent.bind (extentOf d1 false) with
  | some x => extentFree x d1
  | none => d1

/-- A load command at its seal (R277, R313, R314, R683): the data goes to the other members. -/
def loadApply (k : LoadKind) (m : Cmd) (d : Dev) : Dev :=
  let c := m.c
  let h := loadHandle k c
  let model := argAt c 56 8
  let data := padTo c.lenA c.dataA
  let others := otherMembers d model
  let vocab := ((findModel d model).map (·.vocab)).getD 0
  let codes := loadCodes k
  let known := (findModel d model).isSome
  guarded m
    [(!known || !handleOk k h || (k == .bias && c.lenA % 8 != 0), stInvalidField),
     (!poolRoom d m.part data.length, stTierFull),
     (viaExtent k && !others.isEmpty && !exportRoom d data.length, stExportFull),
     (known && !loadOk k model vocab data, codes.1),
     (loadKnown d k h model, codes.2.1),
     (loadFull d k data, codes.2.2)] (fun e =>
    let e1 := poolTake m.part data.length e
    let r : Option Nat × Dev := if viaExtent k && !others.isEmpty then
        extentPut (e1.get (Reg.SEC_PART_KEY m.part) % 64) false false 0 data e1
      else (none, e1)
    let w : LoadWork := ⟨k, h, model, data, some m, others, r.1, m.part⟩
    let e2 := sendAll others (.load k h model data) r.2
    if others.isEmpty ∨ k = .bias then complete m stSuccess 0 0 [] (install w e2)
    else setText { e2.text with loads := e2.text.loads ++ [w] } e2) d

/-- Loads that every member has confirmed take effect at a seal, and their commands complete (R313). -/
def loadsSeal (d : Dev) : Dev :=
  forAll (d.text.loads.filter fun w => w.wait.isEmpty) (fun w e =>
    let e1 := install w e
    match w.cmd with
    | some m => complete m stSuccess 0 0 [] e1
    | none => e1) d

/-- LOADED_DATA_RX (R277, R314, R683): a member takes the data and confirms; it takes effect at its next seal (log entry
18). -/
def loadedDataRx (src : Nat) (k : LoadKind) (handle model : Nat) (data : Bytes) (d : Dev) : Dev :=
  if ¬ (findModel d model).isSome ∨ loadKnown d k handle model then d
  else if ¬ poolRoom d 8 data.length ∨ loadFull d k data then sendMsg src (.loadNoRoom k handle model) d
  else sendMsg src (.loadConfirm k handle model) (setText { d.text with
    loads := d.text.loads ++ [⟨k, handle, model, data, none, [], none, 8⟩] } (poolTake 8 data.length d))

/-- LOADED_DATA_CONFIRM_RX (R313, R314): when every member has confirmed, the extent is freed. -/
def loadConfirmRx (src : Nat) (k : LoadKind) (handle model : Nat) (d : Dev) : Dev :=
  match d.text.loads.find? fun w => w.kind == k && w.handle == handle && w.model == model with
  | none => d
  | some w =>
    let left := w.wait.filter (· != src)
    let w1 := { w with
      wait := left
      extent := if left.isEmpty then none else w.extent }
    let d1 := setText { d.text with loads := d.text.loads.map fun x => if x = w then w1 else x } d
    if left.isEmpty then
      match w.extent.bind (extentOf d1 false) with
      | some x => extentFree x d1
      | none => d1
    else d1

/-- A member has no room: the command completes with TIER_FULL (R683). -/
def loadRefused (k : LoadKind) (handle model : Nat) (d : Dev) : Dev :=
  match d.text.loads.find? fun w => w.kind == k && w.handle == handle && w.model == model with
  | none => d
  | some w =>
    match w.cmd with
    | some m => failWith m stTierFull (loadDrop w d)
    | none => d

/-- Loaded data is freed. -/
def unload (k : LoadKind) (handle model : Nat) (d : Dev) : Dev :=
  let mine := fun (h : LoadKind × Nat × Nat × Nat × Nat) => h.1 == k && h.2.1 == handle && h.2.2.1 == model
  let d1 := forAll (d.text.held.filter mine) (fun h e => poolGive h.2.2.2.2 h.2.2.2.1 e)
    (setText { d.text with held := d.text.held.filter fun h => !mine h } d)
  loadSync (match k with
    | .vocab => setText { d1.text with vocabs := d1.text.vocabs.filter fun v => v.model != model } d1
    | .grammar => setText { d1.text with
        grammars := d1.text.grammars.filter fun g => !(g.1 == handle && g.2.1 == model) } d1
    | .stopset => setText { d1.text with stops := d1.text.stops.filter fun g => !(g.1 == handle && g.2.1 == model) } d1
    | .bias => setSamp { d1.samp with bias := d1.samp.bias.filter fun l => !(l.handle == handle && l.model == model) } d1)

/-- A descriptor in a state other than FREE or EXPIRED names the data (R280, R315). -/
def loadUsed (d : Dev) (k : LoadKind) (handle model : Nat) : Bool :=
  d.sess.descs.any fun x => x.state != ssFree && x.state != ssExpired && x.model == model &&
    match k with
    | .vocab => true
    | .grammar => x.grammar == handle
    | .stopset => x.stopSet == handle
    | .bias => x.sampler.bias == handle

/-- Codes of a free: unknown and in use. -/
def freeCodes (k : LoadKind) : Nat × Nat :=
  match k with
  | .vocab => (stVocabMissing, stVocabInUse)
  | .grammar => (stGrammarUnknown, stGrammarInUse)
  | .stopset => (stStopsetUnknown, stStopsetInUse)
  | .bias => (stBiasUnknown, stBiasInUse)

/-- A free command at its seal (R279, R280, R313, R315). -/
def freeApply (k : LoadKind) (m : Cmd) (d : Dev) : Dev :=
  let h := loadHandle k m.c
  let model := argAt m.c 56 8
  let held := d.text.held.any fun x => x.1 == k && x.2.1 == h && x.2.2.1 == model
  guarded m
    [(!handleOk k h, stInvalidField), (!held, (freeCodes k).1), (held && loadUsed d k h model, (freeCodes k).2)]
    (fun e => complete m stSuccess 0 0 [] (unload k h model e)) d

/-! ### QUERY_SAMPLE (R278, R279) -/

/-- QUERY_SAMPLE, executed at the session's home (R123): the newest record of the session and step. -/
def querySampleApply (m : Cmd) (d : Dev) : Dev :=
  atHome m (fun _ e =>
    match e.samp.records.find? fun r => r.sid == m.c.sid && r.step == m.c.step with
    | none => failWith m stSampleGone e
    | some r => complete m stSuccess 0 0 [(m.c.addrA, sampleRecBytes r)] e) d

/-! ### Text passes (R287, R288, R313) -/

/-- TXU_BUSY follows the passes (R317). -/
def unitSync (d : Dev) : Dev :=
  forAll (List.range 4) (fun u e => e.set (Reg.TXU_BUSY u) (if e.text.passes.any (fun p => p.unit == some u) then 1 else 0)) d

/-- Passes that wait are given to free units, in fetch order (R288). -/
def assignUnits (fuel : Nat) (d : Dev) : Dev :=
  match fuel with
  | 0 => d
  | k + 1 =>
    match freeUnit d, d.text.passes.find? (fun p => p.unit.isNone) with
    | some u, some p => assignUnits k (setText { d.text with
        passes := d.text.passes.map fun x => if x = p then { x with unit := some u } else x } d)
    | _, _ => d

/-- A command waits for a pass of a text unit (R287, R288). -/
def passStart (m : Cmd) (d : Dev) : Dev :=
  let d1 := setText { d.text with passes := d.text.passes ++ [⟨m.order, none⟩] } (setHost { d.host with
    accepted := d.host.accepted.filter (fun x => !sameCmd x m) ++ [{ m with wait := .tokenise }] } d)
  unitSync (assignUnits 4 d1)

/-- The plan that a command accepted now enters (R68, R680), counted as fired ticks are: before the first tick, the plan of the
tick after it. -/
def planOf (d : Dev) : Nat := d.tick.fired + (if d.tick.running ∧ ¬ d.tick.sealed then 1 else 2)

/-- The token ids of a DETOKENIZE. -/
def detokIds (c : HostCmd) : List Nat := (List.range (c.lenA / 4)).map fun i => fieldAt c.dataA (4 * i) 4

/-- Checks of TOKENIZE and DETOKENIZE. -/
def tokenizeChecks (d : Dev) (m : Cmd) : List (Bool × Nat) := [((vocabFor d (argAt m.c 56 8)).isNone, stVocabMissing)]
def detokenizeChecks (d : Dev) (m : Cmd) : List (Bool × Nat) :=
  [(m.c.lenA % 4 != 0, stInvalidField),
   ((vocabFor d (argAt m.c 56 8)).any fun v => (detokIds m.c).any fun t => decide (v.tokens.length ≤ t), stTokenRange)]
  ++ tokenizeChecks d m

/-- The end of a TOKENIZE (R313). -/
def tokenizeDone (unit : Nat) (m : Cmd) (d : Dev) : Dev :=
  match vocabFor d (argAt m.c 56 8) with
  | none => failWith m stVocabMissing d
  | some v =>
    let t := tokenise v (bitAt (argAt m.c 48 1) 0) (padTo m.c.lenA m.c.dataA)
    guarded m [(t.invalid, stTextInvalid), (decide (m.c.lenB < 4 * t.ids.length), stOutputShort)] (fun e =>
      complete m stSuccess t.ids.length 0 [(m.c.addrB, (t.ids.map (le 4)).flatten)] e) (passCount unit m.c.lenA t d)

/-- The end of a DETOKENIZE (R298, R313). -/
def detokenizeDone (unit : Nat) (m : Cmd) (d : Dev) : Dev :=
  match vocabFor d (argAt m.c 56 8) with
  | none => failWith m stVocabMissing d
  | some v =>
    let out := detokenise v (detokIds m.c)
    let raw := (detokIds m.c).flatMap fun t => if tokenSpecial v t then [] else tokenStr v t
    let n := (divideOut raw).2.1 + (if (divideOut raw).2.2.isEmpty then 0 else 1)
    guarded m [(decide (m.c.lenB < out.length), stOutputShort)] (fun e =>
      complete m stSuccess out.length 0 [(m.c.addrB, out)] e)
      ((cacheMisses unit d).count (Reg.TXU_OUT_FFFD unit) n)

/-- The instant of a waiting command for R68 is now. -/
def armed (d : Dev) (m : Cmd) : Cmd :=
  { m with
    wait := .none
    t := d.now
    plan := planOf d }

/-- Replace an accepted command. -/
def putCmd (m : Cmd) (d : Dev) : Dev :=
  setHost { d.host with accepted := d.host.accepted.map fun x => if sameCmd x m then m else x } d

/-- TOKENIZATION_PASS_DONE (R287, R288, R313): a text unit ends the pass of a command; the instant of an APPEND for R68 is
now. -/
def passDone (unit order : Nat) (d : Dev) : Dev :=
  match d.text.passes.find? (fun p => p.order == order && p.unit == some unit),
      d.host.accepted.find? (fun m => m.order == order) with
  | some p, some m =>
    let d1 := setText { d.text with passes := d.text.passes.erase p } d
    let d2 := if m.c.opcode = 0x66 then tokenizeDone unit m d1
      else if m.c.opcode = 0x67 then detokenizeDone unit m d1
      else appendPass unit m (putCmd (armed d1 m) d1)
    unitSync (assignUnits 4 d2)
  | _, _ => d

/-- TOKEN_IDS_RX (R289): a member receives the token ids of an APPEND accepted at the home. -/
def tokenIdsRx (src : Nat) (key : SessKey) (ids : List Nat) (d : Dev) : Dev :=
  match findDesc d key with
  | none => d
  | some x =>
    if x.isHome ∨ x.home ≠ src then d
    else putDesc { x with turn := some ⟨ids, true, none, [], 0, none, [], none⟩ } d

/-! ### The meanings -/

def execBiasLoad (c : HostCmd) (s : State) : Host.Outcome State Fault Refusal :=
  s.run (hostRow 0x90 noChecks (loadApply .bias) c)
def execBiasFree (c : HostCmd) (s : State) : Host.Outcome State Fault Refusal :=
  s.run (hostRow 0x91 noChecks (freeApply .bias) c)
def execQuerySample (c : HostCmd) (s : State) : Host.Outcome State Fault Refusal :=
  s.run (hostRow 0x92 noChecks querySampleApply c)
def execVocabLoad (c : HostCmd) (s : State) : Host.Outcome State Fault Refusal :=
  s.run (hostRow 0x60 noChecks (loadApply .vocab) c)
def execVocabFree (c : HostCmd) (s : State) : Host.Outcome State Fault Refusal :=
  s.run (hostRow 0x61 noChecks (freeApply .vocab) c)
def execGrammarLoad (c : HostCmd) (s : State) : Host.Outcome State Fault Refusal :=
  s.run (hostRow 0x62 noChecks (loadApply .grammar) c)
def execGrammarFree (c : HostCmd) (s : State) : Host.Outcome State Fault Refusal :=
  s.run (hostRow 0x63 noChecks (freeApply .grammar) c)
def execStopsetLoad (c : HostCmd) (s : State) : Host.Outcome State Fault Refusal :=
  s.run (hostRow 0x64 noChecks (loadApply .stopset) c)
def execStopsetFree (c : HostCmd) (s : State) : Host.Outcome State Fault Refusal :=
  s.run (hostRow 0x65 noChecks (freeApply .stopset) c)
def execTokenize (c : HostCmd) (s : State) : Host.Outcome State Fault Refusal :=
  s.run (hostRow 0x66 tokenizeChecks passStart c)
def execDetokenize (c : HostCmd) (s : State) : Host.Outcome State Fault Refusal :=
  s.run (hostRow 0x67 detokenizeChecks passStart c)
def execTokenIdsRx (src : Nat) (key : SessKey) (ids : List Nat) (s : State) : Host.Outcome State Fault Refusal :=
  s.run (fromPeer src (tokenIdsRx src key ids))
def execLoadedDataRx (src : Nat) (kind : LoadKind) (handle model : Nat) (data : Bytes) (s : State) :
    Host.Outcome State Fault Refusal := s.run (fromPeer src (loadedDataRx src kind handle model data))
def execLoadedDataConfirmRx (src : Nat) (kind : LoadKind) (handle model : Nat) (s : State) :
    Host.Outcome State Fault Refusal := s.run (fromPeer src (loadConfirmRx src kind handle model))

end Sys2Proof.Machine
end

