-- ==== Sys2Proof/Machine/Pattn.lean ====
section
/-! DEFINITION. Remote partial attention at the owner of the pages (spec/06: R197, R219-R223). -/

namespace Sys2Proof.Machine

open Sys2Proof

/-- Result codes (R224). -/
def paOk : Nat := 0
def paAbsent : Nat := 1
def paMismatch : Nat := 2
def paMalformed : Nat := 3
def paReadError : Nat := 4

/-- Length of a part padded to a multiple of 8 (R220). -/
def pad8 (n : Nat) : Nat := (n + 7) / 8 * 8

/-- Entry of a request's page list (R220). -/
structure PageWant where
  id : Nat
  first : Nat
  valid : Nat
  resv : Nat
  deriving DecidableEq, Repr

/-- A request's fields (R219) and parts (R220). -/
structure PattnReq where
  head : Bytes
  rows : List (Nat × Nat × Nat)
  elems : Bytes
  scales : Bytes
  pages : List PageWant
  tiles : Bytes
  deriving DecidableEq, Repr

/-- Fields of the header (R219). -/
def PattnReq.qrows (r : PattnReq) : Nat := fieldAt r.head 26 2
def PattnReq.dim (r : PattnReq) : Nat := fieldAt r.head 28 2
def PattnReq.fmtCode (r : PattnReq) : Nat := byteAt r.head 30
def PattnReq.keySlot (r : PattnReq) : Nat := byteAt r.head 31
def PattnReq.layer (r : PattnReq) : Nat := fieldAt r.head 22 2
def PattnReq.kvHead (r : PattnReq) : Nat := fieldAt r.head 24 2
def PattnReq.tileFirst (r : PattnReq) : Nat := fieldAt r.head 48 4
def PattnReq.tileCount (r : PattnReq) : Nat := fieldAt r.head 52 4

/-- Offsets of the parts of the body, and its length (R220). -/
def pattnParts (qrows dim pages tiles : Nat) : List Nat :=
  let a := 8 * qrows
  let b := a + pad8 (qrows * dim)
  let c := b + pad8 (qrows * (dim / 32))
  let e := c + 16 * pages
  [a, b, c, e, e + pad8 ((tiles + 7) / 8)]

/-- Read a request from its bytes: header and body. -/
def pattnReqOf (b : Bytes) : PattnReq :=
  let head := b.take 64
  let body := b.drop 64
  let q := fieldAt head 26 2
  let dim := fieldAt head 28 2
  let n := fieldAt head 38 2
  let o := pattnParts q dim n (fieldAt head 52 4)
  let at_ := fun i => (o[i]?).getD 0
  { head := head
    rows := (List.range q).map fun i => (fieldAt body (8 * i) 4, fieldAt body (8 * i + 4) 2, fieldAt body (8 * i + 6) 2)
    elems := (body.drop (at_ 0)).take (q * dim)
    scales := (body.drop (at_ 1)).take (q * (dim / 32))
    pages := (List.range n).map fun i =>
      let e := (body.drop (at_ 2 + 16 * i)).take 16
      ⟨fieldAt e 0 8, fieldAt e 8 4, fieldAt e 12 2, fieldAt e 14 2⟩
    tiles := body.drop (at_ 3) }

/-- The entries of a page list are in ascending FIRST_POS order. -/
def wantsAscend (l : List PageWant) : Bool := (l.zip (l.drop 1)).all fun p => decide (p.1.first < p.2.first)

/-- A field is out of range, a reserved field is non-zero, or BODY_LEN disagrees (R219, R224). -/
def pattnMalformed (r : PattnReq) (len : Nat) : Bool :=
  let h := r.head
  let mask := byteAt h 36
  byteAt h 0 != 1 || decide (1024 ≤ fieldAt h 2 2) || decide (r.qrows = 0 ∨ 256 < r.qrows)
  || decide (r.dim % 32 ≠ 0 ∨ r.dim = 0 ∨ 256 < r.dim) || decide (2 ≤ r.fmtCode) || decide (64 ≤ r.keySlot)
  || !scaleOk (fieldAt h 32 4) || decide (3 ≤ mask) || byteAt h 37 != 0
  || decide (r.pages.length = 0 ∨ 64 < r.pages.length) || (mask == 1 && fieldAt h 40 4 == 0)
  || (mask != 2 && r.tileCount != 0) || fieldAt h 60 4 != 0
  || decide (fieldAt h 56 4 ≠ len - 64)
  || decide (fieldAt h 56 4 ≠ ((pattnParts r.qrows r.dim r.pages.length r.tileCount)[4]?).getD 0)
  || decide (len < 64)
  || r.rows.any (fun x => x.2.2 != 0)
  || r.rows.any (fun x => x.1 / 16 != ((r.rows.head?).map (·.1)).getD 0 / 16)
  || r.pages.any (fun p => p.resv != 0) || !wantsAscend r.pages

/-- The exported extent that holds a page. -/
def pageExtent (d : Dev) (id : Nat) : Option Extent := d.fab.extents.find? fun x => x.sealed && !x.flash && x.tag == id

/-- Format of a code of PAGE_FORMAT (R219). -/
def pageFmt (c : Nat) : Fmt := if c = 0 then .b8 else .b4

/-- The checks of R222 on a page: 0, or the result they give. -/
def pageCheck (d : Dev) (r : PattnReq) (w : PageWant) : Nat :=
  match pageExtent d w.id with
  | none => paAbsent
  | some x =>
    let b := readExport d (extentKey x.flash x.base) 64
    if x.keySlot ≠ r.keySlot ∨ fieldAt b 0 8 ≠ w.id ∨ fieldAt b 16 4 ≠ w.first ∨ byteAt b 9 ≠ r.fmtCode
        ∨ fieldAt b 12 2 ≤ r.kvHead ∨ fieldAt b 14 2 ≠ r.dim ∨ fieldAt b 20 2 < w.valid then paMismatch
    else if fieldAt b 10 2 ≤ r.layer then paMalformed
    else paOk

/-- The key rows of a page that a request names (R222): its first VALID slots. -/
def wantKeys (d : Dev) (r : PattnReq) (w : PageWant) : List KeyRow :=
  match pageExtent d w.id with
  | none => []
  | some x =>
    let b := readExport d (extentKey x.flash x.base) x.len
    let cls := byteAt b 8
    let heads := fieldAt b 12 2
    let n := planeStride (2 ^ cls) heads r.dim r.fmtCode
    let plane := (b.drop (pageHeadLen cls + r.layer * n)).take n
    (List.range w.valid).map fun i => planeKey (pageFmt r.fmtCode) (2 ^ cls) heads r.dim plane i r.kvHead (w.first + i)

/-- The layer attention fields that a request carries (R219, R221). -/
def pattnRec (r : PattnReq) : AttnRec :=
  { scoreScale := fieldAt r.head 32 4
    maskKind := byteAt r.head 36
    ropeMode := 0
    outFormat := 0
    ropeDims := 0
    window := fieldAt r.head 40 4
    sink := fieldAt r.head 44 4
    maskHandle := 0
    reserved := false }

/-- The tile bits that a request carries (R220). -/
def pattnTile (r : PattnReq) (_ c : Nat) : Bool :=
  decide (r.tileFirst ≤ c ∧ c < r.tileFirst + r.tileCount) &&
    bitAt (byteAt r.tiles ((c - r.tileFirst) / 8)) ((c - r.tileFirst) % 8)

/-- The query rows of a request, in B8. -/
def pattnRows (r : PattnReq) : List QueryRow :=
  r.rows.mapIdx fun i x =>
    let es := (r.elems.drop (i * r.dim)).take r.dim
    let ss := (r.scales.drop (i * (r.dim / 32))).take (r.dim / 32)
    ⟨x.1, x.2.1, blockVec .b8 (es.map (·.toNat)) (ss.map (·.toNat))⟩

/-- Rows in groups of 16, one decode-mode pass each (R197). -/
def rowGroups (fuel : Nat) (l : List QueryRow) : List (List QueryRow) :=
  match fuel with
  | 0 => []
  | k + 1 => if l.isEmpty then [] else l.take 16 :: rowGroups k (l.drop 16)

/-- A response (R223): header, and row records when the result is 0. -/
def pattnResponseBytes (self : Nat) (r : PattnReq) (result bad keys sat vsat : Nat) (recs : Bytes) : Bytes :=
  le 1 2 ++ (r.head.drop 1).take 1 ++ le 2 self ++ (r.head.drop 4).take 24 ++ le 1 result ++ le 1 bad ++ zeros 2
  ++ le 8 keys ++ le 4 sat ++ le 4 vsat ++ zeros 16 ++ recs

/-- The answer to a request (R221-R223): the index of the first page that fails, or the exact partials. -/
def pattnServe (d : Dev) (b : Bytes) : Nat × Bytes :=
  let r := pattnReqOf b
  let fail := fun (code bad : Nat) => (code, pattnResponseBytes d.self r code bad 0 0 0 [])
  if pattnMalformed r b.length then fail paMalformed 0xFF
  else
    let cs := r.pages.map (pageCheck d r)
    match cs.findIdx? (· != paOk) with
    | some i => fail ((cs[i]?).getD 0) (if (cs[i]?).getD 0 = paMalformed then 0xFF else i)
    | none =>
      let keys := r.pages.flatMap (wantKeys d r)
      let rec_ := pattnRec r
      let rows := pattnRows r
      let read := (rowGroups 16 rows).map fun g =>
        let ps := keysRead rec_ (pattnTile r) (g.map (·.pos)) (keys.map (·.pos))
        keys.filter fun k => ps.contains k.pos
      let outs := rows.map fun q => passRow rec_ (pageFmt r.fmtCode) r.dim (pattnTile r) q keys
      let vsat := (read.map fun ks => (ks.map (·.vsat)).sum).sum
      (paOk, pattnResponseBytes d.self r paOk 0xFF ((read.map (·.length)).sum) ((outs.map (·.2)).sum) vsat
        (outs.flatMap fun o => partialBytes r.dim o.1))

/-- The transaction that carries a request (R403). -/
def pattnTxn (src tag keySlot : Nat) (body : Bytes) (d : Dev) : FabTxn :=
  { op := opPattn
    tc := 2
    hops := 0
    src := src
    dst := d.self
    keySlot := keySlot
    status := 0
    tag := tag
    len := body.length
    addr := globalAddr spExport d.self 0
    arg := 0
    resv := false
    payload := body }

/-- PATTN_REQUEST_RX: the request is served and answered (R221, R430). A request under another key slot than its pages' is
denied by their check. -/
def pattnRequestRx (src tag keySlot : Nat) (body : Bytes) (d : Dev) : Dev :=
  let (code, out) := pattnServe d body
  let d1 := if code = paOk then d.count Reg.NME_PATTN_SERVED 1
    else when (code == paAbsent) (fun e => e.count Reg.NME_PAGE_ABSENT 1) d
  respond (pattnTxn src tag keySlot body d) fsOk 0 out d1

/-- A request of a module that is LOST to this one is answered FENCED (R423). -/
def pattnFenced (src tag keySlot : Nat) (body : Bytes) (d : Dev) : Dev :=
  if peerState d src = .lost then respond (pattnTxn src tag keySlot body d) fsFenced 0 [] d
  else pattnRequestRx src tag keySlot body d

def execPattnRequestRx (src tag keySlot : Nat) (body : Bytes) (s : State) : Host.Outcome State Fault Refusal :=
  s.run (pattnFenced src tag keySlot body)

end Sys2Proof.Machine
end

