-- ==== Sys2Proof/Machine/Steps.lean ====
section
/-! DEFINITION. The decode step: layers, attention requests, all-reduce, sampling, commit and carry (spec/01: R32-R37; spec/02:
R53, R63, R66, R67; spec/04: R143-R148; spec/06 to spec/09). -/

namespace Sys2Proof.Machine

open Sys2Proof

/-! ### The steps of the running tick -/

/-- The running step of a session. -/
def findStep (d : Dev) (k : SessKey) : Option Step := d.run.steps.find? fun s => s.key == k

/-- Put back a step. -/
def putStep (s : Step) (d : Dev) : Dev :=
  setRun { d.run with steps := d.run.steps.map fun x => if x.key == s.key then s else x } d

/-- Change the step of a session, where there is one. -/
def onStep (k : SessKey) (f : Step → Step) (d : Dev) : Dev :=
  match findStep d k with
  | none => d
  | some s => putStep (f s) d

/-- A step that a plan holds, before it starts. -/
def newStep (p : PlanStep) (take : Nat) (draws replay : Bool) (reserve : Nat) : Step :=
  { key := p.key
    step := p.step
    intake := p.intake
    take := take
    draws := draws
    attempt := p.attempt
    started := false
    reach := 0
    layer := 0
    halves := 0
    requests := []
    partials := []
    shards := []
    lists := []
    remainders := []
    votes := []
    causes := []
    merged := none
    token := none
    kept := 0
    dead := false
    ready := false
    replay := replay
    committed := false
    done := none
    error := false
    reserve := reserve
    charge := 0 }

/-- Note why a step cannot complete. -/
def addCause (k : SessKey) (c : Cause) (d : Dev) : Dev :=
  onStep k (fun s => if s.causes.contains c then s else { s with causes := s.causes ++ [c] }) d

/-- An error is detected in a step: it is logged, and the step does not commit (R148, R620, R627). -/
def stepError (k : SessKey) (code page unit : Nat) (injected : Bool) (d : Dev) : Dev :=
  match findStep d k with
  | none => d
  | some s =>
    if s.error ∨ s.committed then d
    else logError clsStep code page unit 0 k.sid s.step injected (putStep { s with error := true } d)

/-- SESS_INTAKE_CHUNK in force (R161). -/
def intakeChunk (d : Dev) : Nat := clampNat 256 65536 (d.get Reg.SESS_INTAKE_CHUNK)

/-- Input tokens that a step ingests, and the history it works on (R127). -/
def stepInput (x : Desc) (s : Step) : List Nat := ((x.turn.map (·.input)).getD []).take s.take
def stepHist (x : Desc) (s : Step) : List Nat :=
  if s.replay then x.tokens.take x.prevCtxLen ++ ((x.tokens.drop x.prevCtxLen).take s.take)
  else x.tokens.take x.ctxLen ++ stepInput x s

/-- Positions of the tokens that a step computes: those without keys, or the last one when a draw needs its logits. -/
def stepPositions (x : Desc) (s : Step) : List Nat :=
  let n := (stepHist x s).length
  let c := min (kvLen x) n
  if c < n then (List.range (n - c)).map fun i => c + i
  else if s.draws ∧ 0 < n then [n - 1] else []

/-- An intake step whose tokens are all referenced computes nothing (R187). -/
def computesNothing (x : Desc) (s : Step) : Bool := (stepPositions x s).isEmpty

/-- Slice of a module in a group. -/
def sliceOf (m : Model) (module_ : Nat) : Nat := (m.members.findIdx? (· == module_)).getD m.slice

/-- The other members of a session's group. -/
def others (d : Dev) (m : Model) : List Nat := m.members.filter (· != d.self)

/-- The physical Gallery of the session's logical one (R23, R567). -/
def galOf (d : Dev) (k : SessKey) : Nat := (galPhysical d (sessGallery d k)).getD 0

/-! ### Point 3c: local passes and remote requests (R195, R200, R218-R220) -/

/-- The layer attention record of a layer (R205). -/
def layerRec (m : Model) (l : Nat) : AttnRec :=
  match m.attn[l]? with
  | some r =>
    { scoreScale := r.1
      maskKind := r.2.1
      ropeMode := 0
      outFormat := r.2.2.1
      ropeDims := 0
      window := r.2.2.2.1
      sink := r.2.2.2.2.1
      maskHandle := r.2.2.2.2.2
      reserved := false }
  | none => ⟨0, 0, 0, 0, 0, 0, 0, 0, false⟩

/-- The tile bits of a layer: those of the mask object, the version that the turn pins (R157, R207). -/
def layerTile (d : Dev) (x : Desc) (r : AttnRec) (q c : Nat) : Bool :=
  if r.maskKind ≠ 2 then true
  else
    let pinned := ((x.turn.map (·.regions)).getD []).find? fun p => p.1 == r.maskHandle
    let reg : Option Region := match pinned with
      | some p => d.sess.regions.find? fun y => y.name == p.1 && y.version == p.2
      | none => d.sess.regions.find? fun y => y.name == r.maskHandle && y.current
    match reg with
    | some y => tileBit y.data q c
    | none => true

/-- Positions that a list of page entries holds. -/
def entPositions (es : List PageEnt) : List Nat := es.flatMap fun e => (List.range e.valid).map fun i => e.firstPos + i

/-- The page entries of a session whose page lies in one of some tiers. -/
def entsIn (d : Dev) (x : Desc) (tiers : List Nat) : List PageEnt :=
  x.table.filter fun e => match findPage d e.page with
    | some p => tiers.contains p.tier
    | none => false

/-- Keys that the local passes of a layer read (R195, R200): an HBM pass over T1, a Landing pass over T0 and the self block, for
each KV head and, in decode mode, as many passes as rows of 16 ask for. -/
def localKeys (d : Dev) (x : Desc) (m : Model) (s : Step) (l : Nat) : Nat :=
  let r := layerRec m l
  let q := stepPositions x s
  let t := layerTile d x r
  let landing := (entsIn d x [0, 1]).filter fun e => ((findPage d e.page).map (·.t0.isSome)).getD false
  let hbm := (entsIn d x [0, 1]).filter fun e => !landing.contains e
  m.kvHeads * ((keysRead r t q (entPositions hbm)).length + (keysRead r t q (entPositions landing ++ q)).length)

/-- The copy of a T2 page that requests go to (R414). -/
def pageOwner (d : Dev) (p : Page) : Option Nat :=
  (readCopy d (.page p.id) (copyLocs d p.loc p.copies p.copyIndex)).map addrModule

/-- Runs of consecutive page entries in T2 that share an owner, at most 64 entries each (R195). -/
def t2Runs (d : Dev) (cur : List PageEnt) (owner : Option Nat) (l : List PageEnt) : List (Option Nat × List PageEnt) :=
  let flush := if cur.isEmpty then [] else [(owner, cur)]
  match l with
  | [] => flush
  | e :: r =>
    match findPage d e.page with
    | some p =>
      if p.tier ≠ 2 then flush ++ t2Runs d [] none r
      else
        let o := pageOwner d p
        if o = owner ∧ cur.length < 64 ∧ ¬ cur.isEmpty then t2Runs d (cur ++ [e]) owner r
        else flush ++ t2Runs d [e] o r
    | none => flush ++ t2Runs d [] none r

/-- Row tables of a KV head: the rows of one 16-token query tile, at most 256 in each (R219). -/
def rowTables (m : Model) (head : Nat) (q : List Nat) : List (List (Nat × Nat)) :=
  let per := m.qHeads / max 1 m.group / max 1 m.kvHeads
  let first := m.slice * (m.qHeads / max 1 m.group) + head * per
  let tiles := (q.map (· / 16)).eraseDups
  tiles.flatMap fun t =>
    let rows := (q.filter (· / 16 == t)).flatMap fun p => (List.range per).map fun h => (p, first + h)
    (List.range (ceilDiv rows.length 256)).map fun i => (rows.drop (256 * i)).take 256

/-- A remote partial-attention request (R219, R220). The query elements are those of the forward pass. -/
def pattnBytes (d : Dev) (x : Desc) (m : Model) (s : Step) (l head : Nat) (rows : List (Nat × Nat)) (es : List PageEnt)
    (tag use : Nat) : Bytes :=
  let r := layerRec m l
  let q := rows.length
  let dim := m.headDim
  let t0 := ((es.head?).map (·.firstPos / 16)).getD 0
  let t1 := ((es.getLast?).map fun e => (e.firstPos + e.valid - 1) / 16).getD 0
  let tiles := if r.maskKind = 2 then t1 + 1 - t0 else 0
  let qt := ((rows.head?).map (·.1 / 16)).getD 0
  let byte := fun i => BitVec.ofNat 8 (Config.element use i)
  let bits := (List.range ((tiles + 7) / 8)).map fun i =>
    BitVec.ofNat 8 (((List.range 8).map fun j =>
      if 8 * i + j < tiles ∧ layerTile d x r qt (t0 + 8 * i + j) then 2 ^ j else 0).sum)
  let body := (rows.flatMap fun p => le 4 p.1 ++ le 2 p.2 ++ zeros 2)
    ++ padTo (pad8 (q * dim)) ((List.range (q * dim)).map byte)
    ++ padTo (pad8 (q * (dim / 32))) ((List.range (q * (dim / 32))).map fun i => byte (q * dim + i))
    ++ (es.flatMap fun e => le 8 e.page ++ le 4 e.firstPos ++ le 2 e.valid ++ zeros 2)
    ++ padTo (pad8 bits.length) bits
  le 1 1 ++ le 1 s.attempt ++ le 2 d.self ++ le 4 tag ++ le 8 x.sid ++ le 6 s.step ++ le 2 l ++ le 2 head ++ le 2 q
  ++ le 2 dim ++ le 1 m.kvFormat ++ le 1 x.keySlot ++ le 4 r.scoreScale ++ le 1 r.maskKind ++ zeros 1
  ++ le 2 es.length ++ le 4 r.window ++ le 4 r.sink ++ le 4 (if tiles = 0 then 0 else t0) ++ le 4 tiles
  ++ le 4 body.length ++ zeros 4 ++ body

/-- Send one request (R218). -/
def sendPattn (k : SessKey) (l head owner : Nat) (rows : List (Nat × Nat)) (es : List PageEnt) (d : Dev) : Dev :=
  match findStep d k, findDesc d k with
  | some s, some x =>
    match findModel d x.model with
    | none => d
    | some m =>
      let tag := d.fab.nextTag % 2 ^ 32
      let (i, d1) := d.fresh
      let body := pattnBytes d x m s l head rows es tag i
      let addr := ((es.head?).map fun e => ((findPage d e.page).map (·.loc)).getD 0).getD 0
      let q : RemoteReq := ⟨tag, owner, l, head, es.map (·.page), s.attempt, rows.length⟩
      request (.pattn k l) opPattn 2 (globalAddr spExport owner (addrOffset addr)) 0 x.keySlot body
        ((putStep { s with requests := s.requests ++ [q] } d1).count (Reg.ATTN_REMOTE_SENT (galOf d k)) 1)
  | _, _ => d

/-- Every request of a layer (R195, R218); a run none of whose copies is reachable, or any while the key rings are disabled
(R613, R614), leaves the step without its partial. -/
def sendPattns (k : SessKey) (l : Nat) (d : Dev) : Dev :=
  match findStep d k, findDesc d k with
  | some s, some x =>
    match findModel d x.model with
    | none => d
    | some m =>
      forAll (t2Runs d [] none x.table) (fun run e =>
        match (if d.sec.keysOff then none else run.1) with
        | none => addCause k .fabricLost e
        | some o => forAll (List.range m.kvHeads) (fun h e1 =>
            forAll (rowTables m h (stepPositions x s)) (fun rows e2 => sendPattn k l h o rows run.2 e2) e1) e) d
  | _, _ => d

/-! ### Point 3b: the all-reduce (R252-R255) -/

/-- The session is of the EXACT profile. -/
def isExact (x : Desc) : Bool := x.profile % 2 == 0

/-- Elements of a shard: rows of the step times HIDDEN / g (R252). -/
def shardLen (x : Desc) (m : Model) (s : Step) : Nat := (stepPositions x s).length * (m.hidden / max 1 m.group)

/-- A partial in the wire format of the profile: free values of the forward pass (R253, log entry 8). -/
def partialElems (x : Desc) (n use : Nat) : List Nat :=
  (List.range n).map fun i => Config.element use i % (if isExact x then 2 ^ 96 else 2 ^ 16)

/-- The residual that the owner of a shard adds: its shard of the half before, or a free value of the embedding. -/
def residualOf (m : Model) (s : Step) (h : Nat) (use i : Nat) : Nat :=
  match s.shards.find? fun p => 0 < h && p.1 == (h - 1) / 2 && p.2.1 == (h - 1) % 2 && p.2.2.1 == m.slice with
  | some p => (p.2.2.2[i]?).getD 0
  | none => Config.element use i % 2 ^ 32

/-- Every slice has given its partial, or its shard, of a half. -/
def allSlices (m : Model) (l : List (Nat × Nat × Nat × List Nat)) (layer half : Nat) : Bool :=
  (List.range m.group).all fun i => l.any fun p => p.1 == layer && p.2.1 == half && p.2.2.1 == i

/-- With every partial of its shard present the owner sums and rounds, and sends the shard to every slice (R251, R252, R255). -/
def reduceShard (k : SessKey) (layer half : Nat) (d : Dev) : Dev :=
  match findStep d k, findDesc d k with
  | some s, some x =>
    match findModel d x.model with
    | none => d
    | some m =>
      if ¬ allSlices m s.partials layer half
          ∨ s.shards.any (fun p => p.1 == layer && p.2.1 == half && p.2.2.1 == m.slice) then d
      else
        let ps := (s.partials.filter fun p => p.1 == layer && p.2.1 == half).map (·.2.2.2)
        let (u, d1) := d.fresh
        let sum := (List.range (shardLen x m s)).map fun i =>
          reduceElem (isExact x) (ps.map fun p => (p[i]?).getD 0) (residualOf m s (2 * layer + half) u i)
        sendAll (others d m) (.layerShard k s.step layer half sum)
          (putStep { s with shards := s.shards ++ [(layer, half, m.slice, sum)] } d1)
  | _, _ => d

/-- Send the partials of the next half, each to the owner of its shard (R252). -/
def sendPartials (k : SessKey) (d : Dev) : Dev :=
  match findStep d k, findDesc d k with
  | some s, some x =>
    match findModel d x.model with
    | none => d
    | some m =>
      let layer := s.halves / 2
      let half := s.halves % 2
      let d1 := forAll (others d m) (fun o e =>
        let (u, e1) := e.fresh
        sendMsg o (.layerPartial k s.step layer half (partialElems x (shardLen x m s) u)) e1) d
      let (u, d2) := d1.fresh
      reduceShard k layer half (onStep k (fun y => { y with
        halves := y.halves + 1
        partials := y.partials ++ [(layer, half, m.slice, partialElems x (shardLen x m y) u)] }) d2)
  | _, _ => d

/-! ### Point 3 as a whole -/

/-- The layer a step has begun is complete: no request is outstanding, and both halves are gathered. -/
def layerDone (m : Model) (s : Step) : Bool :=
  s.requests.isEmpty && !(s.causes.contains .fabricLost) && (m.group == 1 || s.layer == 0
    || (s.halves == 2 * s.layer && allSlices m s.shards (s.layer - 1) 0 && allSlices m s.shards (s.layer - 1) 1))

/-- The next half may be sent: attention is merged and the half before is gathered. -/
def halfReady (m : Model) (s : Step) : Bool :=
  decide (1 < m.group ∧ s.halves < 2 * s.layer) && s.requests.isEmpty
  && (s.halves == 0 || allSlices m s.shards ((s.halves - 1) / 2) ((s.halves - 1) % 2))

/-- The weights of a layer are in place (R378). -/
def weightsIn (m : Model) (l : Nat) : Bool := m.window == 0 || m.filled.contains l

/-- Engine commands of a layer (R251, R561): matrix and vector work on every available Gallery of the partition or of a BOUND
context's quads, and the passes on the session's own. -/
def layerWork (x : Desc) (l : Nat) (d : Dev) : Dev :=
  let c := ctxOf d x.part (x.context % 4096)
  let gs := quadGalleries (if c.bound then c.quadSet else d.get (Reg.PART_QUADS x.part))
  let cmd := fun (e : Engine) (g : Nat) => (⟨g, e, x.part, x.context % 4096, descKey x, l⟩ : EngCmd)
  setPart { d.part with queue := d.part.queue ++ gs.flatMap (fun g => [cmd .matrix g, cmd .vector g])
    ++ [cmd .attention (sessGallery d (descKey x))] } d

/-- Counters of the matrix, vector and attention units that the free forward pass moves (R230, R259, log entry 19). -/
def forwardCounts (g : Nat) (d : Dev) : Dev :=
  forAll [Reg.ATTN_SCORE_SAT g, Reg.ATTN_V_SAT g, Reg.NUM_BLOCK_SAT g, Reg.NUM_ACC_SAT g, Reg.NUM_ACC_LOW g,
    Reg.NUM_NONFINITE g, Reg.NUM_CONV_SAT g] (fun f e => e.countFree f) d

/-- Begin a layer of a step: remote requests first, then the local passes (R32, R218). -/
def beginLayer (k : SessKey) (d : Dev) : Dev :=
  match findStep d k, findDesc d k with
  | some s, some x =>
    match findModel d x.model with
    | none => d
    | some m =>
      let d1 := sendPattns k s.layer d
      let d2 := (forwardCounts (galOf d k) d1).count (Reg.ATTN_KEYS_READ (galOf d k)) (localKeys d x m s s.layer)
      layerWork x s.layer (onStep k (fun y => { y with layer := y.layer + 1 }) d2)
  | _, _ => d

/-! ### Points 4 to 6: sampling (R261-R271, R307-R310) -/

/-- The grammar program of a turn. -/
def turnGrammar (d : Dev) (x : Desc) : Option Grammar :=
  if x.grammar = 0 then none
  else (d.text.grammars.find? fun g => g.1 == x.grammar && g.2.1 == x.model).map (·.2.2.2)

/-- END_TOKEN of a session's model. -/
def endToken (d : Dev) (x : Desc) : Nat := ((vocabFor d x.model).map (·.endToken)).getD 0

/-- The Fretboard state of a step that draws: advanced by the token drawn before it in the same turn, unless that was the end
token (R307). -/
def fretNow (d : Dev) (x : Desc) : FretGen :=
  match turnGrammar d x, ((x.turn.map (·.generated)).getD []).getLast? with
  | some g, some t => if t = endToken d x then x.fret else fretAdvance g x.fret t
  | _, _ => x.fret

/-- Bias of a row (R261, R276). -/
def biasOf (d : Dev) (x : Desc) (v : Nat) : Option Nat :=
  if x.sampler.bias = 0 then none
  else match d.samp.bias.find? fun b => b.handle == x.sampler.bias && b.model == x.model with
    | some b => (b.entries.find? fun e => e.1 == v).map (·.2)
    | none => none

/-- A row's bit of the mask, and whether the edges removed it (R308). -/
def rowMask (d : Dev) (x : Desc) (v : Nat) : Bool × Bool :=
  match turnGrammar d x with
  | none => (true, false)
  | some g => maskBit g (endToken d x) (fretNow d x) v

/-- Vocabulary rows of a module's slice (R250). -/
def sliceRows (m : Model) : List Nat :=
  let n := m.vocab / max 1 m.group
  (List.range n).map fun i => m.slice * n + i

/-- Times a row occurs in the history window (R261). -/
def windowCount (x : Desc) (hist : List Nat) (v : Nat) : Nat :=
  (hist.drop (hist.length - x.sampler.window)).countP (· == v)

/-- The score of a row, and whether it was clamped (R261). -/
def stepScore (d : Dev) (x : Desc) (m : Model) (hist : List Nat) (v : Nat) : Int × Bool :=
  rowScore x.sampler (Config.logit (unle m.content) (x.profile % 2) hist v) (windowCount x hist v) (biasOf d x v)

/-- The valid rows of the slice with their scores (R261, R262). -/
def validRows (d : Dev) (x : Desc) (m : Model) (s : Step) : List (Nat × Int × Bool) :=
  let hist := stepHist x s
  ((sliceRows m).filter fun v => (rowMask d x v).1).map fun v => (v, stepScore d x m hist v)

/-- The module's list of K entries (R262, R263). -/
def ownList (d : Dev) (x : Desc) (m : Model) (s : Step) : List (Nat × Int) :=
  (selectTop true (samplerK x.sampler) ((validRows d x m s).map fun r => (r.1, r.2.1))).1

/-- Rows of the slice that the merged list left out: their number tied with the last entry, and the sum of their masses (R268). -/
def remainder (d : Dev) (x : Desc) (m : Model) (s : Step) (merged : List (Nat × Int)) : Nat × Nat :=
  let out := (validRows d x m s).filter fun r => !(merged.any fun e => e.1 == r.1)
  let top := ((merged.head?).map (·.2)).getD 0
  let ties := match merged.getLast? with
    | some z => if merged.length < samplerK x.sampler then 0
      else (out.filter fun r => r.2.1 == z.2 && decide (z.1 < r.1)).length
    | none => 0
  (ties, (out.map fun r => massOf top r.2.1).sum)

/-- The remainder message (R268). -/
def remainderBytes (x : Desc) (s : Step) (slice ties out : Nat) : Bytes :=
  le 8 x.sid ++ le 6 s.step ++ le 2 slice ++ le 4 ties ++ zeros 12 ++ le 16 out

/-- Steps 2 to 4 of R263 on the merged list: the draw, and the remainder to the home (R264, R265, R268-R271, R310). -/
def drawStep (k : SessKey) (merged : List (Nat × Int)) (d : Dev) : Dev :=
  match findStep d k, findDesc d k with
  | some s, some x =>
    match findModel d x.model with
    | none => d
    | some m =>
      if merged.isEmpty then
        let d1 := d.count Reg.PLEC_EMPTY_MASK 1
        if bitAt x.flags 2 then
          (onStep k (fun y => { y with
            merged := some []
            dead := true }) d1).count Reg.FRET_DEAD 1
        else
          (onStep k (fun y => { y with
            merged := some []
            token := some (endToken d x) }) d1).count Reg.FRET_FORCED_END 1
      else
        let r := drawToken x.sampler (uniform x.seed s.step 0) merged
        let rem := remainder d x m s merged
        let d1 := (when r.greedy (fun e => e.count Reg.PLEC_GREEDY 1) d).count Reg.PLEC_DRAWS 1
        let d2 := onStep k (fun y => { y with
          merged := some merged
          token := some r.token
          kept := r.kept
          remainders := if x.home = d.self then y.remainders ++ [(m.slice, rem.1, rem.2)] else y.remainders }) d1
        if x.home = d.self then d2 else sendMsg x.home (.remainder (remainderBytes x s m.slice rem.1 rem.2)) d2
  | _, _ => d

/-- A peer's list holds an index twice or outside its slice (R275). -/
def listBad (m : Model) (slice : Nat) (l : List (Nat × Int)) : Bool :=
  let n := m.vocab / max 1 m.group
  !allDistinct (l.map (·.1)) || l.any fun e => !decide (slice * n ≤ e.1 ∧ e.1 < slice * n + n)

/-- With every list present they are merged and the draw is made (R263). -/
def mergeLists (k : SessKey) (d : Dev) : Dev :=
  match findStep d k, findDesc d k with
  | some s, some x =>
    match findModel d x.model with
    | none => d
    | some m =>
      if s.merged.isSome ∨ ¬ (List.range m.group).all (fun i => s.lists.any fun l => l.1 == i) then d
      else drawStep k (selectTop true (samplerK x.sampler) (s.lists.flatMap (·.2))).1 d
  | _, _ => d

/-- Point 4: the module's scores and list, sent to every peer (R261-R263). -/
def sampleStep (k : SessKey) (d : Dev) : Dev :=
  match findStep d k, findDesc d k with
  | some s, some x =>
    match findModel d x.model with
    | none => d
    | some m =>
      let rows := validRows d x m s
      let trimmed := ((sliceRows m).filter fun v => (rowMask d x v).2).length
      let own := ownList d x m s
      let d1 := when (turnGrammar d x).isSome
        (fun e => (e.count Reg.FRET_MASKS 1).count Reg.FRET_MASK_TRIM trimmed) d
      let d2 := d1.count Reg.PLEC_SCORE_SAT (rows.countP fun r => r.2.2)
      mergeLists k (sendAll (others d m) (.peerList k s.step own)
        (onStep k (fun y => { y with lists := y.lists ++ [(m.slice, own)] }) d2))
  | _, _ => d

/-- The restore of the session's BOUND context on its Gallery is not complete (R564). -/
def restoreWaits (d : Dev) (x : Desc) : Bool :=
  d.part.switches.any fun w => w.part == x.part && w.ctx == x.context % 4096
    && w.left.contains (sessGallery d (descKey x))

/-- A step goes as far as it can: halves that are ready, launched layers, and then sampling (R32). -/
def advanceStep (fuel : Nat) (k : SessKey) (d : Dev) : Dev :=
  match fuel with
  | 0 => d
  | n + 1 =>
    match findStep d k, findDesc d k with
    | some s, some x =>
      match findModel d x.model with
      | none => d
      | some m =>
        if ¬ s.started ∨ s.committed ∨ s.error ∨ computesNothing x s ∨ restoreWaits d x then d
        else if halfReady m s then advanceStep n k (sendPartials k d)
        else if ¬ layerDone m s then d
        else if s.layer < m.layers then
          if s.reach ≤ s.layer then d
          else if ¬ weightsIn m s.layer then
            setRun { d.run with waitWeights := (m.handle, s.layer) :: d.run.waitWeights.erase (m.handle, s.layer) } d
          else advanceStep n k (beginLayer k d)
        else if s.draws ∧ ¬ s.lists.any (fun l => l.1 == m.slice) then sampleStep k d
        else d
    | _, _ => d

/-- Enough rounds for every layer of every model. -/
def advance (k : SessKey) (d : Dev) : Dev := advanceStep 4096 k d

/-! ### Point 10 and the commit (R53, R90, R143-R145) -/

/-- Every point up to the ninth is complete. -/
def stepComplete (d : Dev) (x : Desc) (m : Model) (s : Step) : Bool :=
  s.started && !s.error && !s.committed && !s.dead
  && (computesNothing x s || (s.layer == m.layers && layerDone m s && (!s.draws || s.token.isSome)))
  && (!s.draws || s.merged == some [] || x.home != d.self
      || (List.range m.group).all fun i => s.remainders.any fun r => r.1 == i)

/-- The stop strings of a turn. -/
def turnStops (d : Dev) (x : Desc) : List Bytes :=
  if x.stopSet = 0 then []
  else ((d.text.stops.find? fun q => q.1 == x.stopSet && q.2.1 == x.model).map (·.2.2)).getD []

/-- The sampling record of a step (R278). -/
def stepRecord (x : Desc) (s : Step) : Option SampleRec :=
  match s.merged, s.token with
  | some l, some t =>
    if l.isEmpty then none
    else
      let m := ((l.head?).map (·.2)).getD 0
      some
        { sid := x.sid
          step := s.step
          kept := s.kept
          token := t
          k := samplerK x.sampler
          nValid := l.length
          tie := if l.length < samplerK x.sampler then 0 else (s.remainders.map (·.2.1)).sum
          m := m
          selSum := (masses m l).sum
          outSum := (s.remainders.map (·.2.2)).sum }
  | _, _ => none

/-- The status line and the turn's tokens go to session memory (R142). -/
def sessionMemory (x : Desc) (d : Dev) : Dev :=
  if x.smemBase = 0 ∨ x.smemLen < 64 then d
  else
    let toks := ((x.turn.map (·.generated)).getD []).take ((x.smemLen - 64) / 4)
    deviceWrite x.part x.smemBase ((descBytes x).take 64 ++ toks.flatMap (le 4)) d

/-- Why a step that commits ends the turn, and whether it does (R128): a stop string, the end token, the limit, or input that
asks for no generation. -/
def stopOf (stop : Bool) (token : Option Nat) (endTok left : Nat) (idle : Bool) : Option Nat :=
  if stop then some srStopString
  else match token with
    | some t => if t = endTok then some srEndToken else if left = 0 then some srTokenLimit else none
    | none => if idle then some srNone else none

/-- The epoch words after a commit (R519): the step changes the descriptor and the text block, the page table when it lays out
pages, the token log when it adds tokens, and the Fretboard block of a grammar. -/
def newEpochs (e : Nat) (x : Desc) (lays adds : Bool) : List Nat :=
  let old := fun i => (x.epochs[i]?).getD 0
  [e, if lays then e else old 1, if adds then e else old 2, e, if x.grammar ≠ 0 then e else old 4]

/-- The commits of the session wait for a private copy of its open page: the shared page, and its bytes (R153, R178). -/
def privateNeed (d : Dev) (x : Desc) (lays : Bool) : Option Page :=
  if lays then (openPage x).bind fun e => (findPage d e.page).filter pageShared else none

/-- A copy of the session is in flight (R363, R380). -/
def copyInFlight (d : Dev) (k : SessKey) : Bool :=
  d.tier.copies.any fun c => !c.done && (match c.kind with
    | .privatePage q _ => q == k
    | .capture q => q == k
    | _ => false)

/-- The private copy that a commit needs has been made. -/
def privateMade (d : Dev) (k : SessKey) (p : Page) : Bool :=
  d.tier.copies.any fun c => c.done && c.kind == .privatePage k p.id

/-- A commit waits for copies of class 1 (R153, R178, R525). -/
def copiesLeft (d : Dev) (x : Desc) (lays : Bool) : Bool :=
  ((privateNeed d x lays).any fun p => !privateMade d (descKey x) p)
  || (findCapture d x.model).any fun c => !(cowNeeds c x (cowWrites d x lays)).isEmpty

/-- The copies that a commit waits for start. -/
def copiesStart (x : Desc) (lays : Bool) (d : Dev) : Dev :=
  let k := descKey x
  if copyInFlight d k then d
  else
    let d1 := match privateNeed d x lays with
      | some p => if privateMade d k p then d else copyStart 1 (.privatePage k p.id) (pageSize p) d
      | none => d
    match findCapture d x.model with
    | some c =>
      let n := cowNeeds c x (cowWrites d x lays)
      if n.isEmpty then d1 else copyStart 1 (.capture k) ((n.map (·.2.2.2)).sum) d1
    | none => d1

/-- The append of a commit has its private copy. -/
def copiesUsed (k : SessKey) (d : Dev) : Dev :=
  setTier { d.tier with copies := d.tier.copies.filter fun c => !(c.done && (match c.kind with
    | .privatePage q _ => q == k
    | _ => false)) } d

/-- The next commit of a session lays out pages. -/
def commitLays (d : Dev) (k : SessKey) : Bool :=
  match findStep d k, findDesc d k with
  | some s, some x => !s.replay && decide (kvLen x < (stepHist x s).length)
  | _, _ => false

/-- A step commits: what it staged takes effect, all together (R143, R144). -/
def commitStep (k : SessKey) (d0 : Dev) : Dev :=
  let lays := commitLays d0 k
  let d := copiesUsed k d0
  match findStep d k, findDesc d k with
  | some s, some x =>
    if (findModel d x.model).isNone then d
    else if s.replay then putStep { s with committed := true } d
    else
      let hist := stepHist x s
      let rest := ((x.turn.map (·.input)).getD []).drop s.take
      let gen := (x.turn.map (·.generate)).getD false
      let toks := hist ++ s.token.toList
      let left := if s.token.isSome then x.tokensLeft - 1 else x.tokensLeft
      let str := match s.token, vocabFor d x.model with
        | some t, some v => if tokenSpecial v t then [] else tokenStr v t
        | _, _ => []
      let ends := s.token.any fun t => t == endToken d x || left == 0
      let out := if s.token.isSome then textStep (turnStops d x) (bitAt x.flags 0) ends x.text str
        else ⟨[], x.text.outHeld.length, false, false, 0, x.text⟩
      let why := stopOf out.stopped s.token (endToken d x) left (s.intake && rest.isEmpty && !gen)
      let unit := x.sid % 4
      let (x1, d1) := if kvLen x < hist.length then appendPages x hist (kvLen x) d else (x, d)
      let x2 := { x1 with
        committed := s.step
        prevCtxLen := x.ctxLen
        ctxLen := toks.length
        tokens := toks
        tokensLeft := left
        lastCommit := d.now
        state := if why.isSome then ssStopped else x.state
        stopReason := why.getD x.stopReason
        timerStart := if why.isSome then nextTickStart d else x.timerStart
        retries := 0
        textPrev := x.text
        text := out.gen
        fretPrev := x.fret
        fret := if s.token.isSome then fretNow d x else x.fret
        epochs := newEpochs (d.get Reg.CKPT_EPOCH) x lays (toks.length != x.ctxLen)
        turn := x.turn.map fun t => { t with
          input := rest
          generated := t.generated ++ s.token.toList
          revive := none } }
      let fin : StepDone :=
        { time := d.now
          token := s.token.getD 0
          text := out.text
          held := out.held
          reason := why
          cut := out.stopped && out.trailing && bitAt x.flags 0
          last := s.intake && rest.isEmpty
          from_ := max (x.ctxLen / 16) (((x.turn.map (·.matched)).getD 0) / 16) }
      let d2 := putStep { s with
        committed := true
        done := some fin
        reserve := 0 } (sweepPages (putDesc x2 (poolGive x.part s.reserve d1)))
      let d3 := when x.isHome (fun e => when out.stopped (fun z => z.count (Reg.TXU_STOPS unit) 1)
        ((sessionMemory x2 e).count (Reg.TXU_OUT_FFFD unit) out.fffds)) d2
      let rec_ := if x.isHome then stepRecord x s else none
      let d4 := match rec_ with
        | some r => when (r.tie != 0) (fun e => e.count Reg.PLEC_TIE_STEPS 1)
            { d3 with samp := { d3.samp with records := (r :: d3.samp.records).take 1048576 } }
        | none => d3
      let c := ctxOf d4 x.part (x.context % 4096)
      (putCtx { c with
        est := estAfter c.est s.charge
        steps := min counterMax (c.steps + 1) } d4).count Reg.SESS_STEPS_COMMITTED 1
  | _, _ => d

/-- Host copies of the lines that the commit writes are gone (R90, R684). -/
def smemFree (d : Dev) (x : Desc) : Bool := x.smemBase == 0 || !x.isHome || linesFree d x.part x.smemBase x.smemLen

/-- Back-invalidate every host copy of the session memory, owned or shared (R90). -/
def smemClear (x : Desc) (d : Dev) : Dev := linesClear x.part x.smemBase x.smemLen d

/-- Commit a step that is ready, once its votes are held and no host holds its lines (R90, R145). -/
def tryCommit (k : SessKey) (d : Dev) : Dev :=
  match findStep d k, findDesc d k with
  | some s, some x =>
    match findModel d x.model with
    | none => d
    | some m =>
      if s.ready ∧ ¬ s.committed ∧ ¬ d.tick.sealed ∧ smemFree d x = true ∧ ¬ copiesLeft d x (commitLays d k)
          ∧ (m.group = 1 ∨ m.members.all s.votes.contains) then commitStep k d else d
  | _, _ => d

/-- STEP_COMMIT: the step completes point 10 before its deadline; in a group it votes (R53, R145). A step that waits for a
private copy or a capture's copy does not complete it (R178, R525). -/
def stepCommit (k : SessKey) (d : Dev) : Dev :=
  match findStep d k, findDesc d k with
  | some s, some x =>
    match findModel d x.model with
    | none => d
    | some m =>
      if d.tick.sealed ∨ ¬ stepComplete d x m s then d
      else if cowWaits d x (commitLays d k) then addCause k .copyBw (cowAhead x (commitLays d k) d)
      else if copiesLeft d x (commitLays d k) then copiesStart x (commitLays d k) d
      else
        let d1 := if s.votes.contains d.self ∨ m.group = 1 then d
          else sendAll (others d m) (.vote k s.step) (onStep k (fun y => { y with votes := y.votes ++ [d.self] }) d)
        let d2 := onStep k (fun y => { y with ready := true }) d1
        tryCommit k (if smemFree d2 x then d2 else smemClear x d2)
  | _, _ => d

/-- COMMIT_VOTE_RX (R145, R146): a member that has committed the step answers with its own vote. -/
def voteRx (src : Nat) (k : SessKey) (step : Nat) (d : Dev) : Dev :=
  match findStep d k with
  | some s =>
    if s.step = step ∧ ¬ s.votes.contains src then tryCommit k (putStep { s with votes := s.votes ++ [src] } d) else d
  | none =>
    match findDesc d k with
    | some x => if x.committed = step ∧ step ≠ 0 then sendMsg src (.vote k step) d else d
    | none => d

/-! ### Messages of a step -/

/-- The step of a session that a message names. -/
def stepFor (d : Dev) (k : SessKey) (step : Nat) : Option Step :=
  match findStep d k with
  | some s => if s.step = step ∧ ¬ s.committed then some s else none
  | none => none

/-- The slice of a sender in the session's group. -/
def senderSlice (d : Dev) (k : SessKey) (src : Nat) : Option Nat :=
  match findDesc d k with
  | some x => (findModel d x.model).bind fun m => m.members.findIdx? (· == src)
  | none => none

/-- ALLREDUCE_PARTIAL_RX (R252, R255). -/
def partialRx (src : Nat) (k : SessKey) (step layer half : Nat) (elems : List Nat) (d : Dev) : Dev :=
  match stepFor d k step, senderSlice d k src with
  | some s, some i =>
    if s.partials.any fun p => p.1 == layer && p.2.1 == half && p.2.2.1 == i then d
    else advance k (reduceShard k layer half (putStep { s with partials := s.partials ++ [(layer, half, i, elems)] } d))
  | _, _ => d

/-- ALLGATHER_SHARD_RX (R252). -/
def shardRx (src : Nat) (k : SessKey) (step layer half : Nat) (elems : List Nat) (d : Dev) : Dev :=
  match stepFor d k step, senderSlice d k src with
  | some s, some i =>
    if s.shards.any fun p => p.1 == layer && p.2.1 == half && p.2.2.1 == i then d
    else advance k (putStep { s with shards := s.shards ++ [(layer, half, i, elems)] } d)
  | _, _ => d

/-- PEER_LIST_RX (R263, R275). -/
def peerListRx (src : Nat) (k : SessKey) (step : Nat) (entries : List (Nat × Int)) (d : Dev) : Dev :=
  match stepFor d k step, senderSlice d k src, (findDesc d k).bind fun x => findModel d x.model with
  | some s, some i, some m =>
    if s.lists.any fun l => l.1 == i then d
    else if listBad m i entries then stepError k ecRemoteBad Reg.PLEC_LIST_ERR.page 0xFFFF false (d.count Reg.PLEC_LIST_ERR 1)
    else mergeLists k (putStep { s with lists := s.lists ++ [(i, entries)] } d)
  | _, _, _ => d

/-- REMAINDER_MSG_RX (R268). -/
def remainderRx (src ns : Nat) (body : Bytes) (d : Dev) : Dev :=
  let k : SessKey := ⟨ns, fieldAt body 0 8⟩
  let i := fieldAt body 14 2
  match stepFor d k (fieldAt body 8 6) with
  | some s =>
    if s.remainders.any (fun r => r.1 == i) ∨ senderSlice d k src ≠ some i then d
    else putStep { s with remainders := s.remainders ++ [(i, fieldAt body 16 4, fieldAt body 32 16)] } d
  | none => d

/-- PATTN_RESPONSE_RX (R224, R225). -/
def pattnResponseRx (src : Nat) (body : Bytes) (d : Dev) : Dev :=
  let tag := fieldAt body 4 4
  let d0 := (takeReq tag src d).2
  let hit := d.run.steps.find? fun s => !s.committed && s.requests.any fun r =>
    r.tag == tag && r.owner == src && r.attempt % 256 == byteAt body 1
  match hit with
  | none =>
    let k := ((d.sess.descs.find? fun x => x.sid == fieldAt body 8 8).map descKey).getD ⟨0, fieldAt body 8 8⟩
    d0.count (Reg.ATTN_REMOTE_STALE (galOf d k)) 1
  | some s =>
    let g := galOf d s.key
    let code := byteAt body 28
    match s.requests.find? fun r => r.tag == tag with
    | none => d0
    | some r =>
      let rest := s.requests.filter fun q => q.tag != tag
      if code = paOk then
        advance s.key (((putStep { s with requests := rest } d0).count (Reg.ATTN_SCORE_SAT g) (fieldAt body 40 4)).count
          (Reg.ATTN_V_SAT g) (fieldAt body 44 4))
      else if code = paAbsent then
        let bad := (r.pages[byteAt body 29]?).getD 0
        addCause s.key .t2Late (setFab { d0.fab with absentAt := (.page bad, src) :: d0.fab.absentAt } d0)
      else
        let d1 := when (code == paReadError) (fun e => setFab { e.fab with
          absentAt := r.pages.map (fun p => (.page p, src)) ++ e.fab.absentAt } e) d0
        (stepError s.key ecRemoteBad (Reg.ATTN_REMOTE_FAIL g).page g false d1).count (Reg.ATTN_REMOTE_FAIL g) 1

end Sys2Proof.Machine
end

