-- ==== Sys2Proof/Machine/Time.lean ====
section
/-! DEFINITION. The disciplined counter, its sources and servo, and the writes of the TIME and TICK pages (spec/02:
R39-R59, R73, R75; spec/24: R674, R679). -/

namespace Sys2Proof.Machine

open Sys2Proof

/-! ### The counter -/

/-- One nanosecond of the local oscillator: the counter advances by it and by what the rate correction has gathered (R39,
R40). -/
def counterTick (d : Dev) : Dev :=
  let s := d.time.sub + d.time.slew * 65536
  let total := (d.now * 65536 + d.time.frac : Nat) + 65536 + s / 1000000000
  let n := total.toNat
  setTime { d.time with
    frac := n % 65536
    sub := s % 1000000000
    localNs := d.time.localNs + 1 } (d.set Reg.TIME_NOW_NS (n / 65536))

/-- A step correction of the counter (R56, R57, R664). Before the first tick its boundary is looked for from the new value on. -/
def stepCorrection (value frac : Nat) (d : Dev) : Dev :=
  let d1 := setTick { d.tick with
    corrected := true
    corrTo := value
    start := if d.tick.running then d.tick.start else value
    startLocal := if d.tick.running then d.tick.startLocal else d.clock } (setTime { d.time with
    frac := frac % 65536
    sub := 0 } (d.set Reg.TIME_NOW_NS value))
  (d1.count Reg.TIME_STEP_CORRECTIONS 1).raise 2 3

/-! ### The servo -/

/-- Growth of the holdover bound in units of 10^-11 ns per nanosecond (R48). -/
def holdRate (d : Dev) : Nat := if d.time.clk10m then 1 else 100

/-- The holdover bound in units of 10^-11 ns (R48). -/
def holdBound (d : Dev) : Nat := d.time.holdBase + holdRate d * (d.clock - d.time.holdAt)

/-- TIME_ALIGN_TOL in effect, ns (R49). -/
def alignTol (d : Dev) : Nat := clampNat 100 10000 (d.get Reg.TIME_ALIGN_TOL)

/-- TIME_HOLD_BOUND as it reads: whole ns; a bound between two whole values reads as either (log entry 14). -/
def holdBoundNs (d : Dev) : Nat :=
  if d.get Reg.TIME_SERVO = servoHoldover then
    holdBound d / 100000000000 +
      (if holdBound d % 100000000000 = 0 then 0 else Config.freeNat d.free % 2)
  else 0

/-- The servo changes state (R47, R664). -/
def setServo (v : Nat) (d : Dev) : Dev :=
  if d.get Reg.TIME_SERVO = v then d
  else
    let d1 := ((d.set Reg.TIME_SERVO v).count Reg.TIME_SERVO_CHANGES 1).raise 1 0
    let d2 := setTime { d1.time with
      good := 0
      stepped := if v = servoAcquiring then false else d1.time.stepped
      slew := if v = servoFreeRun then 0 else d1.time.slew
      holdAt := if v = servoHoldover then d1.clock else d1.time.holdAt
      holdBase := if v = servoHoldover then 5000000000000 else d1.time.holdBase } d1
    let d3 := when (v == servoHoldover) (fun e => e.raise 1 1) d2
    when (v == servoExpired) (fun e => e.raise 1 2) d3

/-- A rate correction that the device chooses, within 200 ppb (R40); the servo's law is not stated. -/
def freeSlew (d : Dev) : Dev :=
  let (i, d1) := d.fresh
  setTime { d1.time with slew := (Config.freeNat i % 401 : Nat) - 200 } d1

/-- A sync with an offset of at most 100 ns counts towards lock, another starts the count again (R47). -/
def goodCount (d : Dev) (offset : Int) : Nat := if offset.natAbs ≤ 100 then d.time.good + 1 else 0

/-- A valid sync of the selected source with a measured offset (R40, R44, R47, R75). In ACQUIRING the counter may step
once: whether it does at this sync is the device's choice. -/
def syncServo (offset : Int) (d : Dev) : Dev :=
  let d0 := (d.set Reg.TIME_OFFSET (twos 32 offset)).count Reg.TIME_SYNC_RX 1
  let g := goodCount d offset
  let sv := d.get Reg.TIME_SERVO
  if sv = servoFreeRun ∨ sv = servoExpired then setServo servoAcquiring d0
  else if sv = servoAcquiring then
    let (i, d1) := d0.fresh
    let d2 := if !d1.time.stepped ∧ Config.freeNat i % 2 = 1 then
        stepCorrection ((d1.now : Int) - offset).toNat d1.time.frac (setTime { d1.time with stepped := true } d1)
      else freeSlew d1
    if 16 ≤ g ∧ (d.get Reg.TIME_SRC ≠ 3 ∨ d.time.edgeSet) then setServo servoLocked d2
    else setTime { d2.time with good := g } d2
  else if sv = servoLocked then
    if 1000 < offset.natAbs then setServo servoHoldover d0 else freeSlew d0
  else if 16 ≤ g then setServo servoLocked (freeSlew d0)
  else freeSlew (setTime { d0.time with good := g } d0)

/-- The source of a timing message is the selected one (R43, R44). -/
def sourceSelected (d : Dev) (src : SyncSrc) : Bool :=
  match src with
  | .ethernet => d.get Reg.TIME_SRC == 1
  | .port p => d.get Reg.TIME_SRC == 2 && d.get Reg.TIME_UP_PORT == p

/-- PTP_SYNC_RX (R44, R45, R47): management messages are ignored, and so is a message with an authentication TLV, which
the device does not support, or of another domain. -/
def ptpSync (m : SyncMsg) (d : Dev) : Dev :=
  if m.management ∨ m.authTlv ∨ ¬ sourceSelected d m.src ∨ m.domain ≠ d.get Reg.TIME_PTP_DOMAIN then d
  else syncServo m.offset d

/-- PTP_DELAY_RESP_RX (R44): the path delay of a source is measured. -/
def ptpDelay (src : SyncSrc) (delay : Nat) (d : Dev) : Dev :=
  setTime { d.time with pathDelay := (src, delay) :: d.time.pathDelay.filter fun x => x.1 != src } d

/-- SYNC_TIMEOUT (R47): no valid sync for three sync intervals. -/
def syncTimeoutEffect (d : Dev) : Dev :=
  if d.get Reg.TIME_SRC = 0 then d
  else
    let d1 := setTime { d.time with good := 0 } (d.count Reg.TIME_SYNC_MISSED 3)
    if d.get Reg.TIME_SERVO = servoLocked then setServo servoHoldover d1 else d1

/-- HOLDOVER_EXPIRE (R47, R48): the bound exceeds half the tolerance. -/
def holdoverExpireEffect (d : Dev) : Dev :=
  if d.get Reg.TIME_SERVO = servoHoldover ∧ alignTol d * 100000000000 < 2 * holdBound d then setServo servoExpired d
  else d

/-- CLK10M_VALIDITY_CHANGE (R674, R679): in HOLDOVER the other bound applies from the bound already reached. -/
def clk10mChange (valid : Bool) (d : Dev) : Dev :=
  setTime { d.time with
    clk10m := valid
    clkMissed := d.time.clkMissed || !valid
    holdBase := if d.get Reg.TIME_SERVO = servoHoldover then holdBound d else d.time.holdBase
    holdAt := if d.get Reg.TIME_SERVO = servoHoldover then d.clock else d.time.holdAt } d

/-- At the end of each second in which CLK10M_IN was invalid while TIME_SRC is 3, TIME_SYNC_MISSED counts (R674). -/
def clk10mSecond (d : Dev) : Dev :=
  if d.clock % 1000000000 = 0 then
    let d1 := if d.get Reg.TIME_SRC = 3 ∧ (d.time.clkMissed ∨ ¬ d.time.clk10m) then d.count Reg.TIME_SYNC_MISSED 1
      else d
    setTime { d1.time with clkMissed := !d1.time.clk10m } d1
  else d

/-- PPS_IN_EDGE (R43, R75, R679): ignored but for source 3; a waiting TIME_SET takes effect and completes, else the edge
gives the phase. -/
def ppsEdge (offset : Int) (d : Dev) : Dev :=
  if d.get Reg.TIME_SRC ≠ 3 then d
  else
    match d.time.edgeCmd with
    | some (m, v) =>
      syncServo 0 (complete m stSuccess 0 0 [] (stepCorrection v 0 (setTime { d.time with
        edgeCmd := none
        edgeSet := true } d)))
    | none => syncServo offset d

/-- PPS_OUT_EDGE (R46): PPS_OUT rises when the counter is at a whole second, in every servo state. -/
def ppsOut (d : Dev) : Dev := if d.now % 1000000000 = 0 then d.emit (.pps d.now) else d

/-! ### TIME_SET -/

/-- The value, fraction and EDGE of a TIME_SET (R75). -/
def timeSetValue (c : HostCmd) : Nat := argAt c 48 8
def timeSetFrac (c : HostCmd) : Nat := argAt c 56 2
def timeSetEdge (c : HostCmd) : Bool := bitAt (argAt c 58 1) 0

/-- The conditions of R42 and R75. -/
def timeSetChecks (d : Dev) (m : Cmd) : List (Bool × Nat) :=
  let sv := d.get Reg.TIME_SERVO
  [(d.time.edgeCmd.isSome, stInvalidField),
   (!(sv == servoFreeRun || (sv == servoAcquiring && d.get Reg.TIME_SRC == 3)), stInvalidField),
   (timeSetEdge m.c && (d.get Reg.TIME_SRC != 3 || timeSetValue m.c % 1000000000 != 0 || timeSetFrac m.c != 0),
    stInvalidField)]

/-- The effect of a TIME_SET that passes (R75): at once, or at the next PPS edge. -/
def timeSetApply (m : Cmd) (d : Dev) : Dev :=
  if timeSetEdge m.c then setTime { d.time with edgeCmd := some (m, timeSetValue m.c) } d
  else complete m stSuccess 0 0 [] (stepCorrection (timeSetValue m.c) (timeSetFrac m.c) d)

/-! ### Register writes -/

/-- The page's RWL fields are locked (R8). -/
def locked (d : Dev) (page : Nat) : Bool := d.get (Reg.LOCK page) == 1

/-- TIME_SRC_WRITE (R43, R47, R75): a write of the word that holds TIME_SRC, TIME_PTP_DOMAIN and TIME_UP_PORT. -/
def timeSrcWrite (word : Nat) (d : Dev) : Dev :=
  if locked d 1 then d
  else
    let d1 := (d.set Reg.TIME_PTP_DOMAIN (bitsOf word 3 7)).set Reg.TIME_UP_PORT (bitsOf word 10 4)
    if 4 ≤ word % 8 then (d1.set Reg.TIME_WRITE_STATUS 1).raise 1 3
    else
      let d2 := setServo servoFreeRun ((d1.set Reg.TIME_SRC (word % 8)).set Reg.TIME_WRITE_STATUS 0)
      let d3 := setTime { d2.time with
        good := 0
        edgeSet := false
        edgeCmd := none } d2
      match d.time.edgeCmd with
      | some (m, _) => failWith m stInvalidField d3
      | none => d3

/-- A refused write of the TICK page (R55, R664). -/
def tickRefuse (st : Nat) (d : Dev) : Dev := (d.set Reg.TICK_WRITE_STATUS st).raise 2 4

/-- TICK_EPOCH_WRITE (R50, R57): an accepted write while ticks run is a grid change. -/
def tickEpochWrite (value : Nat) (d : Dev) : Dev :=
  if locked d 2 then d
  else if value % 1000 ≠ 0 then tickRefuse 4 d
  else
    let d1 := (d.set Reg.TICK_EPOCH value).set Reg.TICK_WRITE_STATUS 0
    if d.tick.running then
      (setTick { d1.tick with
        corrected := true
        corrTo := if d1.tick.corrected then d1.tick.corrTo else 0 } (d1.set Reg.TICK_CHANGE_AT 0)).raise 2 3
    else setTick { d1.tick with
      start := max d1.tick.start d1.now
      startLocal := d1.clock } d1

/-- TICK_GUARD_NS_WRITE (R52). -/
def tickGuardWrite (value : Nat) (d : Dev) : Dev :=
  if locked d 2 then d
  else if value < 50000 ∨ d.get Reg.TICK_PERIOD_NS / 8 < value
      ∨ (d.get Reg.TICK_CHANGE_AT ≠ 0 ∧ d.get Reg.TICK_PERIOD_NEXT / 8 < value) then tickRefuse 3 d
  else (d.set Reg.TICK_GUARD_NS value).set Reg.TICK_WRITE_STATUS 0

/-- A period that R55 allows. -/
def periodAllowed (d : Dev) (p : Nat) : Bool :=
  p % 1000 == 0 && decide (500000 ≤ p ∧ p ≤ 1000000000 ∧ 8 * d.get Reg.TICK_GUARD_NS ≤ p)

/-- A counter value is a boundary of the grid in force (R50). -/
def onGrid (d : Dev) (t : Nat) : Bool :=
  ((t : Int) - d.get Reg.TICK_EPOCH) % (max 1 (d.get Reg.TICK_PERIOD_NS) : Nat) == 0

/-- TICK_CHANGE_AT_WRITE (R55): 0 cancels; otherwise the period, then the instant, is checked. -/
def tickChangeWrite (value : Nat) (d : Dev) : Dev :=
  if value = 0 then (d.set Reg.TICK_CHANGE_AT 0).set Reg.TICK_WRITE_STATUS 0
  else if ¬ periodAllowed d (d.get Reg.TICK_PERIOD_NEXT) then tickRefuse 1 d
  else if ¬ onGrid d value ∨ value < d.now + 2 * d.get Reg.TICK_PERIOD_NS then tickRefuse 2 d
  else (d.set Reg.TICK_CHANGE_AT value).set Reg.TICK_WRITE_STATUS 0

/-- The epoch and the period take their new values (R55, R664). -/
def applyPeriodChange (d : Dev) : Dev :=
  (((d.set Reg.TICK_EPOCH (d.get Reg.TICK_CHANGE_AT)).set Reg.TICK_PERIOD_NS (d.get Reg.TICK_PERIOD_NEXT)).set
    Reg.TICK_CHANGE_AT 0).raise 2 2

/-- PERIOD_CHANGE (R55): the counter is at TICK_CHANGE_AT. An instant that a step correction has passed waits for the
first tick that fires (R57). -/
def periodChangeEffect (d : Dev) : Dev :=
  if d.get Reg.TICK_CHANGE_AT ≠ 0 ∧ d.get Reg.TICK_CHANGE_AT ≤ d.now ∧ ¬ passedBy d (d.get Reg.TICK_CHANGE_AT) then
    applyPeriodChange d else d

/-- TICK_BEACON_RX (R59): a beacon that differs sets GROUP_MISMATCH and names its sender. -/
def tickBeacon (src number period epoch : Nat) (d : Dev) : Dev :=
  if number = d.get Reg.TICK_NOW ∧ period = d.get Reg.TICK_PERIOD_NS ∧ epoch = d.get Reg.TICK_EPOCH then d
  else
    let was := if d.get Reg.GROUP_MISMATCH = 1 then d.tick.mismatch else []
    (setTick { d.tick with mismatch := if was.contains src then was else was ++ [src] }
      (d.set Reg.GROUP_MISMATCH 1)).raise 2 0

/-- No cross-module work is planned with the group of a model (R59, R60). -/
def groupHeld (d : Dev) (members : List Nat) : Bool :=
  ticksLocal d || (d.get Reg.GROUP_MISMATCH == 1 && members.any d.tick.mismatch.contains)

/-! ### The meanings -/

/-- TIME_NOW_NS_READ (R41): the fraction of the same instant is latched. -/
def timeNowRead (via : Via) (d : Dev) : Dev :=
  if mayRead d via 1 then (d.set Reg.TIME_NOW_FRAC d.time.frac).emit (.regData via 0x1100 8 d.now)
  else d.emit (.regData via 0x1100 8 0)

def execTimeNowNsRead (via : Via) (s : State) : Host.Outcome State Fault Refusal := s.run (timeNowRead via)
def execTimeSrcWrite (via : Via) (word : Nat) (s : State) : Host.Outcome State Fault Refusal :=
  s.run (regGate via 1 (timeSrcWrite word))
def execPtpSyncRx (msg : SyncMsg) (s : State) : Host.Outcome State Fault Refusal := s.run (ptpSync msg)
def execPtpDelayRespRx (src : SyncSrc) (delay : Nat) (s : State) : Host.Outcome State Fault Refusal :=
  s.run (ptpDelay src delay)
def execSyncTimeout (s : State) : Host.Outcome State Fault Refusal := s.run syncTimeoutEffect
def execHoldoverExpire (s : State) : Host.Outcome State Fault Refusal := s.run holdoverExpireEffect
def execPpsInEdge (offset : Int) (s : State) : Host.Outcome State Fault Refusal := s.run (ppsEdge offset)
def execClk10mValidityChange (valid : Bool) (s : State) : Host.Outcome State Fault Refusal := s.run (clk10mChange valid)
def execPpsOutEdge (s : State) : Host.Outcome State Fault Refusal := s.run ppsOut
def execTimeSet (c : HostCmd) (s : State) : Host.Outcome State Fault Refusal :=
  s.run (hostRow 0x98 timeSetChecks timeSetApply c)
def execTickEpochWrite (via : Via) (value : Nat) (s : State) : Host.Outcome State Fault Refusal :=
  s.run (regGate via 2 (tickEpochWrite value))
def execTickGuardNsWrite (via : Via) (value : Nat) (s : State) : Host.Outcome State Fault Refusal :=
  s.run (regGate via 2 (tickGuardWrite value))
def execTickChangeAtWrite (via : Via) (value : Nat) (s : State) : Host.Outcome State Fault Refusal :=
  s.run (regGate via 2 (tickChangeWrite value))
def execPeriodChange (s : State) : Host.Outcome State Fault Refusal := s.run periodChangeEffect
def execTickBeaconRx (src number period epoch : Nat) (s : State) : Host.Outcome State Fault Refusal :=
  s.run (fromPeer src (tickBeacon src number period epoch))

end Sys2Proof.Machine
end

