-- ==== Sys2Proof/Machine/Admit.lean ====
section
/-! DEFINITION. What the seal does with steps: commits and carries of the ending tick, admission to the plan being sealed,
placement on Galleries and in Landing (spec/02: R60-R63, R67; spec/11: R357, R358, R361, R372, R380, R381; spec/17: R560,
R567). -/

namespace Sys2Proof.Machine

open Sys2Proof

/-! ### Commits at the seal (R107, R131, R136, R182) -/

/-- A step record and its continuation records (R107). -/
def stepRecords (sid step : Nat) (f : StepDone) : List Bytes :=
  let rest := f.text.drop 32
  let n := ceilDiv rest.length 48
  let fin := f.reason.isSome
  let flags := (if fin then 2 else 0) + (if n = 0 then 0 else 4) + (if f.held = 0 then 0 else 8)
  (le 8 sid ++ le 6 step ++ le 2 flags ++ le 4 f.token ++ le 2 f.text.length ++ le 1 (min 32 f.text.length) ++ le 1 f.held
    ++ le 8 f.time ++ padTo 32 (f.text.take 32))
  :: (List.range n).map fun i =>
    le 8 sid ++ le 6 step ++ le 2 ((if i + 1 = n then 0 else 4) + 16) ++ padTo 48 ((rest.drop (48 * i)).take 48)

/-- The mark that ends a batch (R107). -/
def tickMark (tick n : Nat) : Bytes := le 8 tick ++ zeros 6 ++ le 2 32 ++ le 4 n ++ zeros 44

/-- Ascending SID, then namespace. -/
def keyBefore (a b : SessKey) : Bool := decide (a.sid < b.sid) || (a.sid == b.sid && decide (a.ns < b.ns))

/-- Insert a step in ascending order of its session. -/
def stepInsert (s : Step) (l : List Step) : List Step :=
  match l with
  | [] => [s]
  | t :: r => if keyBefore s.key t.key then s :: t :: r else t :: stepInsert s r

/-- What a committed step still does at the seal: prefix blocks, its records, the APPEND's completion, and the end of the turn. -/
def sealCommit (s : Step) (d : Dev) : Dev :=
  match findDesc d s.key, s.done with
  | some x, some f =>
    let r := if x.isHome then recordBlocks x f.from_ d else (x, d)
    let d1 := putDesc r.1 r.2
    let d2 := if x.isHome then setRun { d1.run with batch := d1.run.batch ++
        [(streamSlot x, streamId x, x.sid, stepRecords x.sid s.step f)] } d1 else d1
    let d3 := match x.turn.bind (·.cmd) with
      | some m =>
        if f.last then complete m stSuccess x.ctxLen s.step [] (onDesc s.key (fun y => { y with
          turn := y.turn.map fun t => { t with cmd := none } }) d2)
        else d2
      | none => d2
    if f.reason.isSome then endTurn s.key x.ctxLen d3 else d3
  | _, _ => d

/-- Write the batch of each ring (R107). -/
def writeBatches (d : Dev) : Dev :=
  let rings := (d.run.batch.map fun b => (b.1, b.2.1)).eraseDups
  forAll rings (fun r e =>
    let recs := (d.run.batch.filter fun b => b.1 == r.1 && b.2.1 == r.2).flatMap (·.2.2.2)
    streamWrite r.1 r.2 (recs ++ [tickMark (d.get Reg.TICK_NOW) recs.length]) e) (setRun { d.run with batch := [] } d)

/-- The rewind of STOP_TRIM (R148, R304). -/
def trimRewind (s : Step) (d : Dev) : Dev :=
  match findDesc d s.key, s.done with
  | some x, some f =>
    if f.cut ∧ x.isHome then sessEvent x evRewound 3 (s.step - 1) (rewindTo s.key (s.step - 1) d) else d
  | _, _ => d

/-- The commits of the ending tick, in ascending SID order (R131, R338). -/
def commitSeal (d : Dev) : Dev :=
  let done := (d.run.steps.filter (·.committed)).foldr stepInsert []
  let d1 := writeBatches (forAll done sealCommit d)
  forAll done trimRewind (setRun { d1.run with steps := d1.run.steps.filter fun s => !s.committed } d1)

/-! ### Carries (R53, R67, R148, R380, R381) -/

/-- What waiting on a module counts as: a module without a route up, or lost, is lost (R380, R422). -/
def waitCause (d : Dev) (m : Nat) : Cause :=
  if m = d.self then .t2Late
  else if peerState d m == .lost || peerState d m == .absent || (portSet d m).isEmpty then .fabricLost else .t2Late

/-- The modules that a step waits on: owners of requests, and members whose contribution is missing. -/
def waitsOn (m : Model) (s : Step) : List Nat :=
  let gone := fun (have_ : Nat → Bool) => (m.members.zip (List.range m.group)).filterMap fun p =>
    if have_ p.2 then none else some p.1
  s.requests.map (·.owner)
  ++ (if m.group ≤ 1 ∨ s.halves = 0 then [] else gone fun i => s.shards.any fun p =>
      p.1 == (s.halves - 1) / 2 && p.2.1 == (s.halves - 1) % 2 && p.2.2.1 == i)
  ++ (if s.lists.isEmpty then [] else gone fun i => s.lists.any fun l => l.1 == i)
  ++ (if s.merged.isNone ∨ s.remainders.isEmpty then [] else gone fun i => s.remainders.any fun r => r.1 == i)
  ++ (if s.ready then m.members.filter fun k => decide (1 < m.group) && !s.votes.contains k else [])

/-- While the key rings are disabled, a wait on T2, T3 or T4 counts as a lost fabric (R614). -/
def keyCause (d : Dev) (c : Cause) : Cause :=
  if d.sec.keysOff then
    match c with
    | .t2Late => .fabricLost
    | .t3Late => .fabricLost
    | .t4Late => .fabricLost
    | .weightLate => .fabricLost
    | _ => c
  else c

/-- The causes that hold when a step is abandoned (R380). -/
def stepCauses (d : Dev) (x : Desc) (s : Step) : List Cause :=
  let own := s.causes.map (keyCause d)
  match findModel d x.model with
  | none => own
  | some m => own ++ (waitsOn m s).map (waitCause d)
    ++ (if d.run.waitWeights.contains (m.handle, s.layer) then [keyCause d .weightLate] else [])
    ++ (if restoreWaits d x ∨ copyInFlight d (descKey x) then [.copyBw] else [])

/-- The order of the stall causes, and of the others (R67, R381). -/
def causeOrder : List Cause :=
  [.stepErr, .fabricLost, .weightLate, .t4Late, .t3Late, .t2Late, .copyBw, .sync, .maint, .vcache, .fretLate]

/-- The counter of a cause (R67). -/
def causeCounter (unit : Nat) (c : Cause) : Field :=
  match c with
  | .fabricLost => Reg.STALL_FABRIC_LOST
  | .weightLate => Reg.STALL_WEIGHT_LATE
  | .t4Late => Reg.STALL_T4_LATE
  | .t3Late => Reg.STALL_T3_LATE
  | .t2Late => Reg.STALL_T2_LATE
  | .copyBw => Reg.STALL_COPY_BW
  | .sync => Reg.TICK_SYNC_CARRY
  | .maint => Reg.TICK_MAINT_CARRY
  | .vcache => Reg.TXU_VCACHE_CARRY unit
  | .fretLate => Reg.FRET_LATE_CARRY
  | .stepErr => Reg.RAS_STEP_ERR

/-- Count a carry once under its cause (R67). A step that nothing held up, and that did not complete in time, was late in the
text unit or the Fretboard, where it uses one. -/
def countCarry (x : Desc) (s : Step) (d : Dev) : Dev :=
  let held := stepCauses d x s
  let late := if s.draws ∧ x.isHome then [Cause.vcache] else if s.draws ∧ x.grammar ≠ 0 then [Cause.fretLate] else []
  let d1 := d.count Reg.TICK_CARRIED_STEPS 1
  match causeOrder.find? fun c => (if held.isEmpty then late else held).contains c with
  | some c => when (c == .weightLate) (fun e => setTick { e.tick with lastWeightLate := some e.tick.fired } e)
      (d1.count (causeCounter (x.sid % 4) c) 1)
  | none => d1

/-- A step is carried: it runs again with its number and inputs (R63, R66). -/
def carry (s : Step) (d : Dev) : Dev :=
  setRun { d.run with carried := d.run.carried ++ [⟨s.key, s.step, true, s.intake, s.attempt + 1⟩] } d

/-- An error was detected in the step: the session is rewound to its last committed step, and the step retried (R148). -/
def errorCarry (x : Desc) (s : Step) (d : Dev) : Dev :=
  let n := min 255 (x.retries + 1)
  let d1 := rewindTo s.key x.committed (onDesc s.key (fun y => { y with retries := n }) d)
  let d2 := sessEvent x evRewound 1 x.committed (d1.count Reg.RAS_STEP_ERR 1)
  if max 1 (d.get Reg.SESS_RETRY_LIMIT) ≤ n then
    enterState s.key ssStopped srStepError (endTurn s.key x.ctxLen d2)
  else carry s (d2.count Reg.TICK_CARRIED_STEPS 1)

/-- The step met an empty mask that its session takes as a failure (R310). -/
def deadStop (x : Desc) (s : Step) (d : Dev) : Dev :=
  enterState s.key ssStopped srGrammarDead (endTurn s.key x.ctxLen (sessEvent x evGrammarDead ((fretNow d x).state % 65536) s.step
    (dropStep s.key d)))

/-- What becomes of a step that has not committed at its deadline. -/
def abandon (s : Step) (d : Dev) : Dev :=
  match findDesc d s.key with
  | none => d
  | some x =>
    if s.replay then setRun { d.run with steps := d.run.steps.filter fun y => y.key != s.key } d
    else if s.error then errorCarry x s d
    else if s.dead then deadStop x s d
    else
      let d1 := countCarry x s d
      carry s (poolGive x.part s.reserve (setRun { d1.run with steps := d1.run.steps.filter fun y => y.key != s.key } d1))

/-- Every step that has not committed is abandoned at the deadline (R53); engine commands of the tick end with it. -/
def carrySeal (d : Dev) : Dev :=
  let d1 := forAll d.run.steps abandon d
  setPart { d1.part with queue := [] } (setRun { d1.run with waitWeights := [] } d1)

/-! ### Admission (R60, R61, R63, R108, R114, R361, R372, R379, R423, R560) -/

/-- Objects that a session's next step needs in T1: pages in T3 and T4, and a T2 page that it writes (R360). -/
def stepObjects (d : Dev) (x : Desc) : List Page :=
  (sessPages d x).filter fun p =>
    decide (p.tier = 3 ∨ p.tier = 4)
    || (p.tier == 2 && match openPage x with
      | some e => e.page == p.id
      | none => false)

/-- Rate at which a tier is estimated to promote, bytes per ns (R361, R389). -/
def tierRate (d : Dev) (t : Nat) : Nat :=
  max 1 (if t = 2 then d.get Reg.STW_RATE_T2 else if t = 3 then d.get Reg.STW_RATE_T3 else d.get Reg.STW_RATE_T4)

/-- Estimated time until a promotion completes: the bytes queued ahead of it and its own, at the tier's rate (R361). -/
def promoEstimate (d : Dev) (o : ObjRef) : Nat :=
  match d.tier.promos.find? fun p => p.obj == o with
  | none => 0
  | some q =>
    let ahead := d.tier.promos.takeWhile fun p => p.obj != o
    (((ahead.filter fun p => p.srcTier == q.srcTier).map (·.bytes)).sum + q.bytes) / tierRate d q.srcTier

/-- What the promotions of a step say: it is ready, waits for one that runs, or for room (R361). -/
inductive Ready where
  | ready
  | waits
  | noRoom
  deriving DecidableEq, Repr

/-- R361 for a session; `left` is the time until the next tick begins. -/
def promoReady (d : Dev) (x : Desc) (left : Nat) : Ready :=
  let objs := stepObjects d x
  if objs.isEmpty then .ready
  else if objs.any fun p => !promoting d (.page p.id) && !poolRoom d x.part (pageSize p) then .noRoom
  else if objs.all fun p => promoting d (.page p.id) && decide (promoEstimate d (.page p.id) < left) then .ready
  else .waits

/-- Time until the next tick begins. -/
def tickLeft (d : Dev) : Nat := if d.tick.running then d.tick.startLocal + d.tick.period - d.clock else 0

/-- The stream ring has room for a step's worst case of 10 records and a mark, beside the steps admitted before (R108, R300). -/
def ringHasRoom (d : Dev) (x : Desc) (used : Nat) : Bool :=
  match findRing d .stream (streamSlot x) (streamId x) with
  | some r => decide (10 * (used + 1) + 1 ≤ streamRoom r)
  | none => false

/-- The input tokens of the next step, and whether it draws (R127). -/
def nextTake (d : Dev) (x : Desc) : Nat × Bool :=
  match x.turn with
  | none => (0, true)
  | some t => if t.input.isEmpty then (0, true)
    else (min (intakeChunk d) t.input.length, t.generate && decide (t.input.length ≤ intakeChunk d))

/-- The next step is an intake step. -/
def nextIntake (x : Desc) : Bool := (x.turn.map fun t => !t.input.isEmpty || t.cmd.isSome).getD false

/-- T1 bytes that the next step can need (R372). -/
def stepNeed (d : Dev) (x : Desc) : Nat :=
  let c := if nextIntake x then intakeChunk d else 1
  appendNeed d x (c + ((x.tokens.take x.ctxLen).length - kvLen x))

/-- Why a step is not admitted, with the counter of the hold; none when it passes. -/
def holdOf (d : Dev) (x : Desc) (m : Model) (used : Nat) : Option (Option Field) :=
  if x.isHome ∧ ¬ ringsOk d x.streamRing x.eventRing then some none
  else if m.srcLost then some none
  else if x.isHome ∧ ¬ ringHasRoom d x used then some (some (Reg.HOST_STREAM_HELD (streamSlot x)))
  else match promoReady d x (tickLeft d) with
    | .noRoom => some (some Reg.STW_ADMIT_HELD)
    | .waits => some (some Reg.STW_PROMOTE_WAIT)
    | .ready => if poolRoom d x.part (stepNeed d x) then none else some (some Reg.STW_ADMIT_HELD)

/-- Admit a step: it enters the plan with its T1 reserve (R63, R372, R573). -/
def admitStep (x : Desc) (p : PlanStep) (d : Dev) : Dev :=
  let (take, draws) := nextTake d x
  let need := stepNeed d x
  let s := newStep p take draws false need
  ((setRun { d.run with
    steps := d.run.steps ++ [s]
    carried := d.run.carried.filter (fun c => c.key != p.key)
    announced := d.run.announced.filter fun a => a.1 != p.key } (poolTake x.part need d)).count
      (Reg.PART_STEPS_ADMITTED x.part) 1)

/-- Steps already admitted on the stream ring of a session. -/
def ringUsedBy (d : Dev) (x : Desc) : Nat :=
  d.run.steps.countP fun s => match findDesc d s.key with
    | some y => y.isHome && streamSlot y == streamSlot x && streamId y == streamId x
    | none => false

/-- The step a session asks for: its carried one, or the next. -/
def wantedStep (d : Dev) (x : Desc) : PlanStep :=
  match d.run.carried.find? fun c => c.key == descKey x with
  | some c => c
  | none => ⟨descKey x, x.committed + 1, false, nextIntake x, 0⟩

/-- A plan of multi-module work is not made with this model's group: ticks are local-only, or a beacon differs (R59, R60). -/
def syncHeld (d : Dev) (m : Model) : Bool := decide (1 < m.group) && groupHeld d m.members

/-- Consider one session at the seal; true when its step is admitted. -/
def considerStep (k : SessKey) (d : Dev) : Bool × Dev :=
  match findDesc d k with
  | none => (false, d)
  | some x =>
    match findModel d x.model with
    | none => (false, d)
    | some m =>
      if m.members.any (fun n => !memberPresent d n) then (false, d.count Reg.FAB_GROUP_HELD 1)
      else if syncHeld d m then
        let p := wantedStep d x
        let d1 := if ticksLocal d then (d.count Reg.TICK_SYNC_CARRY 1).count Reg.TICK_CARRIED_STEPS 1 else d
        (false, setRun { d1.run with carried := d1.run.carried.filter (fun c => c.key != k) ++
          (if ticksLocal d then [{ p with carried := true }] else d1.run.carried.filter fun c => c.key == k) } d1)
      else if modelLoading d m.handle ∨ (x.turn.bind (·.revive)) = some d.tick.fired then (false, d)
      else
        match holdOf d (untried x) m (ringUsedBy d x) with
        | some c => (false, match c with
          | some f => d.count f 1
          | none => d)
        | none =>
          let p := wantedStep d x
          let d1 := prefixStands k d
          match findDesc d1 k with
          | some y => (true, admitStep y p d1)
          | none => (true, d1)

/-- Sessions that wait for a step in a partition: ACTIVE, at home or announced by their home (R61). -/
def waiting (d : Dev) (part number : Nat) : List Desc :=
  d.sess.descs.filter fun x => x.part == part && x.state == ssActive && x.turn.isSome
    && !(d.run.steps.any fun s => s.key == descKey x)
    && (x.isHome || d.run.announced.any fun a => a.1 == descKey x && a.2.2 == number && a.2.1 == x.committed + 1)

/-- The next step of a context: ascending LAST_COMMIT, then lower SID (R560). -/
def nextOf (l : List Desc) : Option Desc :=
  l.foldl (fun (acc : Option Desc) x =>
    match acc with
    | none => some x
    | some a => if x.lastCommit < a.lastCommit ∨ (x.lastCommit = a.lastCommit ∧ keyBefore (descKey x) (descKey a)) then some x
      else some a) none

/-- The context with the lowest pv among those with waiting steps (R560). -/
def lowestPv (pv : List (Nat × Nat)) : Option (Nat × Nat) :=
  pv.foldl (fun (acc : Option (Nat × Nat)) c =>
    match acc with
    | none => some c
    | some a => if c.2 < a.2 ∨ (c.2 = a.2 ∧ c.1 < a.1) then some c else some a) none

/-- The admission loop of R560 for the steps of a partition. -/
def admitLoop (fuel part : Nat) (b : Int) (first : Bool) (pv : List (Nat × Nat)) (left : List Desc) (d : Dev) : Dev :=
  match fuel with
  | 0 => d
  | n + 1 =>
    match lowestPv (pv.filter fun c => left.any fun x => x.context % 4096 == c.1) with
    | none => d
    | some (c, v) =>
      let ctx := ctxOf d part c
      if b < ctx.est ∧ ¬ first then d.count (Reg.PART_ADMIT_HELD part) left.length
      else
        match nextOf (left.filter fun x => x.context % 4096 == c) with
        | none => d
        | some x =>
          let r := considerStep (descKey x) d
          let rest := left.filter fun y => y.index != x.index
          let pv1 := assocSet pv c (v + ctx.est * 65536 / max 1 ctx.share)
          admitLoop n part (if r.1 then b - ctx.est else b) (first && !r.1) pv1 rest r.2

/-- Galleries of a partition whose quads the plan leaves available (R560, R569). -/
def partGalleries (d : Dev) (part avail : Nat) : List Nat := quadGalleries (Nat.land (d.get (Reg.PART_QUADS part)) avail)

/-- The budget of a partition's plan, in units (R560). -/
def partBudget (d : Dev) (part avail : Nat) : Nat :=
  clampNat 10 100 (d.get (Reg.PART_FILL_PCT part)) * (d.get Reg.TICK_PERIOD_NS - d.get Reg.TICK_GUARD_NS) * 6
    * (partGalleries d part avail).length / 100

/-- The sessions of BOUND contexts that are not resident wait (R563). -/
def mayRun (d : Dev) (x : Desc) : Bool :=
  let c := ctxOf d x.part (x.context % 4096)
  !c.bound || c.residentAt.isSome

/-- Admission of one partition: carried steps first, then R560 (R63). -/
def admitPart (part number avail : Nat) (d : Dev) : Dev :=
  if (partGalleries d part avail).isEmpty then d
  else
    let ws := (waiting d part number).filter (mayRun d)
    let isCarried := fun (x : Desc) => d.run.carried.any fun c => c.key == descKey x
    let first := (d.run.carried.filterMap fun c => ws.find? fun x => descKey x == c.key)
    let d1 := forAll first (fun x e => (considerStep (descKey x) e).2) d
    let used := ((first.filter fun x => d1.run.steps.any fun s => s.key == descKey x).map fun x =>
      (ctxOf d part (x.context % 4096)).est).sum
    let left := ws.filter fun x => !isCarried x
    let pv := ((left.map fun x => x.context % 4096).eraseDups).map fun c => (c, (ctxOf d part c).vt)
    admitLoop left.length part ((partBudget d part avail : Int) - used) true pv left d1

/-- A member that has committed a step which another member carried replays it (R146). -/
def admitReplays (number : Nat) (d : Dev) : Dev :=
  forAll (d.run.announced.filter fun a => a.2.2 == number) (fun a e =>
    match findDesc e a.1 with
    | some x =>
      if x.committed = a.2.1 ∧ a.2.1 ≠ 0 ∧ ¬ e.run.steps.any (fun s => s.key == a.1) then
        let drawn := !(((x.turn.map (·.generated)).getD []).isEmpty)
        let take := x.ctxLen - x.prevCtxLen - (if drawn then 1 else 0)
        setRun { e.run with
          steps := e.run.steps ++ [newStep ⟨a.1, a.2.1, true, decide (0 < take), 1⟩ take drawn true 0]
          announced := e.run.announced.filter fun y => y.1 != a.1 } e
      else e
    | none => e) d

/-- Admission to plan `number`, with the quads available to it (R131, R560). -/
def admitSeal (number avail : Nat) (d : Dev) : Dev :=
  let d1 := forAll (List.range 8) (fun p e => admitPart p number avail e) d
  admitReplays number (forAll (d1.sess.descs.map descKey) prefixUndo d1)

/-- Turns that wait for their first step may match before the seal's commands take effect (R180, R184). -/
def matchSeal (d : Dev) : Dev := forAll (d.sess.descs.map descKey) prefixTry d

/-! ### Placement (R357, R358, R567) -/

/-- KV bytes that a Gallery's slice holds. -/
def landingBytes (d : Dev) (g : Nat) : Nat := ((d.kv.pages.filter fun p => p.t0 == some g).map pageSize).sum

/-- The session's Gallery (R567); `old` are the pages that lay in Landing slices before the seal. -/
def chooseGallery (d : Dev) (old : List Page) (x : Desc) (avail : Nat) : Option Nat :=
  let c := ctxOf d x.part (x.context % 4096)
  let e := if c.bound then quadGalleries (Nat.land c.quadSet avail) else partGalleries d x.part avail
  let held := (openPage x).bind fun p => (old.find? fun q => q.id == p.page).bind (·.t0)
  match held with
  | some g => if e.contains g then some g else least e
  | none => least e
where
  /-- The Gallery on the home die with the fewest KV bytes placed. -/
  least (e : List Nat) : Option Nat :=
    let die := ((fullestStack (sessPages d x)).map (· / 4)).getD 0
    let on := e.filter fun g => g / 64 == die
    (if on.isEmpty then e else on).foldl (fun (acc : Option Nat) g =>
      match acc with
      | none => some g
      | some a => if landingBytes d g < landingBytes d a then some g else some a) none

/-- The open page and the short page before it (R357). -/
def landingPages (x : Desc) : List Nat :=
  match x.table.reverse with
  | e :: r =>
    if e.cls ≠ 4 ∨ 16 ≤ e.valid then []
    else e.page :: (match r with
      | f :: _ => if f.cls = 4 then [f.page] else []
      | [] => [])
  | [] => []

/-- Bytes of KV pages that a Gallery's Landing slice holds at most: the pages that its resident context has pinned leave the
rest (R357, R552). -/
def landingLimit (d : Dev) (g : Nat) : Nat :=
  let pins := (d.part.ctxs.filter fun c => c.bound && c.residentAt.isSome && bitAt c.quadSet (g / 4)).map (·.pinKib)
  min (3072 - (pins.max?).getD 0) (d.get Reg.STW_LANDING_KV_KIB) * 1024

/-- Place the pages of the plan's sessions in batch order (R357, R567); pages no longer placed are written back (R358). -/
def placeSeal (avail : Nat) (d : Dev) : Dev :=
  let old := d.kv.pages.filter fun p => p.t0.isSome && !p.pinned
  let d0 := setKv { d.kv with pages := d.kv.pages.map fun p => if p.pinned then p else { p with t0 := none } }
    (setPart { d.part with placed := [] } d)
  let d1 := forAll (d.run.steps.map (·.key)) (fun k e =>
    match findDesc d k with
    | none => e
    | some x =>
      match chooseGallery e old x avail with
      | none => e
      | some g =>
        forAll (landingPages x) (fun id e1 =>
          match findPage e1 id with
          | some p =>
            if p.tier = 1 ∧ p.t0.isNone ∧ landingBytes e1 g + pageSize p ≤ landingLimit e1 g then putPage { p with t0 := some g } e1
            else e1
          | none => e1) (setPart { e.part with placed := e.part.placed ++ [(k, g)] } e)) d0
  forAll (old.filter fun p => ((findPage d1 p.id).map (·.t0.isNone)).getD false) (fun p e =>
    copyStart 1 (.writeBack (.page p.id)) (pageSize p) e) d1

/-! ### Pressure (R371) -/

/-- Bytes that parking a session would free in T1. -/
def parkBytes (d : Dev) (x : Desc) : Nat := (((sessPages d x).filter fun p => p.tier == 1 && p.count == 1).map pageSize).sum

/-- Park STOPPED and WAITING sessions in ascending LAST_COMMIT order until the demotions ordered reach twice STW_T1_LOW. -/
def pressureLoop (fuel freed : Nat) (d : Dev) : Dev :=
  match fuel with
  | 0 => d
  | n + 1 =>
    if 2 * d.get Reg.STW_T1_LOW ≤ d.get Reg.STW_T1_FREE + freed then d
    else
      match nextOf (d.sess.descs.filter fun x => x.isHome && (x.state == ssStopped || x.state == ssWaiting)) with
      | none => d
      | some x =>
        pressureLoop n (freed + parkBytes d x) ((parkSession (descKey x) true d).count Reg.STW_PRESSURE_PARKS 1)

/-- Pressure parks at a seal; T1_LOW is posted when the free bytes first fall below the watermark (R371). -/
def pressureSeal (d : Dev) : Dev :=
  let free := d.get Reg.STW_T1_FREE
  if d.get Reg.STW_T1_LOW ≤ free then setTier { d.tier with lowSeen := false } d
  else
    let d1 := if d.tier.lowSeen then d
      else postAdmins none evT1Low (min 0xFFFFFFFF (free / 1048576)) (setTier { d.tier with lowSeen := true } d)
    pressureLoop d1.sess.descs.length 0 d1

end Sys2Proof.Machine
end

