-- ==== Sys2Proof/Machine/StepRows.lean ====
section
/-! DEFINITION. The plan entries that run steps, and the messages and copies that steps wait for (spec/02, spec/04, spec/06 to
spec/08, spec/11). -/

namespace Sys2Proof.Machine

open Sys2Proof

/-- The argument of an action is compared with the plan's: an address that the device chose is not (R65). -/
def argNamed (a : Nat) : Bool := a != actBatchStart && a != actPromote && a != actCalibrate

/-- The running plan holds an entry (R62, R65). -/
def planHas (d : Dev) (e : PlanEntry) : Bool :=
  d.tick.running && match d.tick.plan with
    | none => false
    | some p => p.entries.any fun q => q.action == e.action && q.unitClass == e.unitClass && q.first == e.first
        && q.last == e.last && (!argNamed e.action || q.arg == e.arg)

/-- An entry of the plan launches at its offset (R29, R50). -/
def launch (action : Nat) (e : PlanEntry) (f : Dev → Dev) (d : Dev) : Dev :=
  if e.action = action ∧ planHas d e then f (d.emit (.launch (d.tick.start + e.offset) e)) else d

/-- The stall cause of an object whose promotion is not complete (R362). -/
def promoCause (d : Dev) (p : Page) : Cause :=
  let t := match d.tier.promos.find? fun q => q.obj == .page p.id with
    | some q => q.srcTier
    | none => p.tier
  if t = 4 then .t4Late else if t = 3 then .t3Late else .t2Late

/-- A unit that the session's step needs is under maintenance in the running tick (R72). -/
def maintHolds (d : Dev) (x : Desc) : Bool :=
  match d.tick.plan with
  | none => false
  | some p => p.maint && d.tick.maintNow.any fun r =>
      ((r.kind == 3 && sessGallery d (descKey x) / 4 == r.sub)
        || (r.kind == 1 && (sessPages d x).any fun q => q.tier == 1 && q.stack == r.unit))

/-- A step of the batch starts, unless a unit it needs is under maintenance, or an object it needs has not reached T1 (R37,
R72, R362). -/
def startStep (k : SessKey) (d : Dev) : Dev :=
  match findDesc d k with
  | none => d
  | some x =>
    if maintHolds d x then addCause k .maint d
    else match stepObjects d x with
    | [] => onStep k (fun s => { s with started := true }) d
    | objs => forAll (objs.map (promoCause d)) (addCause k) d

/-- BATCH_START (R32). -/
def batchStart (d : Dev) : Dev :=
  if d.tick.sealed then d
  else forAll ((d.run.steps.filter fun s => !s.started).map (·.key)) startStep d

/-- LAYER_START (R32, R218, R378, R417). -/
def layerStart (l : Nat) (d : Dev) : Dev :=
  if d.tick.sealed then d
  else
    let d1 := setRun { d.run with steps := d.run.steps.map fun s =>
      if s.reach = l then { s with reach := l + 1 } else s } d
    forAll (d1.run.steps.map (·.key)) advance (pushLayer l d1)

/-- Every running step goes on with what it waited for. -/
def advanceAll (d : Dev) : Dev := forAll (d.run.steps.map (·.key)) advance d

/-- STEP_ANNOUNCE_RX (R61, R146): the step enters the plan of its tick unless that plan is sealed already. -/
def stepAnnounceRx (k : SessKey) (step tick : Nat) (d : Dev) : Dev :=
  let now := d.get Reg.TICK_NOW
  if tick = now ∨ (d.tick.sealed ∧ tick = (now + 1) % two64) then d
  else setRun { d.run with announced := (k, step, tick) :: d.run.announced.filter fun a => a.1 != k } d

/-- The home announces a session's next step of a multi-module group before the preceding deadline (R61). -/
def announce (x : Desc) (step tick : Nat) (d : Dev) : Dev :=
  match findModel d x.model with
  | none => d
  | some m => if x.isHome ∧ 1 < m.group ∧ ¬ ticksLocal d then
      sendAll (others d m) (.announce (descKey x) step (tick % two64)) d else d

/-- The next step of a session that has committed, while its turn goes on, and of one that has none in the running plan. -/
def announceNext (k : SessKey) (d : Dev) : Dev :=
  match findDesc d k with
  | none => d
  | some x => if x.state = ssActive then announce x (x.committed + 1) (d.get Reg.TICK_NOW + 1) d else d

/-- STEP_COMMIT with the announcement of the step that follows (R53, R61). -/
def commitRow (k : SessKey) (d : Dev) : Dev :=
  let d1 := stepCommit k d
  let was := ((findStep d k).map (·.committed)).getD true
  let is := ((findStep d1 k).map (·.committed)).getD false
  if is ∧ ¬ was then announceNext k d1 else d1

def execBatchStart (e : PlanEntry) (s : State) : Host.Outcome State Fault Refusal :=
  s.run (launch actBatchStart e batchStart)
def execLayerStart (e : PlanEntry) (s : State) : Host.Outcome State Fault Refusal :=
  s.run (launch actLayerStart e (layerStart e.arg))
def execStepAnnounceRx (src : Nat) (key : SessKey) (step tick : Nat) (s : State) : Host.Outcome State Fault Refusal :=
  s.run (fromPeer src (stepAnnounceRx key step tick))
def execCommitVoteRx (src : Nat) (key : SessKey) (step : Nat) (s : State) : Host.Outcome State Fault Refusal :=
  s.run (fromPeer src (voteRx src key step))
def execStepCommit (key : SessKey) (s : State) : Host.Outcome State Fault Refusal := s.run (commitRow key)
def execPattnResponseRx (src : Nat) (body : Bytes) (s : State) : Host.Outcome State Fault Refusal :=
  s.run (fromPeer src (pattnResponseRx src body))
def execAllreducePartialRx (src : Nat) (key : SessKey) (step layer half : Nat) (elems : List Nat) (s : State) :
    Host.Outcome State Fault Refusal := s.run (fromPeer src (partialRx src key step layer half elems))
def execAllgatherShardRx (src : Nat) (key : SessKey) (step layer half : Nat) (elems : List Nat) (s : State) :
    Host.Outcome State Fault Refusal := s.run (fromPeer src (shardRx src key step layer half elems))
def execPeerListRx (src : Nat) (key : SessKey) (step : Nat) (entries : List (Nat × Int)) (s : State) :
    Host.Outcome State Fault Refusal := s.run (fromPeer src (peerListRx src key step entries))
def execRemainderMsgRx (src ns : Nat) (body : Bytes) (s : State) : Host.Outcome State Fault Refusal :=
  s.run (fromPeer src (remainderRx src ns body))
def execWeightWindowFill (model layer : Nat) (s : State) : Host.Outcome State Fault Refusal :=
  s.run fun d => advanceAll (weightFill model layer d)
def execBiResponseRx (slot line : Nat) (dirty : Option Bytes) (s : State) : Host.Outcome State Fault Refusal :=
  s.run fun d =>
    let d1 := biResponse slot line dirty d
    forAll (d1.run.steps.map (·.key)) tryCommit d1
def execContextRestoreDone (part ctx gallery : Nat) (s : State) : Host.Outcome State Fault Refusal :=
  s.run fun d => advanceAll (contextRestoreDone part ctx gallery d)

end Sys2Proof.Machine
end

