-- ==== Sys2Proof/Machine/FabMem.lean ====
section
/-! DEFINITION. Routing tables, peers, the loss of a peer, and copies of pool objects (spec/12: R397-R401, R410-R415, R419-R425). -/

namespace Sys2Proof.Machine

open Sys2Proof

/-- Fabric status codes (R427). -/
def stFabricOff : Nat := 0x0400
def stRouteInvalid : Nat := 0x0401
def stRouteStale : Nat := 0x0402
def stPeerUnknown : Nat := 0x0403
def stPeerLost : Nat := 0x0404
def stAddrInvalid : Nat := 0x0405
def stDenied : Nat := 0x0406
def stExportRange : Nat := 0x0408
def stMalformed : Nat := 0x0409
def stPeerFenced : Nat := 0x040A
def stReadError : Nat := 0x040B

/-- The code of a command whose transaction completes with a status (R403, R427). -/
def fabCode (status : Nat) : Nat :=
  match status with
  | 0 => stSuccess
  | 1 => stAddrInvalid
  | 2 => stDenied
  | 3 => stExportFull
  | 4 => stPeerFenced
  | 5 => stReadError
  | _ => stMalformed

/-! ### The routing table (R398, R399) -/

/-- Bytes of a routing table. -/
def routeBytes : Nat := 16576

/-- Module entry `m` of a table. -/
def routeEntOf (b : Bytes) (m : Nat) : RouteEnt :=
  let at_ := 64 + 16 * m
  let fl := byteAt b (at_ + 4)
  { module_ := m
    routeA := fieldAt b at_ 2
    routeB := fieldAt b (at_ + 2) 2
    present := bitAt fl 0
    self := bitAt fl 1
    spare := bitAt fl 2
    flashCopy := bitAt fl 3
    hopsA := byteAt b (at_ + 5)
    hopsB := byteAt b (at_ + 6)
    fdom := byteAt b (at_ + 7) }

/-- A reserved field of module entry `m` is not zero. -/
def routeEntResv (b : Bytes) (m : Nat) : Bool :=
  decide (16 ≤ byteAt b (64 + 16 * m + 4)) || fieldAt b (64 + 16 * m + 8) 8 != 0

/-- The module entries of a table that are not all zero. -/
def routeEntries (b : Bytes) : List RouteEnt :=
  ((List.range 1024).filter fun m => fieldAt b (64 + 16 * m) 16 != 0).map (routeEntOf b)

/-- Pool list entry `i` as stored. -/
def poolEntry (b : Bytes) (i : Nat) : Nat := fieldAt b (16448 + 2 * i) 2

/-- A table as its bytes give it. -/
def routeTableOf (b : Bytes) : RouteTable :=
  ⟨fieldAt b 8 8, routeEntries b, (List.range (fieldAt b 16 2)).map fun i => poolEntry b i % 1024⟩

/-- PRESENT entries of a table. -/
def presentIn (t : RouteTable) : List RouteEnt := t.entries.filter (·.present)

/-- Two lists of pool owners name no module twice. -/
def noRepeat (l : List Nat) : Bool := decide (l.eraseDups.length = l.length)

/-- A table breaks R399. -/
def routeBad (d : Dev) (b : Bytes) : Bool :=
  let t := routeTableOf b
  let selfs := t.entries.filter (·.self)
  let mine := ((selfs.head?).map (·.module_)).getD 0
  let peers := (presentIn t).filter fun e => !e.self
  fieldAt b 0 4 != 0x4E525854 || fieldAt b 4 2 != 1 || fieldAt b 6 2 != 0 || !allZero ((b.drop 18).take 46)
  || decide (64 < fieldAt b 16 2)
  || (List.range 1024).any (routeEntResv b) || (List.range 64).any (fun i => decide (1024 ≤ poolEntry b i))
  || selfs.length != 1 || !(selfs.all (·.present)) || (routed d && mine != d.self)
  || peers.any (fun e => e.routeA == 0)
  || t.pool.any (fun m => m == mine || !(peers.any fun e => e.module_ == m && !e.spare)) || !noRepeat t.pool
  || (decide (257 ≤ (presentIn t).length) && peers.any fun e => e.routeB == 0 || Nat.land e.routeA e.routeB != 0)

/-- ROUTE_LOAD: LEN_A is the length of a table. -/
def routeLoadChecks (_ : Dev) (m : Cmd) : List (Bool × Nat) := [(m.c.lenA != routeBytes, stInvalidField)]

/-- ROUTE_LOAD (R399): the table waits for the start of the tick whose plan it enters. -/
def routeLoadApply (m : Cmd) (d : Dev) : Dev :=
  let b := padTo routeBytes m.c.dataA
  let t := routeTableOf b
  guarded m [(routeBad d b, stRouteInvalid), (routed d && decide (t.gen ≤ d.get Reg.FAB_ROUTE_GEN), stRouteStale)] (fun e =>
    complete m stSuccess t.gen 0 [] (setFab { e.fab with nextTable := some (t, (e.get Reg.TICK_NOW + 1) % two64) } e)) d

/-- EXPORT_SET: the window is at most 256 GiB. -/
def exportSetChecks (_ : Dev) (m : Cmd) : List (Bool × Nat) := [(decide (256 < argAt m.c 48 2), stInvalidField)]

/-- EXPORT_SET (R397). -/
def exportSetApply (m : Cmd) (d : Dev) : Dev :=
  let old := d.get Reg.FAB_EXPORT_GIB
  let new_ := argAt m.c 48 2
  let more := (new_ - old) * 2 ^ 30
  guarded m
    [(!poolRoom d 8 more, stExportFull),
     (d.fab.extents.any (fun x => !x.flash && decide (new_ * 2 ^ 30 < x.base + x.len)), stExportRange)] (fun e =>
    complete m stSuccess 0 0 [] ((poolTake 8 more (poolGive 8 ((old - new_) * 2 ^ 30) e)).set Reg.FAB_EXPORT_GIB new_)) d

/-! ### Copies (R410-R415) -/

/-- The object's view with its copies in other modules: those in T2, or the extents of a region page and a flash copy, whose
copy 0 this module holds itself. -/
def remoteCopies (d : Dev) (v : ObjView) : List Nat :=
  if v.tier = 2 then copyLocs d v.loc v.copies v.copyIndex
  else if v.backTier = 2 then copyLocs d v.backLoc v.copies v.copyIndex
  else (copyLocs d v.loc v.copies v.copyIndex).drop 1

/-- Copy 0 of the object lies in another module. -/
def copy0Away (v : ObjView) : Bool := v.tier == 2 || v.backTier == 2

/-- Record the copies of an object in order, copy 0 first, in LOC and a copy table entry (R412). -/
def putCopies (o : ObjRef) (got : List (Nat × Nat)) (d : Dev) : Dev :=
  match objView d o with
  | none => d
  | some v =>
    let d1 := if v.copies ≤ 1 then d else setFab { d.fab with copytab := d.fab.copytab.filter fun c => c.idx != v.copyIndex } d
    let (loc, n, idx, d2) := recordCopies got d1
    setObj o { v with
      loc := if v.tier = 2 then loc else v.loc
      backLoc := if v.tier ≠ 2 ∧ v.backTier = 2 then loc else v.backLoc
      copies := n
      copyIndex := idx } d2

/-- The copies of an object, copy 0 first, as owner and address. -/
def copyList (d : Dev) (v : ObjView) : List (Nat × Nat) :=
  (if copy0Away v then [] else [(d.self, v.loc)]) ++ (remoteCopies d v).map fun a => (addrModule a, a)

/-- Surplus copies are freed from the highest index down (R415). -/
def trimCopies (o : ObjRef) (d : Dev) : Dev :=
  match objView d o with
  | none => d
  | some v =>
    let f := if v.tier = 4 ∨ v.backTier = 4 then d.get Reg.FAB_COPY_T4 else d.get Reg.FAB_COPY_T2
    let all := copyList d v
    if all.length ≤ f then d
    else forAll (all.drop f) (fun c e => sendFree c.2 v.keySlot e) (putCopies o (all.take f) d)

/-- The order of repair: pages by PAGE_ID, then granules (R415). -/
def repairRank (o : ObjRef) : Nat × Nat :=
  match o with
  | .page id => (0, id)
  | .granule part idx => (1, part * 2 ^ 40 + idx)

/-- One object comes before another in the order of repair. -/
def repairBefore (a b : ObjRef) : Bool :=
  decide ((repairRank a).1 < (repairRank b).1)
  || ((repairRank a).1 == (repairRank b).1 && decide ((repairRank a).2 < (repairRank b).2))

/-- The object is below its factor. -/
def objBelow (d : Dev) (o : ObjRef) : Bool :=
  match objView d o with
  | none => false
  | some v => belowFactor d v.tier v.backTier v.copies (match o with
    | .page id => regionShared d id
    | .granule _ _ => false)

/-- A repair of the object is running. -/
def repairing (d : Dev) (o : ObjRef) : Bool :=
  (d.fab.placing.any fun p => p.what == .repair o) || d.fab.txns.any fun t => t.use == .repairRead o

/-- A placement that adds to copies that exist already (R411). -/
def placeMore (what : PlaceWhat) (have_ : List (Nat × Nat)) (need : Nat) (flash : Bool) (tc keySlot : Nat)
    (scratch shared : Bool) (data : Bytes) (d : Dev) : Bool × Dev :=
  let id := d.fab.nextPlace
  let p : Placing := ⟨id, what, need, have_, none, [], false, flash, tc, keySlot, scratch, shared, data⟩
  placeNext id (setFab { d.fab with
    placing := d.fab.placing ++ [p]
    nextPlace := id + 1 } d)

/-- The copies that a repair adds are placed in TC7 (R411, R415). -/
def repairPlace (o : ObjRef) (d : Dev) : Dev :=
  match objView d o with
  | none => d
  | some v =>
    let flash := !copy0Away v && (v.tier == 4 || v.backTier == 4)
    let f := if flash then d.get Reg.FAB_COPY_T4 else d.get Reg.FAB_COPY_T2
    let have_ := copyList d v
    let shared := match o with
      | .page id => regionShared d id
      | .granule _ _ => false
    let (ok, d1) := placeMore (.repair o) have_ (f - have_.length) flash 7 v.keySlot false shared (objBytes d o) d
    if ok then d1 else setFab { d1.fab with placing := d1.fab.placing.filter fun p => p.what != .repair o } d1

/-- REPAIR_COPY (R415): the copying of an object below its factor starts: its bytes are read in TC7 from a copy, unless this
module holds them itself. Objects are taken in the order of R415. -/
def repairCopy (o : ObjRef) (d : Dev) : Dev :=
  let ready := fun q => objBelow d q && !repairing d q
  if ¬ ready o ∨ (allObjs d).any (fun q => ready q && repairBefore q o) then d
  else
    match objView d o with
    | none => d
    | some v =>
      if v.tier = 2 then
        match readCopy d o (remoteCopies d v) with
        | some a => readObject (.repairRead o) 7 a v.bytes v.keySlot d
        | none => d
      else repairPlace o d

/-- A page of a published region is put into a SHARED extent, with copies in other modules (R419). -/
def shareRegionPage (id : Nat) (d : Dev) : Dev :=
  if regionShared d id ∨ ¬ routed d then d
  else
    match findPage d id with
    | none => d
    | some p => (extentPut p.keySlot false true id (pageImage d p) d).2

/-- Every page of a current region is shared while there is room. -/
def shareRegions (d : Dev) : Dev :=
  forAll ((d.sess.regions.filter (·.current)).flatMap (·.pages)) shareRegionPage d

/-! ### The loss of a peer (R423, R425) -/

/-- Send a READ, or a request for remote attention, again to another copy with a new TAG and the same ATTEMPT (R423). -/
def reissue (o : TxnOut) (addr : Nat) (d : Dev) : Dev :=
  let t := o.txn
  let tag := d.fab.nextTag % 2 ^ 32
  let d1 := setFab { d.fab with
    txns := d.fab.txns.erase o
    nextTag := d.fab.nextTag + 1 } d
  let (body, d2) : Bytes × Dev := match o.use with
    | .pattn k _ =>
      (t.payload.take 4 ++ le 4 tag ++ t.payload.drop 8,
       onStep k (fun s => { s with requests := s.requests.map fun r =>
         if r.tag == t.tag && r.owner == t.dst then
           { r with
             tag := tag
             owner := addrModule addr }
         else r }) d1)
    | _ => (t.payload, d1)
  sendReq o.use { t with
    tag := tag
    dst := addrModule addr
    addr := addr
    hops := routeHops d2 (addrModule addr)
    payload := body } d2

/-- A page or granule has lost its only copy (R148, R375, R382): it falls back to a backing copy, or its sessions go back, or
the granule is LOST. -/
def objLost (o : ObjRef) (d : Dev) : Dev :=
  match objView d o with
  | none => d
  | some v =>
    if v.backTier ≠ noTier ∧ v.backTier ≠ v.tier then setObj o { v with
      tier := v.backTier
      loc := v.backLoc
      backTier := noTier
      backLoc := 0
      copies := 1 } (promoteDrop o d)
    else
      match o with
      | .page id => pagesLost [id] (promoteDrop o d)
      | .granule p i =>
        match findGranule d p i with
        | some g => putGranule { g with lost := true } (promoteDrop o d)
        | none => d

/-- The copies of an object on a module are gone (R423, R425). -/
def dropOwner (lost : Nat) (o : ObjRef) (d : Dev) : Dev :=
  match objView d o with
  | none => d
  | some v =>
    let all := copyList d v
    let left := all.filter fun c => c.1 != lost
    if left.length = all.length then d
    else
      let d1 := setFab { d.fab with placing := d.fab.placing.map fun p =>
        if p.what = PlaceWhat.repair o then { p with got := p.got.filter (fun c => c.1 != lost) } else p } d
      if ¬ left.isEmpty then putCopies o left d1
      else if v.tier = 2 then
        objLost o (forAll (d1.fab.placing.filter fun p => p.what == .repair o)
          (fun p e => endPlacing p.id (forAll (p.got.map (·.2)) (fun a e2 => sendFree a v.keySlot e2) e)) d1)
      else setObj o { v with
        backTier := noTier
        backLoc := 0
        copies := 1 } d1

/-- Where a lost READ of an object continues: the same bytes of the next copy. -/
def nextCopyAddr (d : Dev) (o : ObjRef) (addr : Nat) : Option Nat :=
  match objView d o with
  | none => none
  | some v =>
    match (remoteCopies d v).find? fun a => addrModule a == addrModule addr && decide (a ≤ addr ∧ addr < a + v.bytes) with
    | none => none
    | some a => (readCopy d o ((remoteCopies d v).filter fun b => b != a)).map fun b => b + (addr - a)

/-- The copy that a remote attention request goes to next. -/
def nextPattn (d : Dev) (k : SessKey) (t : FabTxn) : Option Nat :=
  match findStep d k with
  | none => none
  | some s =>
    match s.requests.find? fun r => r.tag == t.tag && r.owner == t.dst with
    | none => none
    | some r =>
      match (r.pages.head?).bind (findPage d) with
      | none => none
      | some p => readCopy d (.page p.id) ((copyLocs d p.loc p.copies p.copyIndex).filter fun a => addrModule a != t.dst)

/-- Where an outstanding READ or remote attention request may be sent again. -/
def otherCopy (d : Dev) (o : TxnOut) : Option Nat :=
  match o.use with
  | .promote obj => nextCopyAddr d obj o.txn.addr
  | .repairRead obj => nextCopyAddr d obj o.txn.addr
  | .pattn k _ => nextPattn d k o.txn
  | _ => none

/-- Requests of a use to a module leave the list of those outstanding. -/
def dropReqs (use : TxnUse) (dst : Nat) (d : Dev) : Dev :=
  setFab { d.fab with
    txns := d.fab.txns.filter fun o => !(o.use == use && o.txn.dst == dst)
    waiting := d.fab.waiting.filter fun o => !(o.use == use && o.txn.dst == dst) } d

/-- A placement found no owner for its next copy (R367, R411, R426). -/
def placeUnplaced (p : Placing) (status : Nat) (d : Dev) : Dev :=
  match p.what with
  | .demote o => demoteUnplaced o d
  | .repair _ => endPlacing p.id d
  | .ckpt model => captureFail model (if status = stPeerLost then stCkptAborted else stCkptStoreFull) d
  | .put m =>
    let mine := p.got.filter fun c => c.1 == d.self
    let d1 := forAll (p.got.filter fun c => c.1 != d.self) (fun c e => sendFree c.2 p.keySlot e) (endPlacing p.id d)
    failWith m status (forAll (mine.filterMap fun c => extentOf d1 false (addrOffset c.2)) extentFree d1)

/-- The owner that a placement was trying is out: the next one is tried (R411, R425). A copy 0 whose owner EXTENT_PUT named
has no next one. -/
def placeOut (id status : Nat) (d : Dev) : Dev :=
  match findPlacing d id with
  | none => d
  | some p =>
    let dst := (p.cur.map (·.1)).getD d.self
    let d0 := dropReqs (.place id) dst d
    let d1 := match p.cur with
      | some (m, some a) => if peerState d m = .present then sendFree a p.keySlot d0 else d0
      | _ => d0
    let fixed := match p.what with
      | .put _ => p.got.isEmpty
      | .ckpt _ => true
      | _ => false
    if fixed then placeUnplaced p status d1
    else
      let (ok, d2) := placeFailed id d1
      if ok then d2
      else
        match findPlacing d2 id with
        | none => d2
        | some q => placeUnplaced q stExportFull d2

/-- A MIGRATE is abandoned: the home stays the source (R148, R425). -/
def migrateAbandon (k : SessKey) (status : Nat) (d : Dev) : Dev :=
  match findDesc d k with
  | none => d
  | some x =>
    if x.state ≠ ssMigrating then d
    else
      let d1 := pushStop k (putDesc { x with
        state := x.migrFrom
        migrWait := []
        migrCmd := none } d)
      match x.migrCmd with
      | some m => if d.fab.pushOut.any fun p => p.key == k && !p.opened then failWith m status d1 else d1
      | none => d1

/-- A load that waits for a module that is lost completes with PEER_LOST. -/
def loadLost (w : LoadWork) (d : Dev) : Dev :=
  match w.cmd with
  | some m => failWith m stPeerLost (loadDrop w d)
  | none => d

/-- An outstanding transaction to a lost module: sent again to the next copy, or failed as lost (R423). -/
def reqLost (o : TxnOut) (d : Dev) : Dev :=
  match otherCopy d o with
  | some a => reissue o a d
  | none =>
    let d1 := setFab { d.fab with
      txns := d.fab.txns.erase o
      waiting := d.fab.waiting.erase o } d
    match o.use with
    | .place id => if (findPlacing d1 id).any (fun p => (p.cur.map (·.1)).getD d1.self == o.txn.dst) then placeOut id stPeerLost d1 else d1
    | .nmOp m => failWith m stPeerLost d1
    | .free (some m) => failWith m stPeerLost d1
    | .push k => migrateAbandon k stPeerLost d1
    | .load k h mo =>
      match d1.text.loads.find? fun w => w.kind == k && w.handle == h && w.model == mo with
      | none => d1
      | some w => loadLost w d1
    | .pattn k _ => addCause k .fabricLost d1
    | _ => d1

/-- A peer enters LOST: the actions of R423 in its order. -/
def peerLost (m : Nat) (byCommand : Bool) (d : Dev) : Dev :=
  let d0 := postAdmins none evPeerLost (m + if byCommand then 1024 else 0) ((setPeer m .lost d).count Reg.FAB_PEERS_LOST 1)
  let d1 := forAll (d0.fab.waiting.filter fun o => o.txn.dst == m) reqLost
    (forAll (d0.fab.txns.filter fun o => o.txn.dst == m) reqLost d0)
  let d2 := forAll (allObjs d1) (dropOwner m) d1
  let d3 := sourcesLost (fun x => x.srcTier == 2 && addrModule x.src == m) d2
  let d4 := forAll (d3.tier.models.filter fun x => x.members.contains m) (fun x e =>
    forAll (slotNumbers.filter (slotAdmin e)) (fun n e2 => postEvent n 0 evGroupMemberLost m x.handle 0 0 e2) e) d3
  let d5 := forAll (d4.fab.forwards.filter fun f => f.2.1 == m) (fun f e => failWith f.2.2 stPeerLost (setFab { e.fab with
    forwards := e.fab.forwards.erase f
    pushOut := e.fab.pushOut.filter fun p => p.fwd.all fun q => q.1 != f.1 } e)) d4
  let d6 := forAll (d5.fab.extents.filter fun x => x.allocator == m && !x.shared) extentFree d5
  let d7 := forAll ((d6.sess.descs.filter fun x => x.state == ssMigrating && (x.migrHome == m || x.migrWait.contains m)).map descKey)
    (fun k e => migrateAbandon k stPeerLost e) d6
  let d8 := forAll (d7.text.loads.filter fun w => w.wait.contains m) loadLost d7
  ckptSettle (storeLost (fun k t => k == 1 && t == m) (pushSrcLost m d8))

/-! ### A table takes effect (R399, R410, R415, R421) -/

/-- The peer states that a new table gives (R421). -/
def peersOf (t : RouteTable) (d : Dev) : Dev :=
  let listed := ((presentIn t).filter fun e => !e.self).map (·.module_)
  let d1 := forAll listed (fun m e =>
    match e.fab.peers.find? fun p => p.module_ == m with
    | none => setPeer m .present e
    | some p =>
      if p.state = .lost then
        if p.lostGen < t.gen then postAdmins none evPeerReturned m (setPeer m .present e) else e
      else if p.state = .absent then setPeer m .present e
      else e) d
  forAll ((d1.fab.peers.filter fun p => (p.state == .present || p.state == .suspect) && !listed.contains p.module_).map
    (·.module_)) (fun m e => peerLost m false e) d1

/-- The push region is taken from the pool once, when the module joins a fabric (R393). -/
def takePush (d : Dev) : Dev :=
  if d.fab.pushTaken ∨ ¬ poolRoom d 8 (2 ^ 30) then d
  else
    let (a, d1) := poolAlloc 8 (2 ^ 30) d
    (setFab { d1.fab with pushTaken := true } d1).set Reg.FAB_PUSH_BASE a

/-- A routing table takes effect (R399). -/
def routeApply (t : RouteTable) (d : Dev) : Dev :=
  let n := (presentIn t).length
  let self := (((t.entries.filter (·.self)).head?).map (·.module_)).getD 0
  let d1 := ((((((setFab { d.fab with
      table := some t
      nextTable := none } d).set Reg.FAB_SELF self).set Reg.FAB_ROUTED 1).set Reg.FAB_MODULES n).set
    Reg.FAB_ROUTE_GEN t.gen).set Reg.FAB_COPY_T2 (if n ≤ 16 then 1 else if n ≤ 256 then 2 else 3)).set
    Reg.FAB_COPY_T4 (if n ≤ 256 then 1 else 2)
  let d2 := peersOf t (takePush (postAdmins none evRouteApplied (t.gen % 2 ^ 32) d1))
  let stop := d2.fab.placing.filter fun p => match p.what with
    | .repair o => !objBelow d2 o
    | _ => false
  let d3 := forAll stop (fun p e => endPlacing p.id e) d2
  peersRecheck (forAll (allObjs d3) trimCopies d3)

/-- A waiting table takes effect at the start of its tick. -/
def routeTick (d : Dev) : Dev :=
  match d.fab.nextTable with
  | none => d
  | some (t, _) => routeApply t d

end Sys2Proof.Machine
end

