-- ==== Sys2Proof/Machine/FabRx.lean ====
section
/-! DEFINITION. Fabric commands, received frames and completions, timeouts and probes (spec/12: R400, R402-R405, R411, R415-R418,
R421, R426). -/

namespace Sys2Proof.Machine

open Sys2Proof

/-! ### Commands (R426) -/

/-- The tenant key slot of the slot that issued a command. -/
def slotKey (d : Dev) (m : Cmd) : Nat := d.get (Reg.SLOT_KEY m.c.slot)

/-- Fabric codes of a command that acts on a module: this one needs a table, another one must be reached. -/
def moduleCodes (d : Dev) (dst : Nat) : List (Bool × Nat) :=
  if dst = d.self then [(!routed d, stFabricOff)] else reachCodes d dst

/-- The extent that a command put is recorded (R610, R618). -/
def putDone (m : Cmd) (got : List (Nat × Nat)) (d : Dev) : Dev :=
  match got with
  | [] => d
  | c :: rest => complete m stSuccess c.2 0 [] (setFab { d.fab with
      puts := d.fab.puts ++ [⟨c.2, m.c.lenA, m.part, rest.map (·.2)⟩] } d)

/-- EXTENT_PUT: copy 0 lies in the module named, further copies under R411. -/
def extentPutApply (m : Cmd) (d : Dev) : Dev :=
  let dst := argAt m.c 48 2 % 1024
  let fl := argAt m.c 50 1
  let need := if bitAt fl 1 then d.get Reg.FAB_COPY_T2 else 1
  let data := padTo m.c.lenA m.c.dataA
  let key := slotKey d m
  let sc := bitAt fl 0
  guarded m (moduleCodes d dst ++ [(m.c.lenA == 0, stMalformed)]) (fun e =>
    if dst ≠ e.self then (placeStart (.put m) need false 4 key sc true data (some dst) e).2
    else
      match extentPut key sc true 0 data e with
      | (none, _) => failWith m stExportFull e
      | (some off, e1) =>
        let a := globalAddr spExport e.self off
        if need ≤ 1 then putDone m [(e.self, a)] e1
        else
          let (ok, e2) := placeMore (.put m) [(e.self, a)] (need - 1) false 4 key sc true data e1
          if ok then e2
          else
            match e2.fab.placing.find? fun p => p.what == PlaceWhat.put m with
            | some p => placeUnplaced p stExportFull e2
            | none => e2) d

/-- An extent of EXTENT_PUT is freed: its further copies go with it. -/
def putFreed (addr : Nat) (keySlot : Nat) (d : Dev) : Dev :=
  let mine := d.fab.puts.filter fun p => p.addr == addr
  let d1 := forAll (mine.flatMap (·.copies)) (fun a e => sendFree a keySlot e) d
  setFab { d1.fab with puts := d1.fab.puts.filter fun p =>
    !(p.addr == addr || mine.any fun q => decide (q.addr ≤ p.addr ∧ p.addr < q.addr + q.len)) } d1

/-- EXTENT_FREE. -/
def extentFreeApply (m : Cmd) (d : Dev) : Dev :=
  let a := m.c.addrA
  let key := slotKey d m
  guarded m (moduleCodes d (addrModule a)) (fun e =>
    if addrModule a ≠ e.self then request (.free (some m)) opFree 4 a 0 key [] e
    else
      match (shareAddr e a).bind fun s => extentOf e s.1 s.2 with
      | none => failWith m stAddrInvalid e
      | some x =>
        if x.keySlot ≠ key ∨ ¬ x.shared then failWith m stDenied (e.count Reg.NME_DENIED 1)
        else complete m stSuccess 0 0 [] (putFreed a key (extentFree x e))) d

/-- Payload bytes of an NM_OP (R406). -/
def nmPayload (op len : Nat) : Nat :=
  match op with
  | 3 => 16
  | 4 => 0
  | 5 => len
  | _ => 8

/-- An NM_OP writes its target. -/
def nmWrites (op : Nat) : Bool := op != 2 && op != 4

/-- The result of an NM_OP goes to the host and into RESULT. -/
def nmDone (m : Cmd) (out : Bytes) (d : Dev) : Dev :=
  let a := m.c.addrA
  let known := d.fab.puts.any fun p => decide (p.addr ≤ a ∧ a < p.addr + p.len)
  let base := if addrModule a = d.self then
      ((extentAt d false (addrOffset a) 1).map fun x => globalAddr spExport d.self x.base).getD a else a
  let d1 := if nmWrites (argAt m.c 48 1) ∧ ¬ known then setFab { d.fab with
      puts := d.fab.puts ++ [⟨base, m.c.lenA, m.part, []⟩] } d else d
  complete m stSuccess (fieldAt out 0 8) 0 (if out.isEmpty then [] else [(argAt m.c 56 8, out)]) d1

/-- NM_OP. -/
def nmOpApply (m : Cmd) (d : Dev) : Dev :=
  let a := m.c.addrA
  let arg := argAt m.c 48 8
  let key := slotKey d m
  let body := padTo (nmPayload (arg % 256) m.c.lenA) m.c.dataB
  guarded m (moduleCodes d (addrModule a)) (fun e =>
    if addrModule a ≠ e.self then
      sendReq (.nmOp m) { mkTxn e opNmOp 4 a arg key body with len := m.c.lenA }
        (setFab { e.fab with nextTag := e.fab.nextTag + 1 } e)
    else
      let st := nmStatus e arg m.c.lenA a key body
      if st ≠ fsOk then failWith m (fabCode st) (when (st == fsDenied) (fun x => x.count Reg.NME_DENIED 1) e)
      else
        let (out, e1) := nmRun arg m.c.lenA a body e
        nmDone m out e1) d

/-- PEER_DECLARE_LOST names another module. -/
def declareChecks (d : Dev) (m : Cmd) : List (Bool × Nat) := [(argAt m.c 48 2 % 1024 == d.self, stInvalidField)]

/-- PEER_DECLARE_LOST (R421, R423). -/
def declareApply (m : Cmd) (d : Dev) : Dev :=
  let k := argAt m.c 48 2 % 1024
  guarded m (reachCodes d k) (fun e => complete m stSuccess 0 0 [] (peerLost k true e)) d

/-! ### Completions (R403, R404, R413, R425) -/

/-- Every copy of a placement is sealed (R413). -/
def placeDone (p : Placing) (d : Dev) : Dev :=
  match p.what with
  | .demote o => demotePlaced o p d
  | .repair o =>
    match objView d o with
    | none => forAll (p.got.filter fun c => c.1 != d.self) (fun c e => sendFree c.2 p.keySlot e) d
    | some v => (putCopies o p.got d).count Reg.FAB_REPAIR_BYTES (v.bytes * (p.got.length - (copyList d v).length))
  | .put m => putDone m p.got d
  | .ckpt model => remotePlaced model p.got d

/-- A completion of a placement (R411). -/
def placeRxDone (id : Nat) (o : TxnOut) (status : Nat) (t : FabTxn) (d : Dev) : Dev :=
  if status ≠ fsOk then placeOut id (fabCode status) d
  else if o.txn.op = opAlloc then placeAllocated id t.arg d
  else if o.txn.op = opSeal then
    match placeSealed id d with
    | (some p, _, e) => placeDone p e
    | (none, true, e) => e
    | (none, false, e) =>
      match findPlacing e id with
      | some p => placeUnplaced p stExportFull e
      | none => e
  else d

/-- A READ of a copy failed: the owner has not got the object (R414), and the next copy is read; without one the object is
lost. -/
def readFailed (obj : ObjRef) (o : TxnOut) (d : Dev) : Dev :=
  let d1 := setFab { d.fab with absentAt := (obj, o.txn.dst) :: d.fab.absentAt } d
  match otherCopy d1 o with
  | some a => reissue o a d1
  | none => objLost obj (dropReqs o.use o.txn.dst d1)

/-- The completion of an outstanding request. -/
def completionUse (o : TxnOut) (t : FabTxn) (d : Dev) : Dev :=
  let st := if t.resv ∨ 7 ≤ t.status then fsMalformed else t.status
  match o.use with
  | .place id => placeRxDone id o st t d
  | .promote obj => if st = fsOk then d else readFailed obj o d
  | .repairRead obj =>
    if st ≠ fsOk then readFailed obj o d
    else if d.fab.txns.any (fun x => x.use == TxnUse.repairRead obj) ∨ ¬ objBelow d obj then d
    else repairPlace obj d
  | .pattn k _ =>
    if st = fsOk then pattnResponseRx t.src t.payload d
    else
      match findStep d k with
      | some s =>
        if s.requests.any fun r => r.tag == t.tag && r.owner == t.src then
          stepError k ecRemoteBad (Reg.ATTN_REMOTE_FAIL (galOf d k)).page (galOf d k) false
            (d.count (Reg.ATTN_REMOTE_FAIL (galOf d k)) 1)
        else d
      | none => d
  | .push k =>
    if st ≠ fsOk then
      let noRoom := st == fsNoSpace && o.txn.op == opPushOpen
      let r := inputsFail k (if noRoom then stTierFull else fabCode st) d
      if r.1 then r.2 else if noRoom then migrateNoRoom k d else migrateAbandon k (fabCode st) d
    else if o.txn.op = opPushOpen then
      let first := d.fab.pushOut.any fun p => p.key == k && !p.opened
      pushGranted k t.arg (if first then migrateBegun k d else d)
    else if o.txn.op = opPushClose then pushDrained k d
    else d
  | .nmOp m => if st = fsOk then nmDone m t.payload d else failWith m (fabCode st) d
  | .free (some m) =>
    if st = fsOk then complete m stSuccess 0 0 [] (putFreed o.txn.addr o.txn.keySlot d) else failWith m (fabCode st) d
  | .free none => d
  | .load k h mo => if st = fsNoSpace then loadRefused k h mo d else d
  | .probe => if peerState d t.src = .suspect ∧ ¬ (portSet d t.src).isEmpty then setPeer t.src .present d else d
  | .weight _ _ => d
  | .forward => d
  | .control => d

/-- Requests that timed out towards a peer that is back in PRESENT: a READ is sent again (log entry 24). -/
def readsAgain (m : Nat) (d : Dev) : Dev :=
  forAll (d.fab.txns.filter fun o => o.late && o.txn.dst == m && o.txn.op == opRead) (fun o e => reissue o o.txn.addr e) d

/-- FAB_COMPLETION_RX (R404): one from a LOST peer is discarded (R423, R425), and so is one that no request awaits. -/
def completionRx (t : FabTxn) (d : Dev) : Dev :=
  if t.dst ≠ d.self then d
  else if peerState d t.src = .lost then d.count Reg.FAB_RX_FENCED 1
  else
    match d.fab.txns.find? fun o => o.txn.tag == t.tag && o.txn.dst == t.src && o.txn.op + 0x80 == t.op with
    | none => d
    | some o =>
      let was := peerState d t.src
      -- the response to a remote attention request takes its request itself
      let d1 := if o.txn.op = opPattn ∧ t.status = fsOk ∧ ¬ t.resv then d else (takeReq t.tag t.src d).2
      let d2 := completionUse o t d1
      if was = .suspect ∧ peerState d2 t.src = .present then readsAgain t.src d2 else d2

/-! ### Timeouts and probes (R405, R421) -/

/-- FAB_TXN_TIMEOUT (R405): the destination becomes SUSPECT. A READ continues at another copy where there is one, and a copy
that is being placed goes to another owner; what has no other way waits for its completion or for the loss of the peer
(log entry 24). -/
def txnTimeout (tag : Nat) (d : Dev) : Dev :=
  match d.fab.txns.find? fun o => o.txn.tag == tag && !o.late with
  | none => d
  | some o =>
    if d.clock < o.at_ + txnTimeoutUs d * 1000 then d
    else
      let l := { o with late := true }
      let d1 := suspectPeer o.txn.dst ((setFab { d.fab with
        txns := d.fab.txns.map fun x => if x = o then l else x } d).count Reg.FAB_TXN_TIMEOUTS 1)
      let drop := setFab { d1.fab with txns := d1.fab.txns.erase l } d1
      let d2 := match o.use with
        | .place id => placeOut id stExportFull d1
        | .promote obj => match nextCopyAddr d1 obj o.txn.addr with
          | some a => reissue l a d1
          | none => d1
        | .repairRead obj => match nextCopyAddr d1 obj o.txn.addr with
          | some a => reissue l a d1
          | none => d1
        | .probe => drop
        | .control => drop
        | .forward => drop
        | .free none => drop
        | _ => d1
      releaseReqs d2.fab.waiting.length d2

/-- A probe of a peer on one route. -/
def probe (m : Nat) (mask : Nat) (d : Dev) : Dev :=
  let ps := upPorts d mask
  match ps[(m * 8) % ps.length]? with
  | none => d
  | some p =>
    let t := mkTxn d opProbe 0 (globalAddr spControl m 5) 0 0 []
    portSend p t ((setFab { d.fab with
      nextTag := d.fab.nextTag + 1
      txns := d.fab.txns ++ [⟨t, d.clock, portSet d m, .probe, false⟩] } d).count Reg.FAB_TXN_SENT 1)

/-- PROBE_TIMER (R421): every SUSPECT peer is probed on every route. -/
def probeTimer (d : Dev) : Dev :=
  if d.clock < d.fab.lastProbe + txnTimeoutUs d * 500 then d
  else
    forAll ((d.fab.peers.filter fun p => p.state == .suspect).map (·.module_)) (fun m e =>
      match routeEnt e m with
      | none => e
      | some r => probe m r.routeB (probe m r.routeA e)) (setFab { d.fab with lastProbe := d.clock } d)

/-- PEER_TIMEOUT (R421). -/
def peerTimeout (m : Nat) (d : Dev) : Dev :=
  match d.fab.peers.find? fun p => p.module_ == m with
  | none => d
  | some p => if p.state = .suspect ∧ p.since + peerTimeoutUs d * 1000 ≤ d.clock then peerLost m false d else d

/-! ### Received frames (R400, R402, R403, R447, R453) -/

/-- A received transaction that this module owns. -/
def rxOp (op : Nat) (f : FabTxn → Dev → Dev) (t : FabTxn) (d : Dev) : Dev := if t.op = op then fenced f t d else d

/-- A control message: its endpoint is defined (R391), and it is answered unless it is a tick beacon. What the message does is
the effect of its own command. -/
def controlRx (t : FabTxn) (d : Dev) : Dev :=
  let off := addrOffset t.addr
  if addrSpace t.addr ≠ spControl ∨ addrModule t.addr ≠ d.self ∨ off = 0 ∨ 9 ≤ off then d.count Reg.FAB_RX_MALFORMED 1
  else if off = 2 then d
  else if t.resv then answer t fsMalformed 0 [] d
  else answer t fsOk 0 [] d

/-- Execute a transaction addressed to this module (R403). -/
def execTxn (t : FabTxn) (d : Dev) : Dev :=
  if 0x81 ≤ t.op ∧ t.op ≤ 0x8D then completionRx t d
  else if t.op = opRead then fenced readRx t d
  else if t.op = opAlloc then fenced allocRx t d
  else if t.op = opPlace then fenced placeRx t d
  else if t.op = opSeal then fenced sealRx t d
  else if t.op = opFree then fenced freeRx t d
  else if t.op = opPushOpen then fenced pushOpenRx t d
  else if t.op = opPushData then fenced pushDataRx t d
  else if t.op = opPushClose then fenced pushCloseRx t d
  else if t.op = opNmOp then fenced nmOpRx t d
  else if t.op = opPattn then pattnFenced t.src t.tag t.keySlot t.payload d
  else if t.op = opCollective then d
  else if t.op = opControl then fenced controlRx t d
  else if t.op = opProbe then fenced probeRx t d
  else d.count Reg.FAB_RX_MALFORMED 1

/-- A transaction for another module goes on by the route of this module's table (R400). -/
def forwardTxn (t : FabTxn) (d : Dev) : Dev :=
  if t.hops = 0 then d.count Reg.FAB_RX_MALFORMED 1
  else
    match exitPort d t.dst t.tc with
    | some p => portForward p { t with hops := t.hops - 1 } d
    | none => d

/-- FRAME_RX (R400, R435, R441, R447, R448, R453). -/
def frameRx (p : Nat) (f : Frame) (d : Dev) : Dev :=
  if ¬ portUp d p then d
  else if ¬ f.tagOk ∨ ¬ keyAccepted d p f.keySlot then gcmFail p f.txn.tc d
  else
    let (ok, d1) := policerPass p f.txn (takeAssembled p f.txn.tc d)
    if ¬ ok then d1
    else if tooLong f.txn then d1.count Reg.FAB_RX_MALFORMED 1
    else if f.txn.dst = d1.self then execTxn f.txn d1
    else forwardTxn f.txn d1

/-! ### The meanings -/

def execRouteLoad (c : HostCmd) (s : State) : Host.Outcome State Fault Refusal :=
  s.run (hostRow 0x50 routeLoadChecks routeLoadApply c)
def execExportSet (c : HostCmd) (s : State) : Host.Outcome State Fault Refusal :=
  s.run (hostRow 0x51 exportSetChecks exportSetApply c)
def execExtentPut (c : HostCmd) (s : State) : Host.Outcome State Fault Refusal :=
  s.run (hostRow 0x52 noChecks extentPutApply c)
def execExtentFree (c : HostCmd) (s : State) : Host.Outcome State Fault Refusal :=
  s.run (hostRow 0x53 noChecks extentFreeApply c)
def execNmOp (c : HostCmd) (s : State) : Host.Outcome State Fault Refusal := s.run (hostRow 0x54 keysChecks nmOpApply c)
def execPeerDeclareLost (c : HostCmd) (s : State) : Host.Outcome State Fault Refusal :=
  s.run (hostRow 0x55 declareChecks declareApply c)
def execFrameRx (port : Nat) (frame : Frame) (s : State) : Host.Outcome State Fault Refusal :=
  s.run fun d => if port < 16 then peersRecheck (frameRx port frame d) else d
def execFabReadRx (t : FabTxn) (s : State) : Host.Outcome State Fault Refusal := s.run (rxOp opRead readRx t)
def execAllocRx (t : FabTxn) (s : State) : Host.Outcome State Fault Refusal := s.run (rxOp opAlloc allocRx t)
def execPlaceRx (t : FabTxn) (s : State) : Host.Outcome State Fault Refusal := s.run (rxOp opPlace placeRx t)
def execSealRx (t : FabTxn) (s : State) : Host.Outcome State Fault Refusal := s.run (rxOp opSeal sealRx t)
def execFreeRx (t : FabTxn) (s : State) : Host.Outcome State Fault Refusal := s.run (rxOp opFree freeRx t)
def execPushOpenRx (t : FabTxn) (s : State) : Host.Outcome State Fault Refusal := s.run (rxOp opPushOpen pushOpenRx t)
def execPushDataRx (t : FabTxn) (s : State) : Host.Outcome State Fault Refusal := s.run (rxOp opPushData pushDataRx t)
def execPushCloseRx (t : FabTxn) (s : State) : Host.Outcome State Fault Refusal := s.run (rxOp opPushClose pushCloseRx t)
def execNmOpRx (t : FabTxn) (s : State) : Host.Outcome State Fault Refusal := s.run (rxOp opNmOp nmOpRx t)
def execProbeRx (t : FabTxn) (s : State) : Host.Outcome State Fault Refusal := s.run (rxOp opProbe probeRx t)
def execFabCompletionRx (t : FabTxn) (s : State) : Host.Outcome State Fault Refusal := s.run (completionRx t)
def execFabTxnTimeout (tag : Nat) (s : State) : Host.Outcome State Fault Refusal := s.run (txnTimeout tag)
def execProbeTimer (s : State) : Host.Outcome State Fault Refusal := s.run probeTimer
def execPeerTimeout (peer : Nat) (s : State) : Host.Outcome State Fault Refusal := s.run (peerTimeout peer)
def execRepairCopy (obj : ObjRef) (s : State) : Host.Outcome State Fault Refusal := s.run (repairCopy obj)

end Sys2Proof.Machine
end

