-- ==== Sys2Proof/Machine/Domains.lean ====
section
/-! DEFINITION. The switchable power domains (R574, R575): their states, times and power, and shedding. -/

namespace Sys2Proof.Machine

open Sys2Proof

/-- Domain states (R574, R591). -/
def domActive : Nat := 0
def domGated : Nat := 1
def domRetention : Nat := 2
def domOff : Nat := 3

/-- Replace the power state. -/
def setPwr (p : PwrSt) (d : Dev) : Dev := { d with pwr := p }

/-- The chooser row of a domain in R575: entry, exit and minimum residency of a state in ns; none where the state is not the
chooser's. -/
def domTimes (dom st : Nat) : Option (Nat × Nat × Nat) :=
  if dom < 32 then
    match st with
    | 1 => some (10, 20, 0) | 2 => some (2000, 5000, 20000) | 3 => some (1000, 60000, 500000) | _ => none
  else if dom < 40 then
    match st with
    | 1 => some (50, 100, 0) | 2 => some (1000, 3000, 10000) | _ => none
  else if dom < 56 then none
  else if dom < 60 then
    match st with
    | 1 => some (100, 200, 0) | 2 => some (5000, 20000, 100000) | 3 => some (10000, 150000, 2000000) | _ => none
  else if dom = 60 then
    match st with
    | 1 => some (100, 200, 0) | _ => none
  else if dom < 65 then none
  else if dom < 67 then
    match st with
    | 1 => some (20, 40, 0) | 2 => some (2000, 5000, 20000) | 3 => some (5000, 50000, 500000) | _ => none
  else
    match st with
    | 1 => some (100, 100, 0) | _ => none

/-- Power of a domain in a state, in units of 0.01 W (R575). -/
def domPower (dom st : Nat) : Nat :=
  let row : Nat × Nat × Nat × Nat :=
    if dom < 32 then (2600, 600, 200, 10) else if dom < 40 then (3000, 1200, 300, 300)
    else if dom < 56 then (700, 700, 700, 20) else if dom < 60 then (2000, 600, 200, 10)
    else if dom = 60 then (2000, 800, 800, 800) else if dom < 65 then (2100, 2100, 2100, 10)
    else if dom = 65 then (1200, 300, 100, 5) else if dom = 66 then (800, 200, 50, 5) else (600, 300, 300, 300)
  match st with
  | 0 => row.1
  | 1 => row.2.1
  | 2 => row.2.2.1
  | _ => row.2.2.2

/-- Quads that an enabled partition owns. -/
def ownedQuads (d : Dev) : Nat :=
  ((List.range 8).filter fun p => d.get (Reg.PART_ENABLED p) == 1).foldl (fun m p => Nat.lor m (d.get (Reg.PART_QUADS p))) 0

/-- A Newel bank group lies in one of the table runs (R321). -/
def groupRuns (d : Dev) (g : Nat) : Bool :=
  decide (d.get Reg.NT0_FIRST_GROUP ≤ g ∧ g < d.get Reg.NT0_FIRST_GROUP + d.get Reg.NT0_GROUPS + 1)
  || decide (d.get Reg.NT1_FIRST_GROUP ≤ g ∧ g < d.get Reg.NT1_FIRST_GROUP + d.get Reg.NT1_GROUPS + 1)

/-- The state of a domain that follows from other state: a quad no enabled partition owns, an optical engine, a Newel bank
group, and everything shed (R575, R586, R629). -/
def domForced (d : Dev) (dom : Nat) : Option Nat :=
  if dom < 32 then if bitAt (ownedQuads d) dom then none else some domOff
  else if 40 ≤ dom ∧ dom < 56 then some (if d.get (Reg.PORT_EN (dom - 40)) = 1 ∧ ¬ d.pwr.shed then domActive else domOff)
  else if 61 ≤ dom ∧ dom < 65 then some (if groupRuns d (dom - 61) ∧ ¬ d.pwr.shed then domActive else domOff)
  else none

/-- The state of a domain. -/
def domNow (d : Dev) (dom : Nat) : Nat := (domForced d dom).getD (d.get (Reg.DOM_STATE dom))

/-- A domain enters a state; PWR_STATE_CHANGES counts a change (R592). -/
def domSet (dom st : Nat) (d : Dev) : Dev :=
  if (domForced d dom).isSome ∨ d.get (Reg.DOM_STATE dom) = st then d
  else (d.set (Reg.DOM_STATE dom) st).count Reg.PWR_STATE_CHANGES 1

/-- Shed every domain but those that `keep` names (R586, R629). Domains that can never be OFF stop with their supply. -/
def shed (keep : Nat → Bool) (d : Dev) : Dev :=
  let d1 := forAll ((List.range 68).filter fun n => !keep n) (fun n e => domSet n domOff e) d
  setPwr { d1.pwr with
    shed := true
    wakes := [] } d1

/-- Every plan stops: no tick runs (R586, R629). -/
def stopPlans (d : Dev) : Dev :=
  { d with
    tick := { d.tick with
      running := false
      plan := none
      next := none
      sealed := false }
    run := { d.run with
      steps := []
      carried := [] } }

end Sys2Proof.Machine
end

