-- ==== Sys2Proof/Machine/LinkRows.lean ====
section
/-! DEFINITION. The meanings of the commands of the fabric ports and of the gate lists (spec/13). -/

namespace Sys2Proof.Machine

open Sys2Proof

/-- An effect on a port of the sixteen; a further number names no port. -/
def portRow (p : Nat) (f : Dev → Dev) (d : Dev) : Dev := if p < 16 then peersRecheck (f d) else d

def execFrameTxSelect (port : Nat) (s : State) : Host.Outcome State Fault Refusal := s.run (portRow port (frameTxSelect port))
def execDataFlitRx (port : Nat) (flit : Flit) (s : State) : Host.Outcome State Fault Refusal :=
  s.run (portRow port (dataFlitRx port flit))
def execIdleFlitRx (port : Nat) (flit : Flit) (s : State) : Host.Outcome State Fault Refusal :=
  s.run (portRow port (idleFlitRx port flit))
def execCreditFlitRx (port : Nat) (flit : Flit) (s : State) : Host.Outcome State Fault Refusal :=
  s.run (portRow port (creditFlitRx port flit))
def execNakFlitRx (port : Nat) (flit : Flit) (s : State) : Host.Outcome State Fault Refusal :=
  s.run (portRow port (nakFlitRx port flit))
def execSaltFlitRx (port : Nat) (flit : Flit) (s : State) : Host.Outcome State Fault Refusal :=
  s.run (portRow port (saltFlitRx port flit))
def execTrainFlitRx (port : Nat) (flit : Flit) (info : TrainInfo) (s : State) : Host.Outcome State Fault Refusal :=
  s.run (portRow port (trainFlitRx port flit info))
def execSaltRoll (port : Nat) (s : State) : Host.Outcome State Fault Refusal := s.run (portRow port (saltRollDue port))
def execPortEnWrite (via : Via) (port word : Nat) (s : State) : Host.Outcome State Fault Refusal :=
  s.run (regGate via 0x42 (portRow port (portEnWrite port word)))
def execPortRetrain (via : Via) (port : Nat) (s : State) : Host.Outcome State Fault Refusal :=
  s.run (regGate via 0x42 (portRow port (portRetrain port)))
def execTrainingStepTimeout (port step lanes : Nat) (s : State) : Host.Outcome State Fault Refusal :=
  s.run (portRow port (trainingStepTimeout port step lanes))
def execTrainingComplete (port working : Nat) (s : State) : Host.Outcome State Fault Refusal :=
  s.run (portRow port (trainingComplete port working))
def execPortDownRetry (port : Nat) (s : State) : Host.Outcome State Fault Refusal := s.run (portRow port (portDownRetry port))
def execLaneLossOfSignal (port lane : Nat) (s : State) : Host.Outcome State Fault Refusal :=
  s.run (portRow port (laneFail port lane))
def execLaneSerLimit (port lane symbols : Nat) (s : State) : Host.Outcome State Fault Refusal :=
  s.run (portRow port (laneSerLimit port lane symbols))
def execLaneCalibration (port lane : Nat) (s : State) : Host.Outcome State Fault Refusal :=
  s.run (portRow port (laneCalibration port lane))
def execLaneCalibrationDone (port lane : Nat) (s : State) : Host.Outcome State Fault Refusal :=
  s.run (portRow port (laneCalibrationDone port lane))
def execKeySwitch (port : Nat) (s : State) : Host.Outcome State Fault Refusal := s.run (portRow port (keySwitch port))
def execKeyPrevExpire (port : Nat) (s : State) : Host.Outcome State Fault Refusal := s.run (portRow port (keyPrevExpire port))
def execTokenBucketRefill (s : State) : Host.Outcome State Fault Refusal := s.run tokenBucketRefill
def execGlLoadIdWrite (via : Via) (value : Nat) (s : State) : Host.Outcome State Fault Refusal :=
  s.run (regGate via 0x42 (glLoadIdWrite via value))
def execGlLoadDone (data : Option Bytes) (s : State) : Host.Outcome State Fault Refusal := s.run (glLoadDone data)
def execGlSwitchAtWrite (via : Via) (value : Nat) (s : State) : Host.Outcome State Fault Refusal :=
  s.run (regGate via 0x42 (glSwitchAtWrite value))

end Sys2Proof.Machine
end

