-- ==== Sys2Proof/Machine/RegFile.lean ====
section
/-! DEFINITION. What the register pages read as: fields that follow from other state, and bytes of a page (R656 to R662,
R685). -/

namespace Sys2Proof.Machine

open Sys2Proof

/-- BLK_PWR of a page (R685). -/
def pageDomain (d : Dev) (page : Nat) : Nat :=
  match pageKind page with
  | some (.gal, n) => d.get (Reg.GAL_QUAD n)
  | some (k, n) => blkPwr k n
  | none => 0x7F

/-- BLK_PART of a page (R660). -/
def pageParts (d : Dev) (page : Nat) : Nat :=
  match pageKind page with
  | some (.part, n) => 2 ^ n
  | some (.host, n) => if d.get (Reg.SLOT_STATE n) = 0 then 0 else 2 ^ d.get (Reg.SLOT_PART n)
  | some (.gal, n) => ((List.range 8).map fun p =>
      if d.get (Reg.PART_ENABLED p) = 1 ∧ bitAt (d.get (Reg.PART_QUADS p)) (d.get (Reg.GAL_QUAD n)) then 2 ^ p else 0).sum
  | _ => 0xFF

/-- CKPT_PHASE (R543). -/
def ckptPhase (d : Dev) : Nat :=
  if !d.ckpt.restores.isEmpty then 2
  else if d.ckpt.captures.any fun c => ckRunning c && c.shard.isSome then 1 else 0

/-- Free bytes of a store by number (R543). -/
def storeFreeOf (d : Dev) (s : Nat) : Nat :=
  match findStore d s with
  | some x => storeFree d x.kind x.target x.cap
  | none => 0

/-- The value of a field that follows from other state. -/
def derivedField (d : Dev) (f : Field) : Option Nat :=
  if f.acc = .cnt then some (d.counter f)
  else if f.off = 0x010 ∧ f.lo = 1 then some (d.get (Reg.LOCK f.page))
  else if f.off = 0x010 ∧ f.lo = 2 then
    some (if pageDomain d f.page = 0x7F then 0 else domNow d (pageDomain d f.page))
  else if f.off = 0x030 then some (pageDomain d f.page)
  else if f.off = 0x034 then some (pageParts d f.page)
  else if f.page = 1 ∧ f.key = Reg.TIME_HOLD_BOUND.key then some (holdBoundNs d)
  else if f.page = 3 ∧ 0x200 ≤ f.off ∧ f.lo = 0 then some (domNow d ((f.off - 0x200) / 4))
  else if f.page = 0x29 ∧ f.key = Reg.CKPT_PHASE.key then some (ckptPhase d)
  else if f.page = 0x29 ∧ f.key = Reg.CKPT_DEDUP_USED.key then some d.ckpt.dedup.length
  else if f.page = 0x29 ∧ 0x120 ≤ f.off ∧ f.off < 0x160 then some (storeFreeOf d ((f.off - 0x120) / 8))
  else none

/-- What a field reads as, through any interface but for GLB_INT_SUMMARY (R8). -/
def fieldValue (d : Dev) (f : Field) : Nat :=
  if f.acc = .wo then 0 else ((derivedField d f).getD (d.get f)) % 2 ^ f.width

/-- GLB_INT_SUMMARY as an interface reads it: pages closed to it read 0 (R663). -/
def intSummary (d : Dev) (via : Via) (w : Nat) : Nat :=
  ((List.range 64).map fun i =>
    if (intPages d).contains (64 * w + i) && mayRead d via (64 * w + i) then 2 ^ i else 0).sum

/-- What a field reads as through an interface. -/
def readField (d : Dev) (via : Via) (f : Field) : Nat :=
  if f.page = 0 ∧ 0x200 ≤ f.off ∧ f.off < 0x240 then intSummary d via ((f.off - 0x200) / 8) else fieldValue d f

/-- Fields of a page that share bits with `n` bytes from byte `o` on. -/
def fieldsAt (page o n : Nat) : List Field :=
  (pageFields page).filter fun f => decide (8 * f.off + f.lo < 8 * (o + n) ∧ 8 * o < 8 * f.off + f.lo + f.width)

/-- `n` bytes of a page from byte `o` on. -/
def readBytes (d : Dev) (via : Via) (page o n : Nat) : Nat :=
  ((fieldsAt page o n).map fun f => readField d via f * 2 ^ (8 * f.off + f.lo)).sum / 2 ^ (8 * o) % 2 ^ (8 * n)

/-- The register file with every field at the value it reads as: what a dump holds (R629). -/
def regSnapshot (d : Dev) : RegSt :=
  (forAll (pagesInUse.flatMap pageFields) (fun f e =>
    if fieldValue d f = d.get f then e else e.set f (fieldValue d f)) d).regs

end Sys2Proof.Machine
end

