-- ==== Sys2Proof/Machine/Ras.lean ====
section
/-! DEFINITION. Errors, sparing, self-tests, the error log and the fatal-error dump (R620-R636). -/

namespace Sys2Proof.Machine

open Sys2Proof

/-! ### Plans and pages as bytes (R65, R629) -/

/-- The 16 bytes of a plan entry. -/
def planEntryBytes (e : PlanEntry) : Bytes :=
  le 4 e.offset ++ le 1 e.action ++ le 1 e.unitClass ++ le 1 e.first ++ le 1 e.last ++ le 8 e.arg

/-- DIGEST of a plan (R65). -/
def planDigest (l : List PlanEntry) : Bytes := sha256 ((l.map planEntryBytes).flatten)

/-- The 262,208 bytes of a slot of the plan ring (R65). -/
def planBytes (p : Plan) : Bytes :=
  padTo 262208 (le 8 p.number ++ le 8 p.start ++ le 4 p.period ++ le 2 p.entries.length
    ++ le 2 ((if p.localOnly then 1 else 0) + (if p.maint then 2 else 0) + (if p.empty then 4 else 0)) ++ p.digest ++ zeros 8
    ++ (p.entries.map planEntryBytes).flatten)

/-- The 4,096 bytes of a register page (R656). -/
def pageRegBytes (r : RegSt) (page : Nat) : Bytes :=
  le 4096 (((pageFields page).map fun f => spGet f.reset r.file f.key * 2 ^ (8 * f.off + f.lo)).sum)

/-! ### The dump (R629) -/

/-- A queue record: SQ and CQ of one number. -/
def queueRec (x : Dump) (slot id : Nat) : Bytes :=
  let s := x.sqs.find? fun q => q.slot == slot && q.id == id
  let c := x.cqs.find? fun q => q.slot == slot && q.id == id
  le 2 ((s.map (·.head)).getD 0) ++ le 2 ((s.map (·.tail)).getD 0) ++ le 2 ((c.map (·.head)).getD 0)
  ++ le 2 ((c.map (·.tail)).getD 0) ++ le 1 (if c.any (·.phase) then 1 else 0) ++ zeros 7

/-- A ring record: head, tail and PHASE (their places in it are log entry 29). -/
def ringRec (x : Dump) (k : QueueKind) (slot id : Nat) : Bytes :=
  let r := x.rings.find? fun q => q.kind == k && q.slot == slot && q.id == id
  le 4 ((r.map (·.head)).getD 0) ++ le 4 ((r.map (·.tail)).getD 0) ++ le 1 (if r.any (·.phase) then 1 else 0) ++ zeros 7

/-- The dump after its header. -/
def dumpBody (x : Dump) : Bytes :=
  padTo 962560 ((pagesInUse.map (pageRegBytes x.regs)).flatten)
  ++ padTo 16781312 ((x.plans.reverse.map planBytes).flatten)
  ++ (List.range 16).flatMap (fun s => (List.range 16384).flatMap (queueRec x s))
  ++ (List.range 16).flatMap (fun s => (List.range 1024).flatMap (ringRec x .stream s) ++ (List.range 256).flatMap (ringRec x .event s))
  ++ padTo 4194304 ((x.log.reverse.map errRecBytes).flatten)
  ++ (List.range 241971200).map Config.traceByte

/-- The 268,435,456 bytes of a dump. -/
def dumpBytes (x : Dump) : Bytes :=
  let b := dumpBody x
  padTo 4096 (le 4 0x504D5544 ++ le 2 1 ++ le 2 x.cause ++ le 8 x.time ++ le 8 x.tick ++ le 8 x.serialLo ++ le 8 x.serialHi
    ++ le 1 (if x.mirrored then 1 else 0) ++ zeros 23 ++ sha256 b) ++ b

/-- A fatal error (R628, R629): its actions in order. A second one changes nothing. -/
def fatalError (cause : Nat) (d : Dev) : Dev :=
  if d.get Reg.RAS_FATAL = 1 ∨ 5 ≤ cause then d
  else
    let d1 := logError clsFatal ecFatal 6 cause 0 0 0 false (stopPlans (setHost { d.host with fatal := true } d))
    let d2 := shed (fun n => decide ((32 ≤ n ∧ n < 40) ∨ (56 ≤ n ∧ n < 60) ∨ n = 67)) d1
    let x : Dump :=
      { cause := cause
        time := d2.now
        tick := d2.get Reg.TICK_NOW
        serialLo := d2.get Reg.GLB_SERIAL_LO
        serialHi := d2.get Reg.GLB_SERIAL_HI
        mirrored := !d2.isM0
        regs := regSnapshot d2
        plans := d2.tick.ring
        sqs := d2.host.sqs
        cqs := d2.host.cqs
        rings := d2.host.rings
        log := d2.ras.log }
    setStage 9 (((setRas { d2.ras with dump := some x } d2).set Reg.RAS_FATAL_CAUSE cause).set Reg.RAS_FATAL 1)

/-! ### Uncorrectable lines (R621-R623) -/

/-- Running steps of the sessions that hold a page. -/
def pageReaders (d : Dev) (id : Nat) : List Step :=
  d.run.steps.filter fun s => s.started && !s.committed
    && (findDesc d s.key).any fun x => x.table.any fun e => e.page == id

/-- The copy that an object falls back to: its backing copy, or another copy of R410 (R621). -/
def fallBack (d : Dev) (v : ObjView) : Option (Nat × Nat) :=
  if v.backTier ≠ noTier ∧ v.backTier ≠ v.tier then some (v.backTier, v.backLoc)
  else ((remoteCopies d v).head?).map fun a => (2, a)

/-- An uncorrectable read of a committed object in T1 (R621). -/
def objectUe (o : ObjRef) (d : Dev) : Dev :=
  match objView d o with
  | none => d
  | some v =>
    match fallBack d v with
    | some (t, l) =>
      let cause := if t = 4 then Cause.t4Late else if t = 3 then Cause.t3Late else Cause.t2Late
      let steps := match o with
        | .page id => pageReaders d id
        | .granule _ _ => []
      let d1 := (poolGive v.part v.bytes (setObj o { v with
        tier := t
        loc := l
        backTier := noTier
        backLoc := 0 } (demoteAbandon o (promoteDrop o d)))).count Reg.RAS_OBJ_RECOVERED 1
      forAll steps (fun s e => match findStep (addCause s.key cause e) s.key with
        | some s1 => abandon s1 (addCause s.key cause e)
        | none => e) d1
    | none =>
      match o with
      | .page id => (pagesLost [id] (promoteDrop o d)).count Reg.RAS_OBJ_LOST 1
      | .granule p i =>
        match findGranule d p i with
        | some g => (putGranule { g with lost := true } (promoteDrop o d)).count Reg.RAS_OBJ_LOST 1
        | none => d

/-- The slots whose host window holds an address of a partition's session range. -/
def windowSlots (d : Dev) (part addr : Nat) : List Nat :=
  slotNumbers.filter fun n => slotServed d n && d.get (Reg.SLOT_PART n) == part
    && decide (winBase d n ≤ addr ∧ addr < winBase d n + winBytes d n)

/-- Commands whose inbox snapshot has still to read a line. -/
def snapshotsOf (d : Dev) (part line : Nat) : List Cmd :=
  d.host.accepted.filter fun m => m.part == part && (match m.wait with
    | .snapshot ls => ls.contains line
    | _ => false)

/-- An uncorrectable line of a host window (R622). -/
def windowUe (part addr : Nat) (d : Dev) : Dev :=
  let line := addr / 64 * 64
  let d1 := writeRange part line (zeros 64) d
  let owners := windowSlots d part addr
  let ev := fun (n : Nat) (e : Dev) => postEvent n 0 evMemUe ((owners.head?).getD 0) line 0 0 e
  let d2 := forAll (owners ++ (slotNumbers.filter fun n => slotAdmin d n && !owners.contains n)) ev d1
  forAll (snapshotsOf d2 part (line / 64)) (fun m e => failWith m stDataLost e) d2

/-- A 4 KiB block of HBM is removed from the T1 pool (R623). -/
def blockRetire (stack : Nat) (d : Dev) : Dev :=
  (((d.set (Reg.HBM_RETIRED_KIB stack) (d.get (Reg.HBM_RETIRED_KIB stack) + 4)).set Reg.RAS_HBM_RETIRED_KIB
    (d.get Reg.RAS_HBM_RETIRED_KIB + 4)).set Reg.STW_T1_FREE (d.get Reg.STW_T1_FREE - 4096)).set
    Reg.STW_T1_POOL (d.get Reg.STW_T1_POOL - 4096)

/-- The pseudo-channel of an HBM address: no rule maps addresses to pseudo-channels (log entry 3). -/
def pseudoOf (d : Dev) : Nat := Config.freeNat d.free % 64

/-- An address lies in the descriptor table or the page reference table (R139, R177). -/
def inTables (d : Dev) (addr : Nat) : Bool :=
  let t := d.get Reg.SESS_TABLE_BASE
  decide (t ≠ 0 ∧ t ≤ addr ∧ addr < t + 4294967296)
  || decide (d.kv.refBase ≠ 0 ∧ d.kv.refBase ≤ addr ∧ addr < d.kv.refBase + 2147483648)

/-- An uncorrectable line of HBM (R620-R623, R628); `injected` is the unit that ERR_INJECT names. -/
def hbmUe (addr : Nat) (injected : Option Nat) (d : Dev) : Dev :=
  let stack := addr / 2 ^ 36 % 8
  let unit := injected.getD (pseudoOf d)
  let d1 := (logError clsObject ecHbmUe (0x50 + stack) unit addr 0 0 injected.isSome (d.fresh).2).count (Reg.HBM_UE stack) 1
  if inTables d1 addr then fatalError 0 d1
  else
    let pages := d1.kv.pages.filter fun p => decide (p.tier = 1 ∧ p.loc ≤ addr ∧ addr < p.loc + pageSize p)
    let grans := d1.tier.granules.filter fun g => decide (g.tier = 1 ∧ g.loc ≤ addr ∧ addr < g.loc + granuleBytes)
    let d2 := forAll pages (fun p e => objectUe (.page p.id) e) d1
    let d3 := forAll grans (fun g e =>
      if g.hostWindow then windowUe g.part (g.idx * granuleBytes + (addr - g.loc)) e
      else objectUe (.granule g.part g.idx) e) d2
    blockRetire stack d3

/-- HBM_PATROL_SCRUB (R620, R626): one line of a stack. -/
def patrolScrub (stack line : Nat) (found : EccFind) (d : Dev) : Dev :=
  if 8 ≤ stack then d
  else
    let addr := stack * 2 ^ 36 + line * 64 % 2 ^ 36
    let d1 := d.count (Reg.HBM_SCRUB_LINES stack) 1
    match found with
    | .clean => d1
    | .corrected => (logCorrected ecHbmCe (0x50 + stack) (pseudoOf d1) addr false (d1.fresh).2).count (Reg.HBM_CE stack) 1
    | .uncorrectable => hbmUe addr none d1

/-! ### Sparing (R623) -/

/-- Spare Galleries of a die that are not used. -/
def spareGals (d : Dev) (die : Nat) : Nat :=
  if die = 0 then d.get Reg.RAS_SPARE_GAL_CD0 else d.get Reg.RAS_SPARE_GAL_CD1

/-- Register page of a logical Gallery: the page index follows the physical number (R23, R660). -/
def galPage (d : Dev) (g : Nat) : Nat := 0x100 + (galPhysical d g).getD g

/-- Set a Gallery's bit of GLB_GAL_RETIRED (R663). -/
def retireBit (phys : Nat) (d : Dev) : Dev :=
  d.set (Reg.GLB_GAL_RETIRED (phys / 64)) (setBit (d.get (Reg.GLB_GAL_RETIRED (phys / 64))) (phys % 64) true)

/-- A Gallery fails (R623): its quad is unavailable from the next seal on, and the retirement is recorded. Without a spare of
its die it is reported as degraded. -/
def galFail (g : Nat) (d : Dev) : Dev :=
  if d.ras.retired.contains g then d
  else
    let p := (galPhysical d g).getD g
    let d1 := retireBit p (setRas { d.ras with retired := d.ras.retired ++ [g] }
      { logError clsUnit ecGalleryCheck (galPage d g) g 0 0 0 false d with boot := { d.boot with retired := d.boot.retired ++ [p] } })
    let die := g / 64
    if spareGals d die ≤ d.ras.retired.countP fun x => x / 64 == die then unitDegraded (galPage d g) g d1 else d1

/-- A STEP-class error on a Gallery: RAS_GAL_UE_LIMIT of them within 24 h retire it (R623). -/
def galError (g : Nat) (d : Dev) : Dev :=
  let recent := (d.ras.galErrors.filter fun e => decide (d.clock < e.2 + 86400000000000)) ++ [(g, d.clock)]
  let d1 := setRas { d.ras with galErrors := recent } d
  if max 1 (d.get Reg.RAS_GAL_UE_LIMIT) ≤ recent.countP (fun e => e.1 == g) then galFail g d1 else d1

/-- HBM_SPARE_COPY (R623): a channel passes its limit; its contents go to the spare while it stays in service. -/
def spareCopy (stack channel ceLines retired : Nat) (d : Dev) : Dev :=
  if 8 ≤ stack ∨ (ceLines < max 1 (d.get Reg.RAS_HBM_CE_LIMIT) ∧ retired < 64)
      ∨ d.ras.spareCopies.any fun c => c.stack == stack ∧ c.channel = channel then d
  else if d.get (Reg.HBM_STATE stack) ≠ 0 then unitDegraded (0x50 + stack) channel d
  else (setRas { d.ras with spareCopies := d.ras.spareCopies ++ [⟨stack, channel, false⟩] } d).set (Reg.HBM_STATE stack) 1

/-- HBM_SPARE_SWITCH (R623): the switch in the guard window after the copy ends. -/
def spareSwitch (stack : Nat) (d : Dev) : Dev :=
  match d.ras.spareCopies.find? fun c => c.stack == stack && !c.done with
  | none => d
  | some c =>
    if d.tick.running ∧ ¬ d.tick.sealed then d
    else
      let used := d.get Reg.RAS_SPARE_HBM_USED
      unitSpared (0x50 + stack) c.channel (logError clsUnit ecUnitSpare (0x50 + stack) c.channel 0 0 0 false
        (((setRas { d.ras with spareCopies := d.ras.spareCopies.map fun x => if x == c then { c with done := true } else x } d).set
          (Reg.HBM_STATE stack) 2).set Reg.RAS_SPARE_HBM_USED (setBit used stack true)))

/-- WATCHDOG_EXPIRE (R623, R628): the core restarts; the third restart of a core within 60 s is fatal. -/
def watchdogExpire (core : Nat) (d : Dev) : Dev :=
  if d.get Reg.RAS_FATAL = 1 then d
  else
    let recent := (d.ras.restarts.filter fun r => decide (d.clock < r.2 + 60000000000)) ++ [(core, d.clock)]
    let d1 := (logError clsUnit ecWatchdog 6 core 0 0 0 false (setRas { d.ras with restarts := recent } d)).count
      Reg.RAS_WATCHDOG_RESTARTS 1
    if 3 ≤ recent.countP (fun r => r.1 == core) then fatalError 3 d1 else d1

/-! ### Self-tests (R70-R72, R626, R631) -/

/-- Gate time of a test in ns. -/
def testLength (kind : Nat) : Nat := if kind = 3 then 175000 else 40000

/-- A maintenance request: unit class 2 names an HBM stack and its pseudo-channel, class 3 a port and lane, class 1 a quad by
its first Gallery. -/
def maintReq (kind unit : Nat) (cmd : Option Cmd) (placed : Option Nat) : MaintReq :=
  { kind := kind
    unitClass := if kind = 1 then 2 else if kind = 2 then 3 else 1
    unit := if kind = 1 then unit / 64 else if kind = 2 then unit / 16 else 4 * unit
    sub := if kind = 1 then unit % 64 else if kind = 2 then unit % 16 else unit
    length := testLength kind
    cmd := cmd
    placed := placed
    asTick := false }

/-- Add a maintenance request. -/
def maintAdd (r : MaintReq) (d : Dev) : Dev := { d with tick := { d.tick with maint := d.tick.maint ++ [r] } }

/-- Remove a maintenance request. -/
def maintDrop (r : MaintReq) (d : Dev) : Dev := { d with tick := { d.tick with maint := d.tick.maint.erase r } }

/-- Checks of SELFTEST: kind and unit. -/
def selftestChecks (_ : Dev) (m : Cmd) : List (Bool × Nat) :=
  let k := argAt m.c 48 1
  let u := argAt m.c 49 2
  [(!(decide (k = 1 ∧ u < 512) || decide (k = 2 ∧ u / 16 < 16 ∧ u % 16 < 9) || decide (k = 3 ∧ u < 32)), stInvalidField)]

/-- SELFTEST (R70, R631): a lane calibration runs from the start of the tick whose plan it enters; the others wait for a
gate. -/
def selftestApply (m : Cmd) (d : Dev) : Dev :=
  let k := argAt m.c 48 1
  maintAdd (maintReq k (argAt m.c 49 2) (some m) (if k = 2 then some (planOf d) else none)) d

/-- QUAD_SELFTEST_DUE (R626): one quad after another. -/
def quadTestDue (d : Dev) : Dev :=
  let h := d.get Reg.RAS_GAL_TEST_HOURS
  if h = 0 ∨ d.clock < d.ras.lastQuadAt + h * 3600000000000 / 32 then d
  else maintAdd (maintReq 3 d.ras.nextQuad none none) (setRas { d.ras with
    nextQuad := (d.ras.nextQuad + 1) % 32
    lastQuadAt := d.clock } d)

/-- A test has run: whether it finds a fault, and in which Gallery of a quad, is not this model's to know (log entry 3). -/
def testRun (r : MaintReq) (d : Dev) : Dev :=
  let (i, d1) := (maintDrop r d).fresh
  let (j, d2) := d1.fresh
  let bad := Config.freeNat i % 2 == 1
  let d3 := (when (r.kind == 1) (fun e => e.count (Reg.HBM_RETRAINS r.unit) 1) d2).count Reg.RAS_SELFTESTS 1
  let d4 := if bad then
      (if r.kind = 3 then galFail (4 * r.sub + Config.freeNat j % 4) d3
       else unitDegraded (0x50 + r.unit) r.sub (logError clsUnit ecHbmUe (0x50 + r.unit) r.sub 0 0 0 false d3))
    else d3
  match r.cmd with
  | some m => if bad then failWith m 0x0901 d4 else complete m stSuccess 0 0 [] d4
  | none => d4

/-- The requests of a plan that need a gate or a maintenance tick. `number` counts as fired ticks are. -/
def maintOf (d : Dev) (number : Nat) : List MaintReq :=
  d.tick.maint.filter fun r => r.kind != 2 && r.placed == some number

/-- Lane calibrations of a tick start with it (R70, R444): one that cannot run completes at once. -/
def laneTests (number : Nat) (d : Dev) : Dev :=
  forAll (d.tick.maint.filter fun r => r.kind == 2 && r.placed.any fun n => decide (n ≤ number)) (fun r e =>
    let e1 := laneCalibration r.unit r.sub e
    let done := fun (z : Dev) => match r.cmd with
      | some m => complete m stSuccess 0 0 [] (maintDrop r z)
      | none => maintDrop r z
    if (portOf e1 r.unit).calLane.any fun c => c.1 == r.sub then
      { e1 with tick := { e1.tick with maint := e1.tick.maint.map fun x => if x == r then { r with placed := none } else x } }
    else done e1) d

/-! ### The commands (R631, R632) -/

/-- The records whose value of RAS_LOG_SEQ is at least the one wanted, oldest first (R627). -/
def errlogFrom (d : Dev) (first : Nat) : List ErrRec :=
  let seq := d.get Reg.RAS_LOG_SEQ
  (d.ras.log.take (min d.ras.log.length (if first ≤ seq then seq + 1 - max 1 first else 0))).reverse

/-- ERRLOG_READ (R627, R631). -/
def errlogApply (m : Cmd) (d : Dev) : Dev :=
  let recs := ((errlogFrom d (argAt m.c 48 8)).map errRecBytes).take (m.c.lenA / 64)
  complete m stSuccess recs.length 0 [(m.c.addrA, recs.flatten)] d

/-- DUMP_READ and DUMP_CLEAR (R630, R631). -/
def dumpReadApply (m : Cmd) (d : Dev) : Dev :=
  match d.ras.dump with
  | none => failWith m stDumpNone d
  | some x =>
    let b := ((dumpBytes x).drop (argAt m.c 48 8)).take m.c.lenA
    complete m stSuccess (min m.c.lenA (268435456 - argAt m.c 48 8)) 0 [(m.c.addrA, b)] d

/-- The dump and its mirror are erased. -/
def dumpErase (d : Dev) : Dev := (setRas { d.ras with dump := none } d).set Reg.RAS_DUMP_PRESENT 0

def dumpClearApply (m : Cmd) (d : Dev) : Dev :=
  if d.ras.dump.isNone then failWith m stDumpNone d else complete m stSuccess 0 0 [] (dumpErase d)

/-- Running steps on a Gallery. -/
def stepsOn (d : Dev) (g : Nat) : List SessKey :=
  (d.run.steps.filter fun s => s.started && !s.committed && sessGallery d s.key == g).map (·.key)

/-- Checks of ERR_INJECT: the class. -/
def injectChecks (d : Dev) (m : Cmd) : List (Bool × Nat) :=
  [(decide (2 < argAt m.c 48 1), stInvalidField), (d.get Reg.RAS_INJECT_EN != 1, stInjectDisabled)]

/-- ERR_INJECT (R632): the error is detected and contained as a real one of its class. -/
def injectApply (m : Cmd) (d : Dev) : Dev :=
  let unit := argAt m.c 49 2
  let addr := argAt m.c 56 8
  let stack := addr / 2 ^ 36 % 8
  complete m stSuccess 0 0 [] (match argAt m.c 48 1 with
    | 0 => (logCorrected ecHbmCe (0x50 + stack) unit addr true d).count (Reg.HBM_CE stack) 1
    | 1 =>
      let g := unit % 128
      let ks := stepsOn d g
      galError g (if ks.isEmpty then (logError clsStep ecGalleryCheck (galPage d g) g addr 0 0 true d).count Reg.RAS_STEP_ERR 1
        else forAll ks (fun k e => stepError k ecGalleryCheck (galPage d g) g true e) d)
    | _ => hbmUe addr (some unit) d)

def execSelftest (c : HostCmd) (s : State) : Host.Outcome State Fault Refusal := s.run (hostRow 0x88 selftestChecks selftestApply c)
def execErrlogRead (c : HostCmd) (s : State) : Host.Outcome State Fault Refusal := s.run (hostRow 0x89 noChecks errlogApply c)
def execDumpRead (c : HostCmd) (s : State) : Host.Outcome State Fault Refusal := s.run (hostRow 0x8A noChecks dumpReadApply c)
def execDumpClear (c : HostCmd) (s : State) : Host.Outcome State Fault Refusal := s.run (hostRow 0x8B noChecks dumpClearApply c)
def execErrInject (c : HostCmd) (s : State) : Host.Outcome State Fault Refusal := s.run (hostRow 0x8C injectChecks injectApply c)
def execHbmSpareCopy (stack channel ceLines retired : Nat) (s : State) : Host.Outcome State Fault Refusal :=
  s.run (spareCopy stack channel ceLines retired)
def execHbmSpareSwitch (stack : Nat) (s : State) : Host.Outcome State Fault Refusal := s.run (spareSwitch stack)
def execHbmPatrolScrub (stack line : Nat) (found : EccFind) (s : State) : Host.Outcome State Fault Refusal :=
  s.run (patrolScrub stack line found)
def execQuadSelftestDue (s : State) : Host.Outcome State Fault Refusal := s.run quadTestDue
def execWatchdogExpire (core : Nat) (s : State) : Host.Outcome State Fault Refusal := s.run (watchdogExpire core)
def execFatalError (cause : Nat) (s : State) : Host.Outcome State Fault Refusal := s.run (fatalError cause)

end Sys2Proof.Machine
end

