-- ==== Sys2Proof/Machine/Restore.lean ====
section
/-! DEFINITION. Restore, the catalogue, export and import, and the rows of the checkpoint chapter (R530-R542). -/

namespace Sys2Proof.Machine

open Sys2Proof

/-! ### Manifests (R530) -/

/-- Flags of a manifest. -/
def manifestFlags (s : Shard) : Nat := (if s.full then 1 else 0) + (if s.baseWeights then 2 else 0) + (if s.committed then 4 else 0)

/-- Chunks of the entries before each entry. -/
def firstChunks (acc : Nat) (l : List CkObj) : List (CkObj × Nat) :=
  match l with
  | [] => []
  | o :: r => (o, if o.chunks.isEmpty then 0 else acc) :: firstChunks (acc + o.chunks.length) r

/-- An object entry. -/
def objEntry (o : CkObj) (first : Nat) : Bytes :=
  le 1 o.kind ++ le 1 o.source ++ zeros 2 ++ le 4 o.valid ++ le 8 o.object ++ le 8 o.bytes.length ++ le 4 first
  ++ le 4 o.chunks.length

/-- The object entries and the chunk list. -/
def manifestBody (s : Shard) : Bytes :=
  ((firstChunks 0 s.entries).map fun e => objEntry e.1 e.2).flatten
  ++ ((s.entries.flatMap (·.chunks)).map fun c => c.hash ++ le 8 c.loc).flatten

/-- A shard manifest. -/
def manifestBytes (s : Shard) : Bytes :=
  le 4 0x4D504B43 ++ le 2 1 ++ le 2 s.slice ++ le 8 s.ckptId ++ le 8 s.tick ++ le 4 s.epoch ++ le 4 s.baseEpoch
  ++ le 8 s.baseTick ++ le 8 s.model ++ le 1 s.group ++ le 1 (manifestFlags s) ++ le 2 s.module_ ++ le 4 s.chainLen
  ++ le 8 s.entries.length ++ sha256 (manifestBody s) ++ zeros 32 ++ manifestBody s

/-- The bytes of CKPT_EXPORT: the manifest and the chunks in the order of its chunk list (log entry 27). -/
def exportShard (s : Shard) : Bytes :=
  manifestBytes s ++ ((s.entries.filter fun o => !o.chunks.isEmpty).map (·.bytes)).flatten

/-- An entry of an imported manifest: its fields, CHUNK_FIRST and CHUNK_COUNT. -/
def entryOf (b : Bytes) : CkObj × Nat × Nat × Nat :=
  ({ ckObj (byteAt b 0) (fieldAt b 8 8) 0 [] with
     source := byteAt b 1
     valid := fieldAt b 4 4
     page := byteAt b 0 == 5 || byteAt b 0 == 6 }, fieldAt b 16 8, fieldAt b 24 4, fieldAt b 28 4)

/-- The entries of a shard in host memory with their bytes, which follow the manifest. -/
def importObjs (b : Bytes) : List (CkObj × Nat × Nat × Nat) :=
  let n := fieldAt b 56 8
  (List.range (min n (b.length / 32))).map fun i => entryOf ((b.drop (128 + 32 * i)).take 32)

/-- Chunks of an imported shard. -/
def importChunks (b : Bytes) : Nat := ((importObjs b).map (·.2.2.2)).sum

/-- The objects of an imported shard with their bytes. -/
def importBodies (b : Bytes) : List CkObj :=
  let es := importObjs b
  let body := b.drop (128 + 32 * es.length + 40 * importChunks b)
  (es.foldl (fun (acc : List CkObj × Bytes) e =>
    let n := if e.2.2.2 = 0 then 0 else e.2.1
    (acc.1 ++ [{ e.1 with bytes := acc.2.take n }], acc.2.drop n)) ([], body)).1

/-- An entry breaks R530. -/
def entryBad (b : Bytes) (i : Nat) (e : CkObj × Nat × Nat × Nat) : Bool :=
  decide (8 < e.1.kind) || fieldAt b (128 + 32 * i + 2) 2 != 0
  || decide (e.2.2.2 ≠ 0 ∧ e.2.2.2 ≠ ceilDiv e.2.1 chunkBytes)
  || decide (importChunks b < e.2.2.1 + e.2.2.2)

/-- A shard in host memory breaks R530: the shards that Cregikor writes are FULL (R537). -/
def importBad (d : Dev) (key : Nat) (b : Bytes) : Bool :=
  let es := importObjs b
  let n := importChunks b
  let list := (b.drop (128 + 32 * es.length)).take (40 * n)
  let hashes := (List.range n).map fun i => (list.drop (40 * i)).take 32
  let flags := byteAt b 49
  fieldAt b 0 4 != 0x4D504B43 || fieldAt b 4 2 != 1 || decide (b.length < 128)
  || !bitAt flags 0 || decide (8 ≤ flags) || fieldAt b 28 4 != 0 || fieldAt b 32 8 != 0 || fieldAt b 52 4 != 1
  || decide (byteAt b 48 ≤ fieldAt b 6 2) || decide (1024 ≤ fieldAt b 50 2) || !allZero ((b.drop 96).take 32)
  || es.length != fieldAt b 56 8
  || (b.drop 64).take 32 != sha256 ((b.drop 128).take (32 * es.length + 40 * n))
  || (es.zip (List.range es.length)).any (fun e => entryBad b e.2 e.1)
  || ((importBodies b).flatMap fun o => (chunks (o.bytes.length + 1) chunkBytes o.bytes).map (chunkHash key)) != hashes
  || (findModel d (fieldAt b 40 8)).any fun m => m.group != byteAt b 48

/-! ### Building (R535) -/

/-- The page entries of a table's bytes: those of its leaves, in order (R174). -/
def tableOf (b : Bytes) : List PageEnt :=
  ((chunks (b.length + 1) 4096 b).filter fun n => byteAt n 0 == 0).flatMap fun n =>
    (List.range (min 126 (fieldAt n 2 2))).map fun i =>
      let e := (n.drop (64 + 32 * i)).take 32
      let f := fieldAt e 16 2
      ⟨fieldAt e 0 4, byteAt e 4, fieldAt e 6 2, fieldAt e 8 8, bitAt f 0, bitAt f 1, bitAt f 2, bitAt f 3⟩

/-- A text and a Fretboard generation from their bytes (R311). -/
def textGenOf (b : Bytes) : TextGen :=
  ⟨(b.drop 1).take (byteAt b 0), (b.drop 5).take (byteAt b 4), (b.drop 16).take (byteAt b 8)⟩
def fretGenOf (b : Bytes) : FretGen :=
  ⟨fieldAt b 0 2, ((List.range (min 1024 (fieldAt b 2 2))).map fun i => fieldAt b (64 + 2 * i) 2).reverse⟩

/-- A page from its captured bytes (R169), kept under a partition's key; its planes are those captured. -/
def pageOf (d : Dev) (part profile : Nat) (b : Bytes) : Page :=
  let cls := byteAt b 8
  let valid := fieldAt b 20 2
  { id := fieldAt b 0 8
    cls := cls
    fmt := byteAt b 9
    layers := fieldAt b 10 2
    heads := fieldAt b 12 2
    headDim := fieldAt b 14 2
    firstPos := fieldAt b 16 4
    valid := valid
    epoch := d.get Reg.CKPT_EPOCH
    model := fieldAt b 32 8
    tokens := (List.range valid).map fun i => fieldAt b (64 + 4 * i) 4
    prior := []
    profile := profile
    part := part
    keySlot := partKey d part
    planes := some (planesOf cls (fieldAt b 12 2) (fieldAt b 14 2) (byteAt b 9) (fieldAt b 10 2) valid b)
    count := 0
    tier := 1
    loc := 0
    backTier := noTier
    backLoc := 0
    t0 := none
    copies := 1
    copyIndex := 0
    pinned := false
    stack := 0
    sealRefs := 1 }

/-- An object of a session in the built state. -/
def builtObj (l : List CkObj) (kind ns sid : Nat) : Bytes :=
  ((l.find? fun o => o.kind == kind && o.ns == ns && o.object == sid).map (·.bytes)).getD []

/-- The state of a restored session (R535). -/
def restoredState (s : Nat) : Nat := if s = ssCreated then ssCreated else if s = ssExpired then ssExpired else ssParked

/-- A restored descriptor (R535, R536) from its 256 bytes and its other objects; the structures get new addresses. -/
def descOf (d : Dev) (part : Nat) (l : List CkObj) (ns sid : Nat) (a : Nat × Nat × Nat × Nat) : Desc :=
  let b := builtObj l 0 ns sid
  let t := builtObj l 2 ns sid
  let x3 := builtObj l 3 ns sid
  let x4 := builtObj l 4 ns sid
  let even := fieldAt b 16 6 % 2 == 0
  let st := restoredState (byteAt b 10)
  { newDesc d ⟨⟨0, 0, 0, 0, 0, 0, 0, 0, 0, 0, 0, 0, 0, 0, [], [], []⟩, .peer 0 0, part, false, 0, 0, 0, .none, [], none⟩ b a with
    state := st
    expiry := nextTickStart d
    stopReason := byteAt b 11
    committed := fieldAt b 16 6
    ctxLen := fieldAt b 24 4
    prevCtxLen := fieldAt b 28 4
    tokensLeft := fieldAt b 32 4
    hostLost := if bitAt (byteAt b 36) 0 then some (Config.freeNat d.free % 16) else none
    retries := byteAt b 37
    grammar := fieldAt b 128 4
    stopSet := fieldAt b 132 4
    parent := fieldAt b 176 8
    turnStarts := ((List.range 4).map fun i => (fieldAt b (192 + 12 * i) 6, fieldAt b (198 + 12 * i) 4)).filter fun q =>
      q != (0, 0)
    lastCommit := fieldAt b 240 8
    tokens := (List.range (t.length / 4)).map fun i => fieldAt t (4 * i) 4
    table := if st = ssParked then tableOf (builtObj l 1 ns sid) else []
    text := textGenOf (if even then x3.take 128 else x3.drop 128)
    textPrev := textGenOf (if even then x3.drop 128 else x3.take 128)
    fret := fretGenOf (if even then x4.take 2112 else x4.drop 2112)
    fretPrev := fretGenOf (if even then x4.drop 2112 else x4.take 2112) }

/-- The sessions that a built state brings to this member: captured descriptors whose HOME it is (R536). -/
def builtSessions (d : Dev) (l : List CkObj) : List SessKey :=
  (l.filter fun o => o.kind == 0 && fieldAt o.bytes 14 2 == d.self).map fun o => ⟨o.ns, o.object⟩

/-- T1 bytes of the objects that a restore builds (R683). -/
def builtBytes (d : Dev) (l : List CkObj) : Nat :=
  (l.map fun o =>
    if o.kind = 0 then structBytes
    else if o.kind = 5 then pageSize (pageOf d 0 0 o.bytes)
    else if o.kind = 7 then (o.image.map (·.bytes)).getD o.bytes.length
    else 0).sum

/-! ### Selecting a checkpoint (R532-R534) -/

/-- Usable pairs of the own slice, newest first (R533): within CKPT_ID and the latest tick. -/
def usablePairs (d : Dev) (kind target model ckptId latest : Nat) : List (Nat × Nat) :=
  let ok := (shardsOf d kind target model).filter fun s =>
    (chainOf d 64 s).isSome && (ckptId == 0 || s.ckptId == ckptId) && (latest == 0 || decide (s.tick ≤ latest))
  (ok.map fun s => (s.ckptId, s.tick)).foldr (fun p l =>
    (l.filter fun q => decide (p.2 < q.2)) ++ [p] ++ l.filter fun q => !decide (p.2 < q.2)) []

/-- What the other members answer is not this module's to know: a free truth value for each question (log entry 28). -/
def othersSay (alone : Bool) (d : Dev) : Bool × Dev :=
  if alone then (true, d)
  else
    let (i, d1) := d.fresh
    (Config.freeNat i % 2 == 1, d1)

/-- The objects of a checkpoint: the chain of its shard applied in order. -/
def builtOf (d : Dev) (kind target model : Nat) (p : Nat × Nat) : List CkObj :=
  match (shardsOf d kind target model).find? fun s => s.ckptId == p.1 && s.tick == p.2 with
  | none => []
  | some s => ((chainOf d 64 s).map applyChain).getD []

/-- An entry of the CKPT_MIXED list (R534). -/
def mixedEntry (s : Shard) : Bytes :=
  le 8 s.ckptId ++ le 8 s.tick ++ le 2 s.slice ++ le 1 ((if s.committed then 1 else 0) + (if s.verifyFailed then 2 else 0))
  ++ zeros 5

/-- Shards in descending tick order. -/
def tickDown (l : List Shard) : List Shard :=
  l.foldr (fun s r => (r.filter fun q => decide (s.tick < q.tick)) ++ [s] ++ r.filter fun q => !decide (s.tick < q.tick)) []

/-- The restore completes with CKPT_MIXED (R533, R534): the entries of the own slice, and those of the other members, which
are free. -/
def mixedDone (m : Cmd) (kind target model : Nat) (d : Dev) : Dev :=
  let own := (tickDown (shardsOf d kind target model)).map mixedEntry
  match (findModel d model).filter fun q => decide (1 < q.group) with
  | none =>
    complete m stCkptMixed own.length 0 (if m.c.lenA = 0 then [] else [(m.c.addrA, (own.flatten).take m.c.lenA)]) d
  | some q =>
    let (i, d1) := d.fresh
    let (j, d2) := d1.fresh
    let before := if q.slice = 0 then 0 else Config.freeNat i
    let after := if q.slice + 1 = q.group then 0 else Config.freeNat j
    let list := (List.range before).flatMap (fun k => freeBytes (i + 65536 * k) 24) ++ own.flatten
      ++ (List.range after).flatMap fun k => freeBytes (j + 65536 * k) 24
    complete m stCkptMixed (before + own.length + after) 0 (if m.c.lenA = 0 then [] else [(m.c.addrA, list.take m.c.lenA)]) d2

/-- A restore of the scope is running. -/
def findRestore (d : Dev) (model : Nat) : Option Restore := d.ckpt.restores.find? fun r => r.model == model

/-- What a descriptor names is loaded on this member (R532). -/
def dependsOk (d : Dev) (model : Nat) (l : List CkObj) : Bool :=
  ((findModel d model).isSome || l.any fun o => o.kind == 7)
  && (l.filter fun o => o.kind == 0 && restoredState (byteAt o.bytes 10) == ssParked).all fun o =>
    let g := fieldAt o.bytes 128 4
    let s := fieldAt o.bytes 132 4
    let h := (samplerOf ((o.bytes.drop 144).take 32)).bias
    (vocabFor d model).isSome
    && (g == 0 || loadKnown d .grammar g model) && (s == 0 || loadKnown d .stopset s model)
    && (h == 0 || loadKnown d .bias h model)

/-- The scope is busy on this member (R532). -/
def scopeBusy (d : Dev) (model : Nat) (l : List CkObj) : Bool :=
  d.sess.descs.any fun x => x.state != ssFree && (x.model == model
    || l.any fun o => o.kind == 0 && o.object == x.sid && o.ns == x.ns)

/-- The end of a restore that did not succeed. -/
def restoreDrop (r : Restore) (d : Dev) : Dev :=
  poolGive r.part r.reserve (setCkpt { d.ckpt with restores := d.ckpt.restores.erase r } d)

/-- A restore goes on with its next candidate; with none left it completes with CKPT_MIXED (R533). -/
def restoreNext (r : Restore) (d : Dev) : Dev :=
  let d1 := restoreDrop r d
  match r.cands with
  | [] => match r.cmd with
    | some m => mixedDone m r.kind r.target r.model d1
    | none => d1
  | p :: rest =>
    let l := builtOf d1 r.kind r.target r.model p
    let need := builtBytes d1 l
    if ¬ poolRoom d1 r.part need then
      match r.cmd with
      | some m => failWith m stTierFull d1
      | none => d1
    else
      let r1 := { r with
        cands := rest
        chosen := p
        built := l
        reserve := need
        ready := false }
      poolTake r.part need (setCkpt { d1.ckpt with restores := d1.ckpt.restores ++ [r1] } d1)

/-- A restore of a scope begins on this member (R532, R533). -/
def restoreBegin (kind target model part ckptId latest : Nat) (cmd : Option Cmd) (d : Dev) : Dev :=
  let alone := ((findModel d model).map (·.group)).getD 1 ≤ 1
  let fresh := fun (s : Shard) => if s.kind == kind && s.target == target && s.model == model then
    { s with verifyFailed := false } else s
  let (cands, d1) := (usablePairs d kind target model ckptId latest).foldl (fun (acc : List (Nat × Nat) × Dev) p =>
    let (ok, e) := othersSay alone acc.2
    (if ok then acc.1 ++ [p] else acc.1, e)) ([], setCkpt { d.ckpt with shards := d.ckpt.shards.map fresh } d)
  restoreNext ⟨model, kind, target, part, cmd, cands, (0, 0), [], 0, false⟩ d1

/-! ### The commands -/

/-- CKPT_STORE_SET (R516). -/
def storeSetApply (m : Cmd) (d : Dev) : Dev :=
  let n := argAt m.c 48 1
  let kind := argAt m.c 49 1
  let target := argAt m.c 50 2 % 1024
  guarded m
    [(decide (7 < n), stInvalidField),
     (decide (2 < kind) || (kind != 0 && !storeThere d kind target), stCkptStoreInvalid),
     (kind == 0 && d.isM0, stUnsupported)] (fun e =>
    let s : CkStore := ⟨n, kind, if kind = 0 then e.self else target, argAt m.c 56 8⟩
    complete m stSuccess 0 0 [] (setCkpt { e.ckpt with
      stores := e.ckpt.stores.filter (fun x => x.num != n) ++ [s] } e)) d

/-- Region names of CKPT_BEGIN (R538). -/
def beginRegions (c : HostCmd) : List Nat := (List.range (c.lenA / 8)).map fun i => fieldAt c.dataA (8 * i) 8

/-- CKPT_BEGIN's list is whole names, at most 64. -/
def beginChecks (_ : Dev) (m : Cmd) : List (Bool × Nat) :=
  [(m.c.lenA % 8 != 0 || decide (512 < m.c.lenA), stInvalidField)]

/-- A capture or a restore of the scope is running (R540, R542). -/
def scopeRuns (d : Dev) (model : Nat) : Bool := (findCapture d model).isSome || (findRestore d model).isSome

/-- CKPT_BEGIN (R521): the capture tick follows the tick of the command's plan. -/
def beginApply (m : Cmd) (d : Dev) : Dev :=
  let h := m.c.addrB
  let st := findStore d (argAt m.c 56 1)
  let mdl := findModel d h
  guarded m
    [(mdl.any (fun q => q.part != m.part), stPartitionDenied),
     (mdl.isNone, stModelUnknown),
     (!st.any (fun s => storeThere d s.kind s.target), stCkptStoreInvalid),
     (scopeRuns d h, stCkptBusy)] (fun e =>
    match st with
    | none => e
    | some s =>
      let a : CaptureMsg :=
        { model := h
          ckptId := argAt m.c 48 8
          tick := e.get Reg.TICK_NOW + 2
          store := s.num
          full := bitAt (argAt m.c 57 1) 0
          baseWeights := bitAt (argAt m.c 57 1) 1
          part := m.part
          regions := beginRegions m.c }
      sendAll (otherMembers e h) (.capture a) (captureStart a s.kind s.target (some m) e)) d

/-- CKPT_ABORT (R540). -/
def ckptAbortApply (m : Cmd) (d : Dev) : Dev :=
  match findCapture d m.c.addrB with
  | none => failWith m stCkptNotFound d
  | some c => guarded m [(c.part != m.part, stPartitionDenied)]
      (fun e => complete m stSuccess 0 0 [] (captureFail c.model stCkptAborted e)) d

/-- CKPT_RESTORE (R532, R533, R683). -/
def restoreApply (m : Cmd) (d : Dev) : Dev :=
  let h := m.c.addrB
  let st := findStore d (argAt m.c 48 1)
  let s := st.getD ⟨0, 0, 0, 0⟩
  let mdl := findModel d h
  let alone := (mdl.map (·.group)).getD 1 ≤ 1
  let id := argAt m.c 56 8
  let l := match usablePairs d s.kind s.target h id m.c.step with
    | p :: _ => builtOf d s.kind s.target h p
    | [] => []
  let (free, d1) := othersSay alone d
  let (have_, d2) := othersSay alone d1
  let (room, d3) := othersSay alone d2
  guarded m
    [(mdl.any (fun q => q.part != m.part), stPartitionDenied),
     (!room || (!l.isEmpty && !poolRoom d m.part (builtBytes d l)), stTierFull),
     (!st.any (fun s => storeThere d s.kind s.target), stCkptStoreInvalid),
     (scopeRuns d h, stCkptBusy),
     (!free || scopeBusy d h l, stCkptScopeBusy),
     (!have_ || (!l.isEmpty && !dependsOk d h l), stCkptDependency)] (fun e =>
    restoreBegin s.kind s.target h m.part id m.c.step (some m)
      (sendAll (otherMembers e h) (.restore ⟨h, s.num, id, m.c.step, m.part⟩) e)) d3

/-- RESTORE_RX (R532): a member checks its scope; where that fails the member that executes the command learns of it. -/
def restoreRx (src : Nat) (r : RestoreMsg) (d : Dev) : Dev :=
  match findStore d r.store with
  | none => d
  | some s =>
    let l := match usablePairs d s.kind s.target r.model r.ckptId r.latest with
      | p :: _ => builtOf d s.kind s.target r.model p
      | [] => []
    if peerState d src = .lost ∨ ¬ storeThere d s.kind s.target ∨ scopeRuns d r.model ∨ scopeBusy d r.model l
        ∨ ¬ dependsOk d r.model l then d
    else restoreBegin s.kind s.target r.model r.part r.ckptId r.latest none d

/-- The chunks of a built state have the content hashes of their chunk lists, under the key of the partition that they are
restored to (R533, R612). -/
def builtSound (d : Dev) (r : Restore) : Bool :=
  r.built.all fun o => o.chunks.isEmpty
    || (chunks (o.bytes.length + 1) chunkBytes o.bytes).map (chunkHash (partKey d r.part)) == o.chunks.map (·.hash)

/-- RESTORE_BUILD_DONE (R533, R535): every member has finished; or a chunk has failed its verification, which drops the
candidate. While the key rings are disabled no chunk can be read (R613). -/
def restoreBuilt (model : Nat) (verified : Bool) (d : Dev) : Dev :=
  match findRestore d model with
  | none => d
  | some r =>
    if r.ready then d
    else if d.sec.keysOff then
      let d1 := restoreDrop r d
      match r.cmd with
      | some m => failWith m stKeysDisabled d1
      | none => d1
    else if verified && builtSound d r then setCkpt { d.ckpt with
        restores := d.ckpt.restores.map fun x => if x == r then { r with ready := true } else x } d
    else
      let mark := fun (s : Shard) =>
        if s.kind == r.kind && s.target == r.target && s.model == model && (s.ckptId, s.tick) == r.chosen then
          { s with verifyFailed := true } else s
      restoreNext r ((setCkpt { d.ckpt with shards := d.ckpt.shards.map mark } d).count Reg.CKPT_RESTORE_FALLBACK 1)

/-- Install a restored page, under its captured PAGE_ID where no page holds it: the number it has. -/
def installPage (part : Nat) (profile : Nat) (o : CkObj) (acc : List (Nat × Nat) × Dev) : List (Nat × Nat) × Dev :=
  let d := acc.2
  let p := pageOf d part profile o.bytes
  let own := p.id / 2 ^ 54 == d.self
  let taken := (findPage d p.id).isSome
  let id := if taken then d.self * 2 ^ 54 + d.kv.nextPage else p.id
  let next := if taken then d.kv.nextPage + 1 else if own then max d.kv.nextPage (p.id % 2 ^ 54 + 1) else d.kv.nextPage
  let (loc, d1) := poolAlloc part (pageSize p) d
  (acc.1 ++ [(o.object, id)], setKv { d1.kv with
    pages := d1.kv.pages ++ [{ p with
      id := id
      loc := loc }]
    nextPage := next } d1)

/-- A restored session enters the device (R535, R536). -/
def installSession (part : Nat) (l : List CkObj) (ids : List (Nat × Nat)) (k : SessKey) (d : Dev) : Dev :=
  let (a, d1) := structAddrs d
  let x := descOf d1 part l k.ns k.sid a
  let ents := (x.table.filterMap fun e => (assocGet ids e.page).map fun n => { e with page := n })
  let d2 := forAll (ents.map (·.page)) refPage (addDesc { x with table := ents } d1)
  if x.state = ssParked then parkDemote k false d2 else d2

/-- The profile of the sessions that hold a page, for its header does not give it. -/
def profileOf (l : List CkObj) (page : Nat) : Nat :=
  match l.find? fun o => o.kind == 1 && (tableOf o.bytes).any fun e => e.page == page with
  | some o => byteAt (builtObj l 0 o.ns o.object) 39
  | none => 0

/-- All members switch to the restored state (R535, R536). -/
def restoreSwitch (r : Restore) (d : Dev) : Dev :=
  let l := r.built
  let keys := builtSessions d l
  let used := keys.flatMap fun k => (tableOf (builtObj l 1 k.ns k.sid)).map (·.page)
  let d1 := restoreDrop r d
  let imgs := l.filterMap (·.image)
  let d2 := forAll (imgs.filter fun q => (findModel d1 q.handle).isNone) (fun q e =>
    poolTake q.part q.bytes (setTier { e.tier with models := e.tier.models ++ [q] } e)) d1
  let (ids, d3) := (l.filter fun o => (o.kind == 5 || o.kind == 6) && used.contains o.object).foldl
    (fun acc o => installPage r.part (profileOf l o.object) o acc) ([], d2)
  let d4 := (forAll keys (installSession r.part l ids) d3).count Reg.CKPT_RESTORES 1
  match r.cmd with
  | some m => complete m stSuccess r.chosen.2 0 [] d4
  | none => d4

/-- The switch of every restore whose members have finished, at a seal (R535). -/
def restoreSeal (d : Dev) : Dev := forAll (d.ckpt.restores.filter (·.ready)) restoreSwitch d

/-- CKPT_DROP (R539). -/
def dropApply (m : Cmd) (d : Dev) : Dev :=
  let st := findStore d (argAt m.c 56 1)
  let s := st.getD ⟨0, 0, 0, 0⟩
  let x := (shardsOf d s.kind s.target m.c.addrB).find? fun x => x.ckptId == argAt m.c 48 8 && x.committed
  let names := fun (b y : Shard) => !y.full && y.baseTick == b.tick && y.model == b.model && y.kind == b.kind && y.target == b.target
  guarded m
    [((findModel d m.c.addrB).any (fun q => q.part != m.part), stPartitionDenied),
     (st.isNone, stCkptStoreInvalid),
     (x.isNone, stCkptNotFound),
     (x.any (fun b => d.ckpt.shards.any (names b) || d.ckpt.captures.any fun c => c.shard.any (names b)), stCkptInChain)]
    (fun e => match x with
      | none => e
      | some b =>
        let key := partKey e m.part
        complete m stSuccess 0 0 [] (when (b.kind == 0) (t4Free b.manLoc)
          (forAll (b.entries.flatMap (·.chunks)) (chunkDrop b.kind b.target key)
            (setCkpt { e.ckpt with shards := e.ckpt.shards.erase b } e)))) d

/-- CKPT_LIST: catalogue entries of 64 bytes, whose layout is not stated: free bytes (log entry 27). -/
def listApply (m : Cmd) (d : Dev) : Dev :=
  match findStore d (argAt m.c 48 1) with
  | none => failWith m stCkptStoreInvalid d
  | some s =>
    let n := (d.ckpt.shards.filter fun x => x.kind == s.kind && x.target == s.target && x.committed).length
    let (i, d1) := d.fresh
    complete m stSuccess n 0 [(m.c.addrA, (freeBytes i (64 * n)).take m.c.lenA)] d1

/-- CKPT_EXPORT (R537, R538): the newest shard of the CKPT_ID in the store. -/
def exportApply (m : Cmd) (d : Dev) : Dev :=
  match findStore d (argAt m.c 56 1) with
  | none => failWith m stCkptStoreInvalid d
  | some s =>
    match newestShard (d.ckpt.shards.filter fun x => x.kind == s.kind && x.target == s.target && x.ckptId == argAt m.c 48 8) with
    | none => failWith m stCkptNotFound d
    | some x =>
      let b := (exportShard x).take m.c.lenA
      complete m stSuccess b.length 0 [(m.c.addrA, b)] d

/-- CKPT_IMPORT (R530, R537): the shard's chunks are written into the store like those of a capture. -/
def importApply (m : Cmd) (d : Dev) : Dev :=
  let b := padTo m.c.lenA m.c.dataA
  let h := fieldAt b 40 8
  let st := findStore d (argAt m.c 48 1)
  guarded m
    [(!st.any (fun s => storeThere d s.kind s.target), stCkptStoreInvalid),
     (scopeRuns d h, stCkptBusy),
     (importBad d (partKey d m.part) b, stCkptImageInvalid)] (fun e =>
    match st with
    | none => e
    | some s =>
      let objs := importBodies b
      let sess := (objs.filter fun o => o.kind == 0)
      let ns := fun (o : CkObj) => ((sess.find? fun x => x.object == o.object).map fun x => fieldAt x.bytes 8 2).getD 0
      let todo := objs.map fun o => if o.kind ≤ 4 then { o with ns := ns o } else o
      let sh : Shard :=
        { kind := s.kind
          target := s.target
          ckptId := fieldAt b 8 8
          tick := fieldAt b 16 8
          epoch := fieldAt b 24 4
          baseEpoch := 0
          baseTick := 0
          model := h
          group := byteAt b 48
          slice := fieldAt b 6 2
          module_ := fieldAt b 50 2
          full := true
          baseWeights := bitAt (byteAt b 49) 1
          committed := false
          verifyFailed := false
          chainLen := 1
          manLoc := 0
          entries := [] }
      let c : Capture :=
        { model := h
          ckptId := sh.ckptId
          tick := sh.tick
          kind := s.kind
          target := s.target
          full := true
          baseWeights := sh.baseWeights
          part := m.part
          regions := []
          cmd := some m
          import_ := true
          shard := some sh
          todo := todo
          chunks := []
          placed := none
          buffered := []
          bufUsed := 0
          bufBytes := 0
          votes := []
          committed := false }
      remoteStart h (setCkpt { e.ckpt with captures := e.ckpt.captures ++ [captureSkip (todo.length + 1) c] } e)) d

/-! ### The meanings -/

def execCkptStoreSet (c : HostCmd) (s : State) : Host.Outcome State Fault Refusal := s.run (hostRow 0x78 noChecks storeSetApply c)
def execCkptBegin (c : HostCmd) (s : State) : Host.Outcome State Fault Refusal := s.run (hostRow 0x79 beginChecks beginApply c)
def execCkptAbort (c : HostCmd) (s : State) : Host.Outcome State Fault Refusal := s.run (hostRow 0x7A noChecks ckptAbortApply c)
def execCkptRestore (c : HostCmd) (s : State) : Host.Outcome State Fault Refusal := s.run (hostRow 0x7B keysChecks restoreApply c)
def execCkptDrop (c : HostCmd) (s : State) : Host.Outcome State Fault Refusal := s.run (hostRow 0x7C noChecks dropApply c)
def execCkptList (c : HostCmd) (s : State) : Host.Outcome State Fault Refusal := s.run (hostRow 0x7D noChecks listApply c)
def execCkptExport (c : HostCmd) (s : State) : Host.Outcome State Fault Refusal := s.run (hostRow 0x7E keysChecks exportApply c)
def execCkptImport (c : HostCmd) (s : State) : Host.Outcome State Fault Refusal := s.run (hostRow 0x7F noChecks importApply c)
def execCaptureAnnounceRx (src : Nat) (a : CaptureMsg) (s : State) : Host.Outcome State Fault Refusal :=
  s.run (fromPeer src (captureAnnounceRx src a))
def execCaptureChunkDone (model : Nat) (firstOk secondOk : Bool) (s : State) : Host.Outcome State Fault Refusal :=
  s.run (chunkDone model firstOk secondOk)
def execShardCommit (model : Nat) (readEqual : Bool) (s : State) : Host.Outcome State Fault Refusal :=
  s.run (shardCommit model readEqual)
def execShardVoteRx (src model ckpt : Nat) (s : State) : Host.Outcome State Fault Refusal := s.run (fromPeer src (shardVoteRx src model ckpt))
def execRestoreRx (src : Nat) (r : RestoreMsg) (s : State) : Host.Outcome State Fault Refusal := s.run (fromPeer src (restoreRx src r))
def execRestoreBuildDone (model : Nat) (verified : Bool) (s : State) : Host.Outcome State Fault Refusal :=
  s.run (restoreBuilt model verified)

end Sys2Proof.Machine
end

