-- ==== Sys2Proof/Machine/Search.lean ====
section
/-! DEFINITION. Alcove vector search: indexes, side lists, searches and merge-back (spec/15). -/

namespace Sys2Proof.Machine

open Sys2Proof

/-- Search status codes (R511). -/
def stIndexUnknown : Nat := 0x0600
def stIndexTableFull : Nat := 0x0601
def stIndexBusy : Nat := 0x0602
def stNotBuilding : Nat := 0x0603
def stRecordInvalid : Nat := 0x0604
def stSideListFull : Nat := 0x0605
def stIndexNoSpace : Nat := 0x0606
def stFilterInvalid : Nat := 0x0607

/-- Search events (R512). -/
def evIndexDamaged : Nat := 0x0680
def evMergeBackDone : Nat := 0x0681

/-- Replace the search state. -/
def setSrch (x : SrchSt) (d : Dev) : Dev := { d with srch := x }

/-- Bytes of a code of a width (R494, R495). -/
def codeBytes (width : Nat) : Nat := 32 * 2 ^ width

/-- Records of a chunk (R495, R496). -/
def chunkRecs (width : Nat) : Nat := 65472 / (4 + codeBytes width)

/-- Map units of a generation of `n` records. -/
def genUnits (width n : Nat) : Nat := ceilDiv n (chunkRecs width)

/-- Bytes of a side entry (R500). -/
def sideEntBytes (width : Nat) : Nat := 8 + codeBytes width

/-- An index by handle. -/
def findIndex (d : Dev) (h : Nat) : Option Index := d.srch.indexes.find? fun x => x.handle == h

/-- Record the indexes and the bytes of side lists (R513). -/
def srchSync (d : Dev) : Dev :=
  (d.set Reg.VS_INDEXES d.srch.indexes.length).set Reg.VS_SIDE_BYTES
    ((d.srch.indexes.map fun x => x.side.length * sideEntBytes x.width).sum)

/-- Put back an index. -/
def putIndex (x : Index) (d : Dev) : Dev :=
  srchSync (setSrch { d.srch with indexes := d.srch.indexes.map fun y => if y.handle == x.handle then x else y } d)

/-- The index that a command names: its partition's own (R494, R511). -/
def indexCodes (d : Dev) (m : Cmd) : List (Bool × Nat) :=
  match findIndex d (argAt m.c 48 2) with
  | none => [(true, stIndexUnknown)]
  | some x => [(x.part != m.part, stPartitionDenied)]

/-- Run `f` on the named index unless a check stops the command. -/
def onIndex (m : Cmd) (checks : Index → List (Bool × Nat)) (f : Index → Dev → Dev) (d : Dev) : Dev :=
  match findIndex d (argAt m.c 48 2) with
  | none => failWith m stIndexUnknown d
  | some x => guarded m (indexCodes d m ++ checks x) (f x) d

/-- Take `n` map units of T4 for search data. -/
def unitsAlloc (n : Nat) (d : Dev) : Option Nat × Dev :=
  if n = 0 then (some mapUnits, d)
  else if t4Room d (n * 65536) then t4Alloc (n * 65536) d
  else (none, d)

/-- Post an event about an index to its partition (R512). -/
def indexEvent (x : Index) (code detail : Nat) (d : Dev) : Dev := (postPartition x.part code detail x.handle 0 0 d).2

/-- Generations that neither are current nor are pinned by a search or a build are freed (R508). -/
def sweepGens (h : Nat) (d : Dev) : Dev :=
  match findIndex d h with
  | none => d
  | some x =>
    let held := fun (g : Gen) => g.num == x.gen || d.srch.searches.any (fun s => s.handle == h && s.gen == g.num)
    let gone := x.gens.filter fun g => !held g
    forAll gone (fun g e => t4Free g.first e) (putIndex { x with gens := x.gens.filter held } d)

/-- The current generation. -/
def curGen (x : Index) : Option Gen := x.gens.find? fun g => g.num == x.gen

/-! ### Creating, loading, committing, destroying (R494-R496, R510) -/

/-- A width code above 3 is out of range. -/
def indexCreateChecks (_ : Dev) (m : Cmd) : List (Bool × Nat) := [(decide (3 < argAt m.c 48 1), stInvalidField)]

/-- A handle that no index holds: which one is the device's choice (log entry 3). -/
def freeHandle (d : Dev) (i : Nat) : Nat :=
  let h := Config.freeNat i % 65536
  ((List.range 65).map fun k => (h + k) % 65536).find? (fun k => (findIndex d k).isNone) |>.getD h

/-- INDEX_CREATE. -/
def indexCreateApply (m : Cmd) (d : Dev) : Dev :=
  guarded m [(decide (64 ≤ d.srch.indexes.length), stIndexTableFull)] (fun e =>
    let (i, e1) := e.fresh
    let h := freeHandle e1 i
    let x : Index :=
      { handle := h
        part := m.part
        width := argAt m.c 48 1
        keySlot := e1.get (Reg.SLOT_KEY m.c.slot)
        gen := 0
        gens := []
        nextSeq := 0
        side := []
        mirror := (mapUnits, 0)
        build := none }
    complete m stSuccess h 0 [] (srchSync (setSrch { e1.srch with indexes := e1.srch.indexes ++ [x] } e1))) d

/-- Records of INDEX_LOAD: identifier and code (R510). -/
def loadRecs (width : Nat) (b : Bytes) : List (Nat × Bytes) :=
  (chunks (b.length / (4 + codeBytes width)) (4 + codeBytes width) b).map fun r => (fieldAt r 0 4, r.drop 4)

/-- INDEX_LOAD: records join the open build. -/
def indexLoadApply (m : Cmd) (d : Dev) : Dev :=
  onIndex m (fun x =>
    let w := 4 + codeBytes x.width
    [(m.c.lenA % w != 0, stInvalidField),
     ((x.build.map (·.merge.isSome)).getD false, stIndexBusy),
     ((loadRecs x.width (padTo m.c.lenA m.c.dataA)).any (fun r => r.1 == 0xFFFFFFFF), stRecordInvalid)])
    (fun x e =>
      let all := ((x.build.map (·.recs)).getD []) ++ loadRecs x.width (padTo m.c.lenA m.c.dataA)
      if genUnits x.width all.length = 0 ∨ t4Room e (genUnits x.width all.length * 65536) then
        complete m stSuccess all.length 0 [] (putIndex { x with build := some ⟨all, none, mapUnits, 0, false⟩ } e)
      else failWith m stIndexNoSpace (putIndex { x with build := none } e)) d

/-- Free the mirror and the T1 bytes of a side list's first `n` entries; what stays is mirrored again by the next append. -/
def sideShrink (n : Nat) (x : Index) (d : Dev) : Index × Dev :=
  let left := x.side.drop n
  let d1 := poolGive x.part ((x.side.length - left.length) * sideEntBytes x.width) d
  if left.isEmpty then ({ x with
      side := []
      mirror := (mapUnits, 0) }, t4Free x.mirror.1 d1)
  else ({ x with side := left }, d1)

/-- INDEX_COMMIT: the open build becomes the current generation. -/
def indexCommitApply (m : Cmd) (d : Dev) : Dev :=
  onIndex m (fun x => [((x.build.map (·.merge.isSome)).getD true, stNotBuilding)]) (fun x e =>
    let recs := (x.build.map (·.recs)).getD []
    let n := genUnits x.width recs.length
    match unitsAlloc n e with
    | (none, _) => failWith m stIndexNoSpace (putIndex { x with build := none } e)
    | (some u, e1) =>
      let g := x.gen + 1
      let (x1, e2) := if bitAt (argAt m.c 50 1) 0 then sideShrink x.side.length x e1 else (x, e1)
      let e3 := putIndex { x1 with
        gen := g
        gens := ⟨g, recs, u⟩ :: x1.gens
        build := none } e2
      let e4 := if n = 0 then e3 else flashWrite (.index x.handle g) u n (n * 65536) e3
      complete m stSuccess g 0 [] (sweepGens x.handle e4)) d

/-- A search or a build pins the index (R509). -/
def indexPinned (d : Dev) (x : Index) : Bool := x.build.isSome || d.srch.searches.any fun s => s.handle == x.handle

/-- INDEX_DESTROY. -/
def indexDestroyApply (m : Cmd) (d : Dev) : Dev :=
  onIndex m (fun x => [(indexPinned d x, stIndexBusy)]) (fun x e =>
    let (_, e1) := sideShrink x.side.length x e
    let e2 := forAll x.gens (fun g y => t4Free g.first y) e1
    complete m stSuccess 0 0 [] (srchSync (setSrch { e2.srch with
      indexes := e2.srch.indexes.filter fun y => y.handle != x.handle } e2))) d

/-! ### The side list (R500-R502) -/

/-- Entries of SIDE_APPEND. -/
def sideRecs (width : Nat) (b : Bytes) : List Bytes := chunks (b.length / sideEntBytes width) (sideEntBytes width) b

/-- An entry breaks R496 or R500. -/
def sideBad (r : Bytes) : Bool :=
  fieldAt r 0 4 == 0xFFFFFFFF || decide (2 ≤ byteAt r 4) || fieldAt r 5 3 != 0 || (byteAt r 4 == 1 && !allZero (r.drop 8))

/-- SIDE_APPEND: it completes when its entries are programmed in the mirror (R501). -/
def sideAppendApply (m : Cmd) (d : Dev) : Dev :=
  onIndex m (fun x =>
    let rs := sideRecs x.width (padTo m.c.lenA m.c.dataA)
    [(m.c.lenA % sideEntBytes x.width != 0, stInvalidField),
     (rs.any sideBad, stRecordInvalid),
     (decide (16777216 < x.side.length + rs.length), stSideListFull),
     (!poolRoom d x.part (rs.length * sideEntBytes x.width), stIndexNoSpace)]) (fun x e =>
    let rs := sideRecs x.width (padTo m.c.lenA m.c.dataA)
    let ents := (rs.zip (List.range rs.length)).map fun p =>
      (⟨x.nextSeq + p.2, fieldAt p.1 0 4, byteAt p.1 4 == 1, p.1.drop 8⟩ : SideEnt)
    let len := x.side.length + rs.length
    let units := unitsOf (len * sideEntBytes x.width)
    if rs.isEmpty then complete m stSuccess len 0 [] e
    else
      let fits := decide (units ≤ x.mirror.2)
      match (if fits then (some x.mirror.1, e) else unitsAlloc units e) with
      | (none, _) => failWith m stIndexNoSpace e
      | (some u, e1) =>
        let e2 := poolTake x.part (rs.length * sideEntBytes x.width) (if fits then e1 else t4Free x.mirror.1 e1)
        let from_ := if fits then x.side.length * sideEntBytes x.width / 65536 else 0
        flashWrite (.side m len) (u + from_) (units - from_) (rs.length * sideEntBytes x.width) (putIndex { x with
          nextSeq := x.nextSeq + rs.length
          side := x.side ++ ents
          mirror := (u, max units x.mirror.2) } e2)) d

/-- The entries of a pinned side list that are live (R502). -/
def liveSide (side : List SideEnt) : List SideEnt :=
  side.filter fun e => !e.tomb && !(side.any fun t => t.tomb && t.id == e.id && decide (e.seq < t.seq))

/-- Identifiers that a pinned side list removes from the generation (R502). -/
def tombIds (side : List SideEnt) : List Nat := (side.filter (·.tomb)).map (·.id)

/-! ### SEARCH (R497-R499, R503-R507) -/

/-- K_OUT and K_INT of a SEARCH. -/
def searchK (c : HostCmd) : Nat × Nat :=
  let k := argAt c 52 2
  (k, if argAt c 54 2 = 0 then k else argAt c 54 2)

/-- Ranges of a SEARCH (R510). -/
def searchChecks (_ : Dev) (m : Cmd) : List (Bool × Nat) :=
  let q := argAt m.c 50 1
  let (k, ki) := searchK m.c
  [(!decide (1 ≤ q ∧ q ≤ 16 ∧ 1 ≤ k ∧ k ≤ 4096 ∧ k ≤ ki ∧ ki ≤ 4096 ∧ q * (128 + 8 * k) ≤ m.c.lenB), stInvalidField)]

/-- Header bytes of a filter object, and the whole object (R505). -/
def filterHead (d : Dev) (part addr : Nat) : Bytes := readRange d part addr 16
def filterLen (h : Bytes) : Nat := 16 + (fieldAt h 8 4 + 7) / 8

/-- A filter object breaks R505 or lies in an unmapped granule. -/
def filterBad (d : Dev) (part addr : Nat) : Bool :=
  let h := filterHead d part addr
  decide (2 ^ 52 < addr + 16) || anyUnmapped d part (granulesOf addr 16)
  || decide (2 ≤ byteAt h 0) || fieldAt h 1 3 != 0 || fieldAt h 8 4 == 0 || fieldAt h 12 4 != 0
  || decide (2 ^ 52 < addr + filterLen h) || anyUnmapped d part (granulesOf addr (filterLen h))

/-- An identifier passes a filter object (R505). -/
def filterPass (f : Option Bytes) (id : Nat) : Bool :=
  match f with
  | none => true
  | some b =>
    let first := fieldAt b 4 4
    let inside := decide (first ≤ id ∧ id < first + fieldAt b 8 4)
    let bit := bitAt (byteAt b (16 + (id - first) / 8)) ((id - first) % 8)
    if byteAt b 0 = 0 then inside && bit else !(inside && bit)

/-- VS_PASS_QUERIES in force (R513). -/
def passQueries (d : Dev) : Nat := clampNat 1 16 (d.get Reg.VS_PASS_QUERIES)

/-- A query joins the last pass of its pins and seal that has room, or a new one (R498). -/
def joinPass (id handle gen pinEnd sealNo q : Nat) (d : Dev) : Dev :=
  match d.srch.passes.getLast? with
  | some p =>
    if p.handle = handle ∧ p.gen = gen ∧ p.pinEnd = pinEnd ∧ p.sealNo = sealNo ∧ p.serves.length < passQueries d then
      setSrch { d.srch with passes := d.srch.passes.dropLast ++ [{ p with serves := p.serves ++ [(id, q)] }] } d
    else setSrch { d.srch with
      passes := d.srch.passes ++ [⟨d.srch.nextId, handle, gen, pinEnd, sealNo, [(id, q)]⟩]
      nextId := d.srch.nextId + 1 } d
  | none => setSrch { d.srch with
      passes := [⟨d.srch.nextId, handle, gen, pinEnd, sealNo, [(id, q)]⟩]
      nextId := d.srch.nextId + 1 } d

/-- SEARCH takes effect (R497, R505): it pins the generation, the side list's length and the filter object. -/
def searchApply (m : Cmd) (d : Dev) : Dev :=
  onIndex m (fun x =>
    let f := argAt m.c 56 8
    [(m.c.lenA != argAt m.c 50 1 * codeBytes x.width, stInvalidField),
     (f != 0 && anyGranule d m.part (granulesOf f (filterLen (filterHead d m.part f))) (·.lost), stRangeLost),
     (f != 0 && filterBad d m.part f, stFilterInvalid)]) (fun x e =>
    let f := argAt m.c 56 8
    let nq := argAt m.c 50 1
    let (k, ki) := searchK m.c
    let id := e.srch.nextId
    let qs := chunks nq (codeBytes x.width) (padTo m.c.lenA m.c.dataA)
    let run : SearchRun :=
      { id := id
        cmd := m
        handle := x.handle
        gen := x.gen
        side := x.side
        sideLen := x.side.length
        filter := if f = 0 then none else some (readRange e m.part f (filterLen (filterHead e m.part f)))
        queries := (List.range nq).zip qs
        kOut := k
        kInt := ki }
    let e1 := setSrch { e.srch with
      searches := e.srch.searches ++ [run]
      nextId := id + 1 } e
    forAll (List.range nq) (fun q y => joinPass id x.handle x.gen x.nextSeq (y.get Reg.TICK_NOW) q y)
      (e1.count Reg.VS_SEARCHES 1)) d

/-- A candidate: identifier, distance, source rank and sequence number (R503). -/
structure Cand where
  id : Nat
  dist : Nat
  rank : Nat
  seq : Nat
  deriving DecidableEq, Repr

/-- Bits set in a byte. -/
def popByte (b : Byte) : Nat := ((List.range 8).filter fun i => bitAt b.toNat i).length

/-- Hamming distance of two codes (R499). -/
def hamming (a b : Bytes) : Nat := ((a.zip b).map fun p => popByte (p.1 ^^^ p.2)).sum

/-- The order of R503: distance, identifier, source rank, higher sequence first. -/
def candBefore (a b : Cand) : Bool :=
  decide (a.dist < b.dist) || (a.dist == b.dist && (decide (a.id < b.id) || (a.id == b.id && (decide (a.rank < b.rank)
    || (a.rank == b.rank && decide (b.seq < a.seq))))))

/-- Insert a candidate in order. -/
def candInsert (x : Cand) (l : List Cand) : List Cand :=
  match l with
  | [] => [x]
  | y :: r => if candBefore y x then y :: candInsert x r else x :: y :: r

/-- Candidates in order. -/
def candSort (l : List Cand) : List Cand := l.foldr candInsert []

/-- The channel of a map unit (R472). -/
def unitChannel (d : Dev) (u : Nat) : Nat :=
  match (d.flash.map ++ d.flash.writes.flatMap (·.chunks)).find? fun m => m.unit == u with
  | some m => m.channel
  | none => 0

/-- The records of a generation that a pass reads, with their channels: lost units are skipped (R509). -/
def scanned (d : Dev) (width : Nat) (g : Gen) : List (Nat × Nat × Bytes) :=
  let n := chunkRecs width
  (List.range (genUnits width g.recs.length)).flatMap fun i =>
    if d.flash.lost.contains (g.first + i) then []
    else ((g.recs.drop (n * i)).take n).map fun r => (unitChannel d (g.first + i), r.1, r.2)

/-- Lost units of a generation. -/
def lostUnits (d : Dev) (width : Nat) (g : Gen) : Nat :=
  (List.range (genUnits width g.recs.length)).countP fun i => d.flash.lost.contains (g.first + i)

/-- Keep the first entry of each identifier. -/
def dedupIds (l : List Cand) (seen : List Nat) : List Cand :=
  match l with
  | [] => []
  | x :: r => if seen.contains x.id then dedupIds r seen else x :: dedupIds r (x.id :: seen)

/-- What the merge of one query gives: its result bytes and TOMBSTONED, DUP_MERGED, FILTERED and FILTER_SHORT (R503-R506). -/
structure QueryOut where
  bytes : Bytes
  tombs : Nat
  dups : Nat
  filtered : Nat
  short : Bool
  deriving DecidableEq, Repr

/-- One query over the scanned records and the pinned side list. -/
def searchQuery (s : SearchRun) (q : Nat) (code : Bytes) (recs : List (Nat × Nat × Bytes)) (lost : Nat) : QueryOut :=
  let chan := fun c => (candSort ((recs.filter fun r => r.1 == c).map fun r =>
    (⟨r.2.1, hamming code r.2.2, 1 + c, 0⟩ : Cand))).take s.kInt
  let flash := (List.range 32).flatMap chan
  let live := (candSort ((liveSide s.side).map fun e => (⟨e.id, hamming code e.code, 0, e.seq⟩ : Cand))).take s.kInt
  let kept := flash.filter fun c => !(tombIds s.side).contains c.id
  let all := candSort (kept ++ live)
  let uniq := dedupIds all []
  let list := uniq.take s.kInt
  let pass := list.filter fun c => filterPass s.filter c.id
  let short := decide (pass.length < s.kOut ∧ list.length = s.kInt)
  let tombs := flash.length - kept.length
  let dups := all.length - uniq.length
  let filtered := list.length - pass.length
  let n := recs.length + s.side.countP fun e => !e.tomb
  let head := le 2 s.handle ++ le 1 q ++ le 1 ((if short then 1 else 0) + (if lost = 0 then 0 else 2)) ++ le 4 s.gen
    ++ le 4 s.sideLen ++ le 4 tombs ++ le 4 filtered ++ le 4 lost ++ le 8 n ++ le 2 s.kInt ++ zeros 30
  ⟨head ++ selectionResult .uint32 false s.kOut dups (pass.map fun c => (c.id, c.dist)), tombs, dups, filtered, short⟩

/-- One query of a pass is answered: its result goes to the result area; the last one completes the SEARCH. -/
def answerQuery (recs : List (Nat × Nat × Bytes)) (lost : Nat) (sq : Nat × Nat) (d : Dev) : Dev :=
  match d.srch.searches.find? fun s => s.id == sq.1 with
  | none => d
  | some s =>
    match s.queries.find? fun q => q.1 == sq.2 with
    | none => d
    | some q =>
      let r := searchQuery s q.1 q.2 recs lost
      let d1 := (((d.count Reg.DUP_MERGED r.dups).count Reg.VS_TOMBSTONED r.tombs).count Reg.VS_FILTERED r.filtered).count
        Reg.VS_FILTER_SHORT (if r.short then 1 else 0)
      let d2 := hostData s.cmd.c.slot [(s.cmd.c.addrB + q.1 * (128 + 8 * s.kOut), r.bytes)] d1
      let left := s.queries.filter fun z => z.1 != q.1
      if left.isEmpty then
        sweepGens s.handle (complete s.cmd stSuccess 0 0 [] (setSrch { d2.srch with
          searches := d2.srch.searches.filter fun z => z.id != s.id } d2))
      else setSrch { d2.srch with searches := d2.srch.searches.map fun z =>
        if z.id = s.id then { z with queries := left } else z } d2

/-- SEARCH_PASS_DONE (R498, R499, R509): passes end in the order in which their searches took effect. -/
def searchPassDone (id : Nat) (d : Dev) : Dev :=
  match d.srch.passes with
  | [] => d
  | p :: rest =>
    if p.id ≠ id then d
    else
      match findIndex d p.handle with
      | none => setSrch { d.srch with passes := rest } d
      | some x =>
        let g : Gen := (x.gens.find? fun g => g.num == p.gen).getD ⟨0, [], mapUnits⟩
        let recs := scanned d x.width g
        let lost := lostUnits d x.width g
        let side := match d.srch.searches.find? fun s => p.serves.any fun q => q.1 == s.id with
          | some s => s.side.countP fun e => !e.tomb
          | none => 0
        let d1 := (((setSrch { d.srch with passes := rest } d).count Reg.VS_PASSES 1).count Reg.VS_CODES_SCANNED
          (recs.length + side)).count Reg.VS_LOST_UNITS lost
        forAll p.serves (answerQuery recs lost)
          (when (decide (0 < lost)) (indexEvent x evIndexDamaged (min 0xFFFFFFFF lost)) d1)

/-! ### Merge-back (R508) -/

/-- MERGE_BACK: the build starts. -/
def mergeBackApply (m : Cmd) (d : Dev) : Dev :=
  onIndex m (fun x => [(x.build.isSome, stIndexBusy)]) (fun x e =>
    let old := ((curGen x).map (·.recs)).getD []
    let recs := (old.filter fun r => !(tombIds x.side).contains r.1) ++ (liveSide x.side).map fun s => (s.id, s.code)
    let n := genUnits x.width recs.length
    match unitsAlloc n e with
    | (none, _) => failWith m stIndexNoSpace e
    | (some u, e1) =>
      let e2 := putIndex { x with build := some ⟨recs, some m, u, x.nextSeq, false⟩ } e1
      if n = 0 then e2 else flashWrite (.index x.handle (x.gen + 1)) u n (n * 65536) e2) d

/-- MERGE_BACK_BUILD_DONE: the build is complete once its chunks are programmed. -/
def mergeBuildDone (h : Nat) (d : Dev) : Dev :=
  match findIndex d h with
  | none => d
  | some x =>
    match x.build with
    | none => d
    | some b =>
      if b.merge.isNone ∨ d.flash.writes.any (fun w => w.use == FlashUse.index h (x.gen + 1)) then d
      else putIndex { x with build := some { b with ready := true } } d

/-- The first seal after a merge-back's build is complete (R508). -/
def mergeSeal (d : Dev) : Dev :=
  forAll d.srch.indexes (fun x e =>
    match x.build with
    | none => e
    | some b =>
      match b.merge with
      | none => e
      | some m =>
        if ¬ b.ready then e
        else
          let g := x.gen + 1
          let (x1, e1) := sideShrink (x.side.countP fun s => decide (s.seq < b.pinEnd)) x e
          let e2 := putIndex { x1 with
            gen := g
            gens := ⟨g, b.recs, b.first⟩ :: x1.gens
            build := none } e1
          let e3 := (indexEvent x evMergeBackDone g (sweepGens x.handle e2)).count Reg.VS_MERGE_BACKS 1
          complete m stSuccess g 0 [] e3) d

/-- Input power is lost: builds are abandoned (R509). -/
def buildsAbandon (d : Dev) : Dev :=
  forAll d.srch.indexes (fun x e =>
    match x.build with
    | none => e
    | some b => putIndex { x with build := none } (if b.merge.isSome then t4Free b.first e else e)) d

/-! ### The meanings -/

def execIndexCreate (c : HostCmd) (s : State) : Host.Outcome State Fault Refusal :=
  s.run (hostRow 0x70 indexCreateChecks indexCreateApply c)
def execIndexLoad (c : HostCmd) (s : State) : Host.Outcome State Fault Refusal := s.run (hostRow 0x71 noChecks indexLoadApply c)
def execIndexCommit (c : HostCmd) (s : State) : Host.Outcome State Fault Refusal :=
  s.run (hostRow 0x72 noChecks indexCommitApply c)
def execSideAppend (c : HostCmd) (s : State) : Host.Outcome State Fault Refusal := s.run (hostRow 0x73 noChecks sideAppendApply c)
def execSearch (c : HostCmd) (s : State) : Host.Outcome State Fault Refusal := s.run (hostRow 0x74 (fun d m => searchChecks d m ++ keysChecks d m) searchApply c)
def execMergeBack (c : HostCmd) (s : State) : Host.Outcome State Fault Refusal := s.run (hostRow 0x75 noChecks mergeBackApply c)
def execIndexDestroy (c : HostCmd) (s : State) : Host.Outcome State Fault Refusal :=
  s.run (hostRow 0x76 noChecks indexDestroyApply c)
def execSearchPassDone (id : Nat) (s : State) : Host.Outcome State Fault Refusal := s.run (searchPassDone id)
def execMergeBackBuildDone (handle : Nat) (s : State) : Host.Outcome State Fault Refusal := s.run (mergeBuildDone handle)

end Sys2Proof.Machine
end

