-- ==== Sys2Proof/Machine/Security.lean ====
section
/-! DEFINITION. Firmware images, measurement, attestation, key rings and debug (spec/19). -/

namespace Sys2Proof.Machine

open Sys2Proof

/-- Security status codes (R616); those of the key checks stand in Host.lean. -/
def stFwSigInvalid : Nat := 0x0800
def stFwRollback : Nat := 0x0801
def stFwBusy : Nat := 0x0802
def stKeyInUse : Nat := 0x0805
def stAttestExhausted : Nat := 0x0807

/-- Security events (R617). -/
def evAttestLow : Nat := 0x0880
def evKeyRetired : Nat := 0x0881

/-- Replace the state of the security complex. -/
def setSec (x : SecSt) (d : Dev) : Dev := { d with sec := x }

/-! ### Measurement (R599, R600) -/

/-- An event that MR6 records: its opcode, 0 for a debug unlock (R599). -/
def extendEvent (op : Nat) (d : Dev) : Dev := extendMr 6 (sha256 (Config.mr6Record op d.now)) d

/-- MEASURE_EXTEND (R599, R615). -/
def measureApply (m : Cmd) (d : Dev) : Dev := complete m stSuccess 0 0 [] (extendMr 7 (padTo 32 m.c.dataA) d)

/-! ### Attestation (R601-R604) -/

/-- Bytes of a report and its signature (R601). -/
def attestBytes : Nat := 10812

/-- Signing indices: 2^40, reserved in blocks of 2^20 (R602). -/
def signBlock : Nat := 1048576

/-- Bytes 0-607 of a report (R601). -/
def attestReport (nonce : Bytes) (index : Nat) (d : Dev) : Bytes :=
  le 4 0x54415A53 ++ le 2 1 ++ le 1 (d.get Reg.GLB_VARIANT)
  ++ le 1 (d.get Reg.SEC_FW_FALLBACK + 2 * d.get Reg.SEC_DEBUG_UNLOCKED)
  ++ le 8 (d.get Reg.GLB_SERIAL_LO) ++ le 8 (d.get Reg.GLB_SERIAL_HI) ++ le 8 (d.get Reg.GLB_LOT)
  ++ ((List.range 8).flatMap fun k => le 4 ((d.sec.rollback[k]?).getD 0))
  ++ ((List.range 8).flatMap fun i => le 32 (d.get (Reg.SEC_MR i)))
  ++ keyState d ++ padTo 32 nonce ++ le 8 d.now ++ le 8 index ++ zeros 176

/-- Checks of ATTEST: the output holds a whole report. -/
def attestChecks (_ : Dev) (m : Cmd) : List (Bool × Nat) := [(decide (m.c.lenB < attestBytes), stInvalidField)]

/-- ATTEST (R601-R603): the index lies in a block whose end has been reserved first; ATTEST_LOW is posted once. -/
def attestApply (m : Cmd) (d : Dev) : Dev :=
  let i := d.sec.sigNext
  if 2 ^ 40 ≤ i then failWith m stAttestExhausted d
  else
    let left := 2 ^ 40 - (i + 1)
    let low := decide (left < 2 ^ 30) && !d.sec.lowPosted
    let report := attestReport (padTo 32 m.c.dataA) i d
    let d1 := (setSec { d.sec with
      sigNext := i + 1
      sigEnd := if i < d.sec.sigEnd then d.sec.sigEnd else d.sec.sigEnd + signBlock
      lowPosted := d.sec.lowPosted || low } d).set Reg.SEC_ATTEST_LEFT left
    complete m stSuccess i 0 [(m.c.addrB, report ++ (List.range 10204).map (Config.hssByte i report))]
      (when low (fun e => postAdmins none evAttestLow (left % 2 ^ 32) e) (d1.count Reg.SEC_ATTESTS 1))

/-- ATTEST_CERT (R604): what the output has no room for is left out. -/
def attestCertApply (m : Cmd) (d : Dev) : Dev :=
  let b := Config.attestCert.take m.c.lenB
  complete m stSuccess b.length 0 [(m.c.addrB, b)] d

/-! ### Images (R593-R598) -/

/-- The SVN of an image is below its kind's rollback counter (R596). -/
def imageOld (d : Dev) (f : ImageFile) : Bool := decide (f.svn < (d.sec.rollback[f.kind]?).getD 0)

/-- An image verifies: header, digest and signature (R594, R595). -/
def imageSound (f : ImageFile) : Bool :=
  f.magic == 0x4D495A53 && decide (1 ≤ f.kind ∧ f.kind ≤ 4 ∧ f.svn < 2 ^ 32) && f.length == f.body.length
  && f.digest == sha256 f.body && f.sigOk

/-- What a bank keeps of an image. -/
def imageOf (f : ImageFile) : Image := ⟨f.kind, f.svn, f.digest⟩

/-- The images of an image set (R615). -/
def stagedImages (m : Cmd) : List ImageFile := Config.imageSet (padTo m.c.lenA m.c.dataA)

/-- FW_STAGE (R598, R614-R616): the images are checked, then written into the bank that is not running. How long the writing
takes is not stated (log entry 3). -/
def fwStageApply (m : Cmd) (d : Dev) : Dev :=
  let l := stagedImages m
  let bad := l.isEmpty || l.any fun f => !imageSound f
  match lowest [(bad, stFwSigInvalid), (l.any (imageOld d), stFwRollback), (d.sec.staging.isSome, stFwBusy)] with
  | some st => failWith m st (when bad (fun e => e.count Reg.SEC_SIG_FAIL 1) d)
  | none =>
    let (i, d1) := d.fresh
    setSec { d1.sec with staging := some (m, l.map imageOf, d1.clock + Config.freeNat i) }
      { d1 with host := { d1.host with accepted := d1.host.accepted ++ [{ m with wait := .unit }] } }

/-- The writing of an image set has ended. -/
def stageDone (d : Dev) : Dev :=
  match d.sec.staging with
  | none => d
  | some (m, l, t) =>
    if d.clock < t then d
    else complete m stSuccess 0 0 [] (setSec (if d.get Reg.SEC_FW_BANK = 0 then
        { d.sec with
          bankB := l
          staging := none }
      else
        { d.sec with
          bankA := l
          staging := none }) d)

/-- Checks of FW_ACTIVATE: the bank. -/
def fwActivateChecks (_ : Dev) (m : Cmd) : List (Bool × Nat) := [(decide (2 ≤ argAt m.c 48 1), stInvalidField)]

/-- FW_ACTIVATE (R598). -/
def fwActivateApply (m : Cmd) (d : Dev) : Dev :=
  complete m stSuccess 0 0 [] (setSec { d.sec with active := argAt m.c 48 1 } d)

/-- Rollback counters after FW_COMMIT (R597): each rises to the SVN of the running image of its kind. -/
def raisedCounters (d : Dev) : List Nat :=
  (d.sec.rollback.zip (List.range d.sec.rollback.length)).map fun p => max p.1 ((assocGet d.sec.running p.2).getD 0)

/-- FW_COMMIT (R597, R599). -/
def fwCommitApply (m : Cmd) (d : Dev) : Dev :=
  complete m stSuccess 0 0 [] (extendEvent 0x85 (setSec { d.sec with rollback := raisedCounters d } d))

/-! ### Key rings (R605-R607) -/

/-- A key slot is named by a bound host slot, a partition key, a port or an extent (R607). -/
def keyNamed (d : Dev) (ring slot : Nat) : Bool :=
  if ring = 0 then
    slotNumbers.any (fun n => slotServed d n && d.get (Reg.SLOT_KEY n) == slot)
    || (List.range 8).any (fun p => d.get (Reg.SEC_PART_KEY p) == 64 + slot)
    || d.fab.extents.any (fun x => x.keySlot == slot)
  else (List.range 16).any fun p => d.get (Reg.KEY_SLOT p) == slot || d.get (Reg.KEY_NEXT p) == slot

/-- Checks of KEY_RETIRE: the ring and the slot. -/
def keyRetireChecks (_ : Dev) (m : Cmd) : List (Bool × Nat) :=
  [(decide (2 ≤ argAt m.c 48 1 ∨ (if argAt m.c 48 1 = 0 then 64 else 16) ≤ argAt m.c 49 1), stInvalidField)]

/-- KEY_RETIRE at the seal (R607, R614). -/
def keyRetireApply (m : Cmd) (d : Dev) : Dev :=
  let ring := argAt m.c 48 1
  let slot := argAt m.c 49 1
  let present := d.get (if ring = 0 then Reg.SEC_TENANT_PRESENT else Reg.SEC_FABRIC_PRESENT)
  let retired := if ring = 0 then Reg.SEC_TENANT_RETIRED else Reg.SEC_FABRIC_RETIRED
  guarded m [(!bitAt present slot, stKeySlotEmpty), (bitAt (d.get retired) slot, stKeySlotRetired),
    (keyNamed d ring slot, stKeyInUse)] (fun e =>
    let v := setBit (e.get retired) slot true
    let e1 := setSec (if ring = 0 then { e.sec with tenantRetired := v } else { e.sec with fabricRetired := v }) (e.set retired v)
    complete m stSuccess 0 0 [] (postAdmins none evKeyRetired (ring + 2 * slot) (extendEvent 0x86 e1))) d

/-! ### Debug (R613) -/

/-- DEBUG_UNLOCK (R613): after the boot ROM has completed, a token that verifies opens the interface and disables the rings. -/
def debugUnlock (token : Bytes) (d : Dev) : Dev :=
  let st := d.get Reg.GLB_BOOT_STAGE
  if st < 3 ∨ st = 7 then d
  else
    match d.sec.nonce with
    | none => d
    | some n =>
      if Config.tokenOk (d.get Reg.GLB_SERIAL_LO + 2 ^ 64 * d.get Reg.GLB_SERIAL_HI) n token then
        (extendEvent 0 (setSec { d.sec with
          keysOff := true
          jtagOpen := true
          nonce := none } d)).set Reg.SEC_DEBUG_UNLOCKED 1
      else d.count Reg.SEC_SIG_FAIL 1

def execAttest (c : HostCmd) (s : State) : Host.Outcome State Fault Refusal := s.run (hostRow 0x80 attestChecks attestApply c)
def execAttestCert (c : HostCmd) (s : State) : Host.Outcome State Fault Refusal := s.run (hostRow 0x81 noChecks attestCertApply c)
def execMeasureExtend (c : HostCmd) (s : State) : Host.Outcome State Fault Refusal := s.run (hostRow 0x82 noChecks measureApply c)
def execFwStage (c : HostCmd) (s : State) : Host.Outcome State Fault Refusal := s.run (hostRow 0x83 noChecks fwStageApply c)
def execFwActivate (c : HostCmd) (s : State) : Host.Outcome State Fault Refusal :=
  s.run (hostRow 0x84 fwActivateChecks fwActivateApply c)
def execFwCommit (c : HostCmd) (s : State) : Host.Outcome State Fault Refusal := s.run (hostRow 0x85 noChecks fwCommitApply c)
def execKeyRetire (c : HostCmd) (s : State) : Host.Outcome State Fault Refusal := s.run (hostRow 0x86 keyRetireChecks keyRetireApply c)
def execDebugUnlock (token : Bytes) (s : State) : Host.Outcome State Fault Refusal := s.run (debugUnlock token)

end Sys2Proof.Machine
end

