-- ==== Sys2Proof/Machine/Opcodes.lean ====
section
/-! DEFINITION. The opcodes by number: the checks that each makes at acceptance and the effect it takes, for commands that are
fetched, forwarded, or taken at a seal (R95-R98, R103, R125, R131). The effects are those of the rows. -/

namespace Sys2Proof.Machine

open Sys2Proof

/-- The checks of an opcode at acceptance, beside the general ones. -/
def opChecks (op : Nat) (d : Dev) (m : Cmd) : List (Bool × Nat) :=
  match op with
  | 0x01 => createSqChecks d m
  | 0x02 => deleteSqChecks d m
  | 0x03 => createCqChecks d m
  | 0x04 => deleteCqChecks d m
  | 0x05 => createRingChecks .stream 0 1023 d m
  | 0x06 => deleteStreamChecks d m
  | 0x07 => createRingChecks .event 1 255 d m
  | 0x08 => deleteEventChecks d m
  | 0x09 => abortChecks d m
  | 0x21 => appendChecks d m
  | 0x2B => publishChecks d m
  | 0x40 => rangeFieldChecks d m
  | 0x41 => rangeFieldChecks d m
  | 0x42 => rangePlaceChecks d m
  | 0x43 => rangeCopyChecks d m
  | 0x44 => rangeCopyChecks d m
  | 0x45 => modelLoadChecks d m
  | 0x47 => parkPolicyChecks d m
  | 0x50 => routeLoadChecks d m
  | 0x51 => exportSetChecks d m
  | 0x54 => keysChecks d m
  | 0x55 => declareChecks d m
  | 0x66 => tokenizeChecks d m
  | 0x67 => detokenizeChecks d m
  | 0x70 => indexCreateChecks d m
  | 0x74 => searchChecks d m ++ keysChecks d m
  | 0x79 => beginChecks d m
  | 0x7B => keysChecks d m
  | 0x7E => keysChecks d m
  | 0x80 => attestChecks d m
  | 0x84 => fwActivateChecks d m
  | 0x86 => keyRetireChecks d m
  | 0x88 => selftestChecks d m
  | 0x8C => injectChecks d m
  | 0x98 => timeSetChecks d m
  | 0xA0 => partConfigChecks d m
  | 0xA1 => ctxSetChecks d m
  | 0xA2 => ctxQueryChecks d m
  | _ => []

/-- The effect of an opcode. -/
def opApply (op : Nat) (m : Cmd) (d : Dev) : Dev :=
  match op with
  | 0x00 => nopApply m d
  | 0x01 => createSqApply m d
  | 0x02 => deleteSqApply m d
  | 0x03 => createCqApply m d
  | 0x04 => deleteCqApply m d
  | 0x05 => createStreamApply m d
  | 0x06 => deleteStreamApply m d
  | 0x07 => createEventApply m d
  | 0x08 => deleteEventApply m d
  | 0x09 => abortApply m d
  | 0x20 => createApply m d
  | 0x21 => appendApply m d
  | 0x22 => waitApply m d
  | 0x23 => parkApply m d
  | 0x24 => stopApply m d
  | 0x25 => rewindApply m d
  | 0x26 => forkApply m d
  | 0x27 => migrateApply m d
  | 0x28 => destroyApply m d
  | 0x29 => queryApply m d
  | 0x2A => modifyApply m d
  | 0x2B => publishApply m d
  | 0x40 => rangeMapApply m d
  | 0x41 => rangeUnmapApply m d
  | 0x42 => rangePlaceApply m d
  | 0x43 => rangeCopyInApply m d
  | 0x44 => rangeCopyOutApply m d
  | 0x45 => modelLoadApply m d
  | 0x46 => modelUnloadApply m d
  | 0x47 => parkPolicyApply m d
  | 0x48 => t3AddApply m d
  | 0x49 => t3RemoveApply m d
  | 0x4A => partitionPullApply m d
  | 0x50 => routeLoadApply m d
  | 0x51 => exportSetApply m d
  | 0x52 => extentPutApply m d
  | 0x53 => extentFreeApply m d
  | 0x54 => nmOpApply m d
  | 0x55 => declareApply m d
  | 0x60 => loadApply .vocab m d
  | 0x61 => freeApply .vocab m d
  | 0x62 => loadApply .grammar m d
  | 0x63 => freeApply .grammar m d
  | 0x64 => loadApply .stopset m d
  | 0x65 => freeApply .stopset m d
  | 0x66 => passStart m d
  | 0x67 => passStart m d
  | 0x70 => indexCreateApply m d
  | 0x71 => indexLoadApply m d
  | 0x72 => indexCommitApply m d
  | 0x73 => sideAppendApply m d
  | 0x74 => searchApply m d
  | 0x75 => mergeBackApply m d
  | 0x76 => indexDestroyApply m d
  | 0x78 => storeSetApply m d
  | 0x79 => beginApply m d
  | 0x7A => ckptAbortApply m d
  | 0x7B => restoreApply m d
  | 0x7C => dropApply m d
  | 0x7D => listApply m d
  | 0x7E => exportApply m d
  | 0x7F => importApply m d
  | 0x80 => attestApply m d
  | 0x81 => attestCertApply m d
  | 0x82 => measureApply m d
  | 0x83 => fwStageApply m d
  | 0x84 => fwActivateApply m d
  | 0x85 => fwCommitApply m d
  | 0x86 => keyRetireApply m d
  | 0x88 => selftestApply m d
  | 0x89 => errlogApply m d
  | 0x8A => dumpReadApply m d
  | 0x8B => dumpClearApply m d
  | 0x8C => injectApply m d
  | 0x90 => loadApply .bias m d
  | 0x91 => freeApply .bias m d
  | 0x92 => querySampleApply m d
  | 0x98 => timeSetApply m d
  | 0xA0 => partConfigApply m d
  | 0xA1 => ctxSetApply m d
  | 0xA2 => ctxQueryApply m d
  | _ => failWith m stInvalidOpcode d

end Sys2Proof.Machine
end

