-- ==== Sys2Proof/Machine/Fetch.lean ====
section
/-! DEFINITION. Fetching and accepting commands, inbox snapshots, commands that other modules forward, and the ends of Stairwell
copies (spec/03: R91, R100-R103; spec/04: R123, R125, R130; spec/09: R287; spec/11: R363, R384). -/

namespace Sys2Proof.Machine

open Sys2Proof

/-! ### Acceptance (R91, R102, R103, R123, R125, R130) -/

/-- The directory of this module leads the command to another one (R123): a session's forwarding entry, the home of a new
session, or the home of a region. -/
def goesAway (d : Dev) (m : Cmd) : Bool :=
  let op := m.c.opcode
  let away := (dirFind d nt0 (sessKeyWord (cmdKey m.c))).any fun w => resKind w == kindForward
  if op = 0x20 then
    fieldAt m.c.dataA 14 2 != d.self && (findModel d (fieldAt m.c.dataA 48 8)).all fun x => x.members.contains (fieldAt m.c.dataA 14 2)
  else if op = 0x2B then argAt m.c 48 8 / 2 ^ 54 != d.self
  else (decide (0x21 ≤ op ∧ op ≤ 0x2A) || op == 0x92) && away

/-- The home announces the first step of the turn that an APPEND begins (R61); one that must revive its pages comes a tick
later (R134). -/
def announceTurn (m : Cmd) (d : Dev) : Dev :=
  match findDesc d (cmdKey m.c) with
  | none => d
  | some x =>
    let late := x.state == ssParked || !(lowerPages d x).isEmpty
    announce x (x.committed + 1) (d.get Reg.TICK_NOW + (m.plan - d.tick.fired) + if late then 1 else 0) d

/-- The inbox of an APPEND has been read: it is forwarded, waits for a text unit, or enters a plan (R91, R125, R287). -/
def inboxRead (m : Cmd) (d : Dev) : Dev :=
  if goesAway d m then opApply m.c.opcode m d
  else if appendText m then passStart m d
  else announceTurn (armed d m) (putCmd (armed d m) d)

/-- An APPEND that has passed its checks reads its inbox line by line; lines that a slot owns are called back first (R91). -/
def snapshotStart (m : Cmd) (d : Dev) : Dev :=
  let owned := (linesOf m.c.addrA m.c.lenA).filter (lineOwned d m.part)
  let m1 := { m with
    inbox := readRange d m.part m.c.addrA m.c.lenA
    wait := .snapshot owned }
  let d1 := setHost { d.host with accepted := d.host.accepted ++ [m1] } d
  forAll owned (fun l e => forAll ((holders e m.part l).filter (·.owned)) (fun h z =>
    biStart m.part l h.slot (.snapshot m.order) z) e) d1

/-- A command whose effect comes at a seal waits among the accepted ones; a PUBLISH has copied its source by then (R156). -/
def queueCmd (m : Cmd) (d : Dev) : Dev :=
  let m1 := if m.c.opcode = 0x2B ∧ m.inbox = [] then { m with inbox := publishSource m d } else m
  setHost { d.host with accepted := d.host.accepted ++ [m1] } d

/-- A command is checked, and takes effect or is queued for its seal (R103, R130). -/
def admitCmd (m : Cmd) (d : Dev) : Dev :=
  let bad := lowest (generalChecks d m ++ opChecks m.c.opcode d m)
  let atSeal := (opInfo m.c.opcode).any fun i => i.effect == .seal_
  match bad with
  | some st => if atSeal then queueCmd { m with fail := some st } d else failWith m st d
  | none =>
    if m.c.opcode = 0x21 then
      (match m.origin with
       | .host _ _ _ _ => if m.c.lenA = 0 then inboxRead m (queueCmd m d) else snapshotStart m d
       | .peer _ _ => inboxRead m (queueCmd m d))
    else if ¬ atSeal ∨ goesAway d m then opApply m.c.opcode m d
    else queueCmd m d

/-! ### The arbitration round (R100, R102) -/

/-- Entries that a queue holds. -/
def sqHeld (q : Sq) : Nat := ringUsed q.m q.head q.tail

/-- The SQ of a slot whose turn is next: the first non-empty one after the last served, in ascending order (R100). -/
def nextSq (d : Dev) (slot : Nat) : Option Nat :=
  let last := (assocGet d.host.rrSq slot).getD 0
  let ids := (d.host.sqs.filter fun q => q.slot == slot && q.id != 0 && decide (0 < sqHeld q)).map (·.id)
  match (ids.filter fun i => decide (last < i)).min? with
  | some i => some i
  | none => ids.min?

/-- The slots of a round from the one after the last served. -/
def turnSlots (d : Dev) : List Nat := (List.range 16).map fun i => (d.host.rrSlot + 1 + i) % 16

/-- QUEUE_BURST in force: 0 and 9 to 15 act as 4 (R100, R116). -/
def burst (d : Dev) (slot : Nat) : Nat :=
  let v := d.get (Reg.QUEUE_BURST slot)
  if 1 ≤ v ∧ v ≤ 8 then v else 4

/-- A queue's next entries are accepted in order; a FENCE command waits for the completions of the earlier ones (R102). -/
def acceptRun (fuel slot sq : Nat) (cs : List HostCmd) (d : Dev) : Dev :=
  match fuel, cs with
  | n + 1, c :: rest =>
    match findSq d slot sq with
    | none => d
    | some q =>
      if sqHeld q = 0 ∨ ¬ slotBound d slot ∨ (cmdFence c ∧ q.outstanding ≠ []) then d
      else
        let d1 := (putSq { q with
          head := (q.head + 1) % 2 ^ q.m
          outstanding := q.outstanding ++ [c.cid] } d).count (Reg.HOST_CMDS_ACCEPTED slot) 1
        let m := { cmdOf d1 c with plan := planOf d1 }
        acceptRun n slot sq rest (admitCmd m (setHost { d1.host with nextOrder := d1.host.nextOrder + 1 } d1))
  | _, _ => d

/-- One turn of a queue: the entries read from it, or the fault of its read. -/
def fetchTurn (reads : List HostCmd) (failed : List (Nat × Nat)) (slot sq : Nat) (d : Dev) : Dev :=
  if failed.contains (slot, sq) then queueFault slot ⟨.sq, sq⟩ d
  else acceptRun (burst d slot) slot sq (reads.filter fun c => c.slot == slot && c.sq == sq) d

/-- COMMAND_FETCH (R100): SQ 0 of every bound slot first, then a turn of each slot. `reads` are the entries read from host
memory, `failed` the queues whose read failed. -/
def commandFetch (reads : List HostCmd) (failed : List (Nat × Nat)) (d : Dev) : Dev :=
  if d.host.fatal then d
  else
    let d1 := forAll (slotNumbers.filter fun n => slotBound d n && (findSq d n 0).any fun q => decide (0 < sqHeld q))
      (fun n e => fetchTurn reads failed n 0 e) d
    forAll ((turnSlots d1).filter (slotBound d1)) (fun n e =>
      match nextSq e n with
      | none => e
      | some q => fetchTurn reads failed n q (setHost { e.host with
          rrSlot := n
          rrSq := assocSet e.host.rrSq n q } e)) d1

/-- INBOX_SNAPSHOT_DONE (R91): every line has been read. -/
def snapshotDone (order : Nat) (d : Dev) : Dev :=
  match d.host.accepted.find? fun m => m.order == order && m.wait == .snapshot [] with
  | some m => inboxRead m d
  | none => d

/-- TOKENIZATION_PASS_DONE (R287, R288): the APPEND whose pass has ended enters a plan, and its first step is announced (R61). -/
def passEnd (unit order : Nat) (d : Dev) : Dev :=
  let waits := d.text.passes.any fun p => p.order == order && p.unit == some unit
  let d1 := passDone unit order d
  match d1.host.accepted.find? fun m => m.order == order && m.c.opcode == 0x21 with
  | some m => if waits then announceTurn m d1 else d1
  | none => d1

/-- FORWARDED_COMMAND_RX (R123, R125): the home checks and executes the command for its sender; inputs that were pushed ahead are
taken. -/
def forwardedRx (f : Forwarded) (d : Dev) : Dev :=
  let (pushed, d1) : Option Bytes × Dev := if f.inbox.isEmpty then inputsTake f.src f.cmd.sid d
    else (some f.inbox, (inputsTake f.src f.cmd.sid d).2)
  let m : Cmd :=
    { c := f.cmd
      origin := .peer f.src f.tag
      part := f.part
      admin := false
      t := d1.now
      order := d1.host.nextOrder
      plan := planOf d1
      wait := .none
      inbox := pushed.getD []
      fail := none }
  let bad := lowest (generalChecks d1 m)
  let d2 := setHost { d1.host with nextOrder := d1.host.nextOrder + 1 } d1
  if bad.isSome then failWith m (bad.getD 0) d2
  else if m.c.opcode = 0x21 then inboxRead m (queueCmd m d2)
  else if m.c.opcode = 0x29 ∨ m.c.opcode = 0x92 then opApply m.c.opcode m d2
  else queueCmd m d2

/-! ### Stairwell copies (R153, R178, R358, R363, R384, R525) -/

/-- A copy leaves the list. -/
def copyDrop (c : StwCopy) (d : Dev) : Dev := setTier { d.tier with copies := d.tier.copies.filter fun x => x.id != c.id } d

/-- STAIRWELL_COPY_DONE: the copy is complete, and what waited on it proceeds. -/
def copyDone (id : Nat) (d : Dev) : Dev :=
  match d.tier.copies.find? fun c => c.id == id && !c.done with
  | none => d
  | some c =>
    match c.kind with
    | .privatePage k _ => commitRow k (setTier { d.tier with
        copies := d.tier.copies.map fun x => if x.id = id then { x with done := true } else x } d)
    | .capture k =>
      match findDesc d k with
      | some x => commitRow k (cowCommit x (commitLays d k) (copyDrop c d))
      | none => copyDrop c d
    | .writeBack _ => copyDrop c d
    | .rangeIn m => if linesFree d m.part m.c.addrA m.c.lenA then tierWaiters (rangeCopied m false (copyDrop c d))
      else linesClear m.part m.c.addrA m.c.lenA d
    | .rangeOut m => if rangeSettled d m.part m.c.addrA m.c.lenA then tierWaiters (rangeCopied m true (copyDrop c d)) else d
    | .image m h => advanceAll (modelLoaded m h (copyDrop c d))

/-! ### The meanings -/

def execCommandFetch (reads : List HostCmd) (failed : List (Nat × Nat)) (s : State) : Host.Outcome State Fault Refusal :=
  s.run (commandFetch reads failed)
def execInboxSnapshotDone (order : Nat) (s : State) : Host.Outcome State Fault Refusal := s.run (snapshotDone order)
def execTokenizationPassDone (unit order : Nat) (s : State) : Host.Outcome State Fault Refusal := s.run (passEnd unit order)
def execForwardedCommandRx (f : Forwarded) (s : State) : Host.Outcome State Fault Refusal :=
  s.run (fromPeer f.src (forwardedRx f))
def execStairwellCopyDone (id : Nat) (s : State) : Host.Outcome State Fault Refusal := s.run (copyDone id)

end Sys2Proof.Machine
end

