-- ==== Sys2Proof/Machine/FlashRows.lean ====
section
/-! DEFINITION. The meanings of the commands of the flash tier (spec/14). -/

namespace Sys2Proof.Machine

open Sys2Proof

/-- A map unit is lost, and with it every object that holds it (R485). -/
def unitLost (u : Nat) (d : Dev) : Dev :=
  match d.flash.runs.find? fun r => decide (r.first ≤ u ∧ u < r.first + r.count) with
  | none => d
  | some r =>
    let d1 := setFlash { d.flash with lost := if d.flash.lost.contains u then d.flash.lost else u :: d.flash.lost } d
    forAll (allObjs d1) (fun o e =>
      match objView e o with
      | none => e
      | some v =>
        if v.tier = 4 ∧ v.loc / 16 = r.first then objLost o e
        else if v.backTier = 4 ∧ v.backLoc / 16 = r.first then dropBacking o e
        else e) d1

/-- FLASH_READ_DONE (R484-R486): the recovery steps of one chunk read; a unit recovered at step 3 or later is written again. -/
def flashReadDone (unit : Nat) (r : FlashRead) (d : Dev) : Dev :=
  match d.flash.map.find? fun m => m.unit == unit with
  | none => d
  | some m =>
    if d.flash.lost.contains unit then d
    else
      let step := readStep d m.channel r
      let d1 := readCounts m.channel step r d
      if step = 6 then unitLost unit d1
      else if 3 ≤ step then rewriteUnit m d1
      else d1

/-- FLASH_PROGRAM_DONE (R475, R482) and what waited for the write: the SEAL of a FLASH extent (R403), a SIDE_APPEND (R501). -/
def flashProgramDone (id : Nat) (failed : Option Nat) (d : Dev) : Dev :=
  match flashProgram id failed d with
  | (none, e) => e
  | (some w, e) =>
    match w.use with
    | .extent off => sealProgrammed off e
    | .side m len => complete m stSuccess len 0 [] e
    | .local_ m => complete m stSuccess 0 0 [] e
    | _ => e

/-- A flash command on an SZ-4100-M1; an SZ-4100-M0 has no flash (R2). -/
def onFlash (f : Dev → Dev) (d : Dev) : Dev := if d.isM0 then d else f d

def execFlashReadDone (unit : Nat) (r : FlashRead) (s : State) : Host.Outcome State Fault Refusal :=
  s.run (onFlash (flashReadDone unit r))
def execFlashProgramDone (id : Nat) (failed : Option Nat) (s : State) : Host.Outcome State Fault Refusal :=
  s.run (onFlash (flashProgramDone id failed))
def execFlashEraseDone (sb : Nat) (failed : Option Nat) (s : State) : Host.Outcome State Fault Refusal :=
  s.run (onFlash (flashErase sb failed))
def execFoldStart (s : State) : Host.Outcome State Fault Refusal := s.run foldStart
def execGcStart (s : State) : Host.Outcome State Fault Refusal := s.run gcStart
def execPatrolRead (sb worstBits : Nat) (beyondHard : Bool) (s : State) : Host.Outcome State Fault Refusal :=
  s.run (onFlash (patrolRead sb worstBits beyondHard))
def execMapSnapshot (s : State) : Host.Outcome State Fault Refusal := s.run mapSnapshot
def execChannelFail (ch : Nat) (busLost : Bool) (recoveries : Nat) (s : State) : Host.Outcome State Fault Refusal :=
  s.run (channelFail ch busLost recoveries)
def execRebuildComplete (ch : Nat) (s : State) : Host.Outcome State Fault Refusal := s.run (onFlash (rebuildComplete ch))
def execHealthLogUpdate (temp : Int) (s : State) : Host.Outcome State Fault Refusal := s.run (healthUpdate temp)
def execFtlHealthGet (via : Via) (word : Nat) (ok : Bool) (s : State) : Host.Outcome State Fault Refusal :=
  s.run (regGate via 0x80 (healthGet word ok))

end Sys2Proof.Machine
end

