-- ==== Sys2Proof/Machine/PartRows.lean ====
section
/-! DEFINITION. The meanings of the commands of partitions, contexts and engines (spec/17). -/

namespace Sys2Proof.Machine

open Sys2Proof

def execPartConfig (c : HostCmd) (s : State) : Host.Outcome State Fault Refusal :=
  s.run (hostRow 0xA0 partConfigChecks partConfigApply c)
def execCtxSet (c : HostCmd) (s : State) : Host.Outcome State Fault Refusal :=
  s.run (hostRow 0xA1 ctxSetChecks ctxSetApply c)
def execCtxQuery (c : HostCmd) (s : State) : Host.Outcome State Fault Refusal :=
  s.run (hostRow 0xA2 ctxQueryChecks ctxQueryApply c)
def execEngineDispatch (gallery : Nat) (engine : Engine) (busy : Nat) (s : State) : Host.Outcome State Fault Refusal :=
  s.run (engineDispatch gallery engine busy)

end Sys2Proof.Machine
end

