-- ==== Sys2Proof/Machine/Power.lean ====
section
/-! DEFINITION. Power capping, the chooser of power states, coolant and heat, and the hold-up store (R576-R592, R671). -/

namespace Sys2Proof.Machine

open Sys2Proof

/-! ### Unplanned demand and the chooser (R575-R579) -/

/-- UNPLANNED_WAKE (R577): work without a plan entry reaches a domain that is not ACTIVE. -/
def unplannedWake (dom : Nat) (d : Dev) : Dev :=
  if 68 ≤ dom ∨ (domForced d dom).isSome ∨ d.get (Reg.DOM_STATE dom) = domActive ∨ d.pwr.shed then d
  else
    setPwr { d.pwr with unplanned := (d.pwr.unplanned.filter fun u => u.1 != dom) ++ [(dom, d.tick.fired)] }
      ((((domSet dom domActive d).count Reg.PWR_UNPLANNED_WAKES 1)).set (Reg.DOM_UNPLANNED dom) 1)

/-- DOM_UNPLANNED_EXPIRE (R577): 16 ticks after the wake. -/
def unplannedExpire (dom : Nat) (d : Dev) : Dev :=
  if d.pwr.unplanned.any fun u => u.1 == dom && decide (u.2 + 16 ≤ d.tick.fired) then
    setPwr { d.pwr with unplanned := d.pwr.unplanned.filter fun u => u.1 != dom } (d.set (Reg.DOM_UNPLANNED dom) 0)
  else d

/-- POWER_STATE (R578, R65): the named domains enter the state of ARG. -/
def powerEntry (e : PlanEntry) (d : Dev) : Dev :=
  forAll ((List.range (e.last + 1 - e.first)).map (e.first + ·)) (fun n z => domSet n (e.arg % 4) z) d

/-- A state that R575 allows for a domain now. -/
def domAllowed (d : Dev) (dom st : Nat) : Bool :=
  (domTimes dom st).isSome && decide (st ≤ d.get (Reg.DOM_MAX dom))
  && (st != domOff
    || (decide (dom < 32) && !(d.kv.pages.any fun p => p.t0.isSome && (p.pinned || sessGalleryOf d p dom)))
    || (decide (56 ≤ dom ∧ dom < 60) && d.get Reg.FTL_PLP != 2 && d.srch.passes.isEmpty
        && d.flash.collecting.isEmpty && d.flash.writes.all fun w => w.chunks.all fun c => c.channel / 8 != dom - 56)
    || dom == 65 || (dom == 66 && d.srch.passes.isEmpty))
where
  /-- A page lies in a Landing slice of the quad: one of its sessions is placed there. -/
  sessGalleryOf (d : Dev) (p : Page) (quad : Nat) : Bool :=
    d.part.placed.any fun g => g.2 / 4 == quad && (findDesc d g.1).any fun x => x.table.any fun e => e.page == p.id

/-- The uses of a domain in a plan, as intervals of offsets (R576): a batch uses the quads, HBM, the text and sampling domains
until the step deadline (log entry 25). -/
def domUses (d : Dev) (entries : List PlanEntry) (deadline quads : Nat) (dom : Nat) : List (Nat × Nat) :=
  entries.flatMap fun e =>
    let upTo := (e.offset, deadline)
    let test := (e.offset, e.offset + e.arg)
    if e.action = actBatchStart then
      if (dom < 32 ∧ bitAt quads dom) ∨ (32 ≤ dom ∧ dom < 40) ∨ dom = 65 ∨ dom = 66 then [upTo] else []
    else if e.action = actPromote then
      if (32 ≤ dom ∧ dom < 40) ∨ (56 ≤ dom ∧ dom < 60 ∧ d.tier.promos.any fun p => p.srcTier == 4) then [upTo] else []
    else if e.action = actMaintGate ∨ e.action = actCalibrate then
      if (e.unitClass = 1 ∧ dom < 32 ∧ e.first / 4 ≤ dom ∧ dom ≤ e.last / 4)
          ∨ (e.unitClass = 2 ∧ 32 ≤ dom ∧ dom < 40 ∧ e.first + 32 ≤ dom ∧ dom ≤ e.last + 32) then
        [if e.action = actMaintGate then test else (e.offset, e.offset + 175000)] else []
    else []

/-- Merge intervals in ascending order into the idle intervals of [0, period): start, end, and whether a use follows. -/
def idleOf (period : Nat) (at_ : Nat) (uses : List (Nat × Nat)) : List (Nat × Nat × Bool) :=
  match uses with
  | [] => if at_ < period then [(at_, period, true)] else []
  | u :: r =>
    (if at_ < u.1 then [(at_, u.1, false)] else []) ++ idleOf period (max at_ u.2) r

/-- Insert an interval in ascending order. -/
def useInsert (u : Nat × Nat) (l : List (Nat × Nat)) : List (Nat × Nat) :=
  match l with
  | [] => [u]
  | x :: r => if u.1 < x.1 then u :: x :: r else x :: useInsert u r

/-- The state that R578 chooses for an idle interval. -/
def chooseState (d : Dev) (dom guard period a b : Nat) (open_ : Bool) : Option (Nat × Nat) :=
  [domOff, domRetention, domGated].findSome? fun st =>
    match domTimes dom st with
    | none => none
    | some (entry, exit, minres) =>
      if ¬ domAllowed d dom st then none
      else if st ≠ domGated ∧ (d.get Reg.PWR_PLANS_SEEN < 16 ∨ d.get (Reg.DOM_UNPLANNED dom) = 1) then none
      else if open_ then (if guard < exit ∨ period - a < entry + minres then none else some (st, exit))
      else if b - a < entry + minres + exit then none
      else some (st, exit)

/-- The POWER_STATE entries of a plan (R578). -/
def chooserEntries (d : Dev) (entries : List PlanEntry) (deadline quads guard period : Nat) : List PlanEntry :=
  ((List.range 68).filter fun n => (domTimes n domGated).isSome && (domForced d n).isNone).flatMap fun dom =>
    let uses := (domUses d entries deadline quads dom).foldr useInsert []
    (idleOf period 0 uses).flatMap fun i =>
      match chooseState d dom guard period i.1 i.2.1 i.2.2 with
      | none => []
      | some (st, exit) =>
        ⟨i.1, actPowerState, 0x0B, dom, dom, st⟩ ::
          (if i.2.2 then [] else [⟨i.2.1 - exit, actPowerState, 0x0B, dom, dom, domActive⟩])

/-- Exit time of a domain's state. -/
def domExit (dom st : Nat) : Nat := ((domTimes dom st).map (·.2.1)).getD 0

/-- Wakes of the domains that the next plan uses and that lie in another state (R579); `startClock` is the elapsed instant at
which its tick begins. -/
def planWakes (entries : List PlanEntry) (deadline quads startClock : Nat) (d : Dev) : Dev :=
  let doms := (List.range 68).filter fun n =>
    (domForced d n).isNone && d.get (Reg.DOM_STATE n) != domActive && !(domUses d entries deadline quads n).isEmpty
  setPwr { d.pwr with wakes := d.pwr.wakes ++ doms.map fun n => (n, startClock - domExit n (d.get (Reg.DOM_STATE n))) } d

/-- Wakes whose instant has come (R579). -/
def wakesDue (d : Dev) : Dev :=
  let due := d.pwr.wakes.filter fun w => decide (w.2 ≤ d.clock)
  if due.isEmpty then d
  else forAll due (fun w e => domSet w.1 domActive e)
    (setPwr { d.pwr with wakes := d.pwr.wakes.filter fun w => !decide (w.2 ≤ d.clock) } d)

/-- Domains deeper than DOM_MAX are woken at a seal (R590). -/
def maxWakes (d : Dev) : Dev :=
  forAll ((List.range 68).filter fun n => decide (max (d.get (Reg.DOM_MAX n)) 1 < d.get (Reg.DOM_STATE n)
      ∨ (d.get (Reg.DOM_MAX n) = 0 ∧ d.get (Reg.DOM_STATE n) ≠ 0)))
    (fun n e => domSet n domActive e) d

/-! ### The cap (R580, R581) -/

/-- POWER_CAP_W in force. -/
def powerCap (d : Dev) : Nat := clampNat 400 1600 (d.get Reg.POWER_CAP_W)

/-- POWER_CAP_EFF_W (R580). -/
def powerCapEff (d : Dev) : Nat :=
  let c := min (powerCap d) (d.get Reg.THERM_CAP_W)
  if d.pwr.limit then min c (powerCap d / 2) else c

/-- P_fixed in units of 0.01 W (R581): the domains but the quads in their states, the always-on domain, and the Newel groups by
the Newel's own estimate, which is a free value (log entry 25). -/
def powerFixed (d : Dev) : Nat :=
  3800 + (((List.range 68).filter fun n => decide (32 ≤ n ∧ ¬ (61 ≤ n ∧ n < 65))).map fun n => domPower n (domNow d n)).sum
  + Config.freeNat d.free % 8401

/-- The estimate of a plan's input power, as a fraction in watts: numerator and denominator (R581). -/
def powerEstimate (d : Dev) (quads : Nat) : Nat × Nat :=
  let n := ((List.range 32).countP fun q => bitAt quads q)
  let p := powerFixed d + 2600 * n
  let meas := d.get Reg.POWER_MEAS_W
  let est := d.get Reg.POWER_EST_W
  let k : Nat × Nat :=
    if est = 0 ∨ meas = 0 ∨ d.tick.fired = 0 then (1, 1)
    else if 5 * meas < 4 * est then (4, 5)
    else if 5 * est < 4 * meas then (5, 4)
    else (meas, est)
  (p * 1000 * k.1, 100 * 935 * k.2)

/-- Quads left under a cap: removed from the highest number down (R581). -/
def capQuads (fuel cap quads : Nat) (d : Dev) : Nat :=
  match fuel with
  | 0 => quads
  | k + 1 =>
    let e := powerEstimate d quads
    if e.1 ≤ cap * e.2 ∨ quads = 0 then quads
    else capQuads k cap (setBit quads (Nat.log2 quads) false) d

/-- Quads with a retired Gallery are unavailable (R623). -/
def retiredQuads (d : Dev) (quads : Nat) : Nat := d.ras.retired.foldl (fun q g => setBit q (g / 4 % 32) false) quads

/-- The quads available to the plan being sealed (R581), with the registers and counters that record it. -/
def capSeal (d : Dev) : Nat × Dev :=
  let owned := retiredQuads d (ownedQuads d)
  let cap := powerCapEff d
  let left := capQuads 33 cap owned d
  let e := powerEstimate d left
  let removed := (List.range 32).countP fun q => bitAt owned q && !bitAt left q
  let zero := (List.range 8).any fun p => d.get (Reg.PART_ENABLED p) == 1 && Nat.land (d.get (Reg.PART_QUADS p)) left == 0
  let d1 := (((d.set Reg.POWER_CAP_EFF_W cap).set Reg.POWER_EST_W (min 2047 (e.1 / e.2))).count Reg.PWR_CAP_QUAD_TICKS removed)
  (left, { (d1.fresh).2 with tick := { d1.tick with
    capQuads := removed != 0
    capZero := zero } })

/-! ### Heat (R582-R584) -/

/-- The flow below which the alarm acts. -/
def flowLow (d : Dev) (flow : Nat) : Bool := decide (flow < d.get Reg.COOL_FLOW_MIN)

/-- Thermal resistance in µK/W for a flow in mL/min (R582). Between COOL_FLOW_MIN and 1.0 L/min the table gives none: a free
value (log entry 3). -/
def thermalR (d : Dev) (flow : Nat) (alarm : Bool) : Nat :=
  if alarm then 100000
  else if 4000 ≤ flow then 30000
  else if 3000 ≤ flow then 32000 - 2 * (flow - 3000)
  else if 2000 ≤ flow then 36000 - 4 * (flow - 2000)
  else if 1000 ≤ flow then 50000 - 14 * (flow - 1000)
  else Config.freeNat d.free % 1000000

/-- The flow alarm is in force (R582, R584). -/
def flowAlarmOn (d : Dev) : Bool := d.pwr.lowFlow || d.pwr.disagree

/-- The outlet differs by more than 3 °C from what power and flow give (R584): in m°C, p * 60,000,000 / (flow * 4,150). -/
def outletOff (inlet outlet : Int) (flow watts : Nat) : Bool :=
  let diff := (outlet - inlet) * (flow * 4150 : Nat) - (watts * 60000000 : Nat)
  decide (3000 * (flow * 4150 : Nat) < diff ∨ diff < -(3000 * (flow * 4150 : Nat) : Int))

/-- The register value of a temperature in m°C, signed 32 bits. -/
def milliC (x : Int) : Nat := twos 32 x

/-- COOLANT_SAMPLE (R582, R583): every millisecond. -/
def coolantSample (inlet outlet : Int) (flow watts : Nat) (d : Dev) : Dev :=
  let off := outletOff inlet outlet flow watts
  let low := flowLow d flow
  let r := thermalR d flow (low || d.pwr.disagree)
  let num := if d.pwr.tpKnown then
      d.pwr.tpNum * (19999 * 1000) + ((watts * r : Nat) + inlet * 1000) * d.pwr.tpDen
    else inlet
  let den := if d.pwr.tpKnown then 20000000 * d.pwr.tpDen else 1
  let g := max 1 (Nat.gcd num.natAbs den)
  let p := { d.pwr with
    tpKnown := true
    tpNum := num / g
    tpDen := den / g
    lowFlow := low
    disagreeAt := if off then (match d.pwr.disagreeAt with
      | some t => some t
      | none => some d.clock) else none
    powSum := d.pwr.powSum + watts
    powCount := d.pwr.powCount + 1
    powLast := watts }
  let rise := low && !flowAlarmOn d
  when rise (fun e => (e.raise 4 0).count Reg.THERM_FLOW_ALARMS 1)
    (((((setPwr p (d.fresh).2).set Reg.COOL_IN_MC (milliC inlet)).set Reg.COOL_OUT_MC (milliC outlet)).set
      Reg.COOL_FLOW_MLMIN flow).set Reg.THERM_TP_MC (milliC (num / den)))

/-- FLOW_ALARM (R582, R584): an outlet that has disagreed for 60 s raises the alarm, and one that agrees again ends it. -/
def flowAlarm (agree : Bool) (d : Dev) : Dev :=
  if agree then
    if d.pwr.disagreeAt.isNone then setPwr { d.pwr with disagree := false } d else d
  else if d.pwr.disagree ∨ ¬ d.pwr.disagreeAt.any fun t => decide (t + 60000000000 ≤ d.clock) then d
  else when (!flowAlarmOn d) (fun e => (e.raise 4 0).count Reg.THERM_FLOW_ALARMS 1) (setPwr { d.pwr with disagree := true } d)

/-- THERM_LIMIT_C in force. -/
def thermLimit (d : Dev) : Nat := clampNat 85 105 (d.get Reg.THERM_LIMIT_C)

/-- JUNCTION_SAMPLE (R584): once per tick. -/
def junctionSample (cd0 cd1 : Nat) (d : Dev) : Dev :=
  let hot := max cd0 cd1
  let on := decide (thermLimit d ≤ hot) || (d.pwr.limit && decide (thermLimit d < hot + 5))
  let d1 := ((setPwr { d.pwr with limit := on } d).set Reg.TJ_CD0_C cd0).set Reg.TJ_CD1_C cd1
  let d2 := when (on && !d.pwr.limit) (fun e => e.raise 4 2) (when on (fun e => e.count Reg.THERM_LIMIT_TICKS 1) d1)
  if 115 ≤ hot then fatalError 1 d2 else d2

/-- n terms of the series of e^(a/b), numerators and denominators: the sum and the next term. -/
def expTerms (n : Nat) (a b : Nat) : Nat × Nat :=
  (List.range n).foldr (fun k (acc : Nat × Nat) => (b * (k + 1) * acc.2 + a * acc.1, b * (k + 1) * acc.2)) (1, 1)

/-- THERM_CAP_W (R583), rounded down, saturating at 1,600 (log entry 26). With e = N / D: the cap is
((limit - t_in) * N' - (tp - t_in) * D) / (r * (N' - D)) for e^-1 = N' / D. -/
def thermCap (d : Dev) : Nat :=
  if ¬ d.pwr.tpKnown then 1600
  else
    let h := clampNat 1 60 (d.get Reg.THERM_HORIZON_S)
    let x := expTerms 40 h 20
    let tin := signedOf 32 (d.get Reg.COOL_IN_MC)
    let r := thermalR d (d.get Reg.COOL_FLOW_MLMIN) (flowAlarmOn d)
    let den : Int := d.pwr.tpDen
    let num : Int := (((thermLimit d * 1000 : Nat) : Int) - tin) * den * x.1 - (d.pwr.tpNum - tin * den) * x.2
    let q : Int := ((r : Nat) : Int) * den * ((x.1 : Int) - x.2)
    if q ≤ 0 then 1600 else min 1600 ((num * 1000) / q).toNat

/-- The thermal cap at a seal (R583, R591). -/
def thermSeal (d : Dev) : Dev :=
  let c := thermCap d
  let below := decide (c < powerCap d)
  let was := decide (d.get Reg.THERM_CAP_W < powerCap d)
  when (below && !was) (fun e => e.raise 4 1) (when below (fun e => e.count Reg.THERM_CAP_TICKS 1)
    (((d.fresh).2).set Reg.THERM_CAP_W c))

/-- POWER_MEAS_W at the start of a tick: the mean of the samples of the tick that ends, or the last one (R582, R591). -/
def powerTick (d : Dev) : Dev :=
  let m := if d.pwr.powCount = 0 then d.pwr.powLast else d.pwr.powSum / d.pwr.powCount
  setPwr { d.pwr with
    powSum := 0
    powCount := 0 } (d.set Reg.POWER_MEAS_W (min 2047 m))

/-! ### Input and the hold-up store (R585-R588, R671) -/

/-- HBM stacks that hold the map of the translation layer: the device's choice (log entry 3). -/
def mapStack (d : Dev) (n : Nat) : Bool := Config.freeNat d.free / 2 ^ n % 2 == 1

/-- Input is lost (R487, R586, R588): load is shed, the flush runs from the store, and builds in progress are abandoned. -/
def inputLost (d : Dev) : Dev :=
  if d.get Reg.HOLDUP_STATE = 3 then d
  else
    let d0 := when (d.get Reg.HOLDUP_STATE == 2) (fun e => e.raise 3 2) d
    let keep := fun n => decide ((32 ≤ n ∧ n < 40 ∧ mapStack d0 (n - 32)) ∨ (56 ≤ n ∧ n < 60) ∨ n = 67)
    let d1 := shed keep (stopPlans (buildsAbandon d0))
    let d2 := ((d1.set Reg.HOLDUP_STATE 3).set Reg.FTL_PLP 2).count Reg.HOLDUP_DISCHARGES 1
    let open_ := (d2.flash.sbs.filter fun s => s.state == .openWrite || s.state == .openReloc).map (·.sb)
    let d3 := forAll open_ closeStripe ((d2.fresh).2)
    if d.isM0 then d3
    else setFlash { d3.flash with
      health := healthBytes d3
      healthAt := d3.clock } d3

/-- INPUT_LOSS (R586): the input has stayed below 44 V for 20 µs. -/
def inputLoss (microV : Nat) (d : Dev) : Dev := if microV < 44000000 then inputLost d else d

/-- INPUT_OVERVOLTAGE (R671): above 56 V for 1 ms, load is shed as for input loss. -/
def inputOver (millivolt : Nat) (d : Dev) : Dev := if 56000 < millivolt then inputLost d else d

/-- INPUT_LOW (R671): PWR BLK_INT_STATUS bit 3 follows the input. -/
def inputLow (millivolt : Nat) (d : Dev) : Dev :=
  let low := decide (millivolt < 48000)
  (setPwr { d.pwr with inputLow := low } d).set (Reg.BLK_INT_STATUS 3)
    (setBit (d.get (Reg.BLK_INT_STATUS 3)) 3 low)

/-- Usable energy between a voltage (mV) and V_eff, for C in µF and ESR in µΩ, in units of 0.1 J, rounded down (R585). V_eff is
6 V + 250/6 A times ESR, in µV. -/
def holdupEnergy (vMilli cMicro esr : Nat) : Nat :=
  let v := vMilli * 1000
  let veff := 6000000 + 250 * esr / 6
  if v ≤ veff then 0 else cMicro * (v * v - veff * veff) * 10 / (2 * 1000000 * 1000000000000)

/-- A measurement starts (R587): not when the last C and ESR would leave too little at 15 V. -/
def measStart (d : Dev) : Dev :=
  let c := d.get Reg.HOLDUP_C_MF
  let e15 := holdupEnergy 15000 (c * 1000) (d.get Reg.HOLDUP_ESR_UOHM)
  if d.get Reg.HOLDUP_STATE ≠ 1 ∨ (c ≠ 0 ∧ e15 < 10 * holdupMin d) then d
  else setPwr { d.pwr with
      measAt := d.clock
      lastMeas := d.clock } (d.set Reg.HOLDUP_STATE 2)

/-- HOLDUP_MEASURE_DUE (R587): every HOLDUP_MEAS_HOURS, and once before any measurement has been made. -/
def measDue (d : Dev) : Dev :=
  if d.get Reg.HOLDUP_C_MF = 0 ∨ d.pwr.lastMeas + max 1 (d.get Reg.HOLDUP_MEAS_HOURS) * 3600000000000 ≤ d.clock then measStart d
  else d

/-- HOLDUP_MEAS_NOW (R587, R591): a write of the word that holds it. -/
def measNow (via : Via) (word : Nat) (d : Dev) : Dev :=
  regGate via 3 (fun e => if bitAt word 0 then measStart e else e) d

/-- HOLDUP_MEAS_DONE (R587, R588): C is 2.0 A times the fall over 1.0 V, ESR the step at the onset over 2.0 A. -/
def measDone (onsetMicroV fallMicros : Nat) (d : Dev) : Dev :=
  if d.get Reg.HOLDUP_STATE ≠ 2 then d
  else
    let cMicro := 2 * fallMicros
    let esr := onsetMicroV / 2
    let e := holdupEnergy 16000 cMicro esr
    let old := d.get Reg.HOLDUP_E_DJ
    let fresh := d.get Reg.HOLDUP_C_MF == 0
    let below := fun (x : Nat) => decide (e < 10 * x) && (fresh || decide (10 * x ≤ old))
    when (below (holdupMin d)) (fun z => z.raise 3 0) (when (below (holdupWarn d)) (fun z => z.raise 3 1)
      ((((((d.set Reg.HOLDUP_C_MF (min 65535 (cMicro / 1000))).set Reg.HOLDUP_ESR_UOHM esr).set Reg.HOLDUP_E_DJ
        (min 65535 e)).set Reg.HOLDUP_V_MV 15000).set Reg.HOLDUP_STATE 0).count Reg.HOLDUP_MEASUREMENTS 1))

/-- HOLDUP_CHARGED (R585, R588): 16.0 V is reached. -/
def holdupCharged (d : Dev) : Dev :=
  if d.get Reg.HOLDUP_STATE = 0 then (d.set Reg.HOLDUP_STATE 1).set Reg.HOLDUP_V_MV 16000 else d

def execPowerState (e : PlanEntry) (s : State) : Host.Outcome State Fault Refusal :=
  s.run (launch actPowerState e (powerEntry e))
def execUnplannedWake (dom : Nat) (s : State) : Host.Outcome State Fault Refusal := s.run (unplannedWake dom)
def execDomUnplannedExpire (dom : Nat) (s : State) : Host.Outcome State Fault Refusal := s.run (unplannedExpire dom)
def execCoolantSample (inlet outlet : Int) (flow watts : Nat) (s : State) : Host.Outcome State Fault Refusal :=
  s.run (coolantSample inlet outlet flow watts)
def execJunctionSample (cd0 cd1 : Nat) (s : State) : Host.Outcome State Fault Refusal := s.run (junctionSample cd0 cd1)
def execFlowAlarm (agree : Bool) (s : State) : Host.Outcome State Fault Refusal := s.run (flowAlarm agree)
def execInputLoss (microV : Nat) (s : State) : Host.Outcome State Fault Refusal := s.run (inputLoss microV)
def execInputLow (millivolt : Nat) (s : State) : Host.Outcome State Fault Refusal := s.run (inputLow millivolt)
def execInputOvervoltage (millivolt : Nat) (s : State) : Host.Outcome State Fault Refusal := s.run (inputOver millivolt)
def execHoldupMeasureDue (s : State) : Host.Outcome State Fault Refusal := s.run measDue
def execHoldupMeasNow (via : Via) (word : Nat) (s : State) : Host.Outcome State Fault Refusal := s.run (measNow via word)
def execHoldupMeasDone (onsetMicroV fallMicros : Nat) (s : State) : Host.Outcome State Fault Refusal :=
  s.run (measDone onsetMicroV fallMicros)
def execHoldupCharged (s : State) : Host.Outcome State Fault Refusal := s.run holdupCharged

end Sys2Proof.Machine
end

