-- ==== Sys2Proof/Machine/Startup.lean ====
section
/-! DEFINITION. Resets, the boot sequence and the configuration record (spec/21, R672). -/

namespace Sys2Proof.Machine

open Sys2Proof

/-- Replace the start-up state. -/
def setBoot (b : BootSt) (d : Dev) : Dev := { d with boot := b }

/-! ### What a reset keeps (R596, R602, R607, R623, R630, R637, R638, R648) -/

/-- Registers that hold counts since manufacture, and the state of the flash channels. -/
def keptFields : List Field :=
  [Reg.RAS_HBM_RETIRED_KIB] ++ (List.range 8).map Reg.HBM_RETIRED_KIB ++ (List.range 32).map Reg.FLC_BAD_BLOCKS
  ++ (List.range 32).map Reg.FLC_STATE

/-- The flash: its map and its counts; writes that were not programmed, folds and collections are gone (R488). The instants of
the last reads and of the last snapshot restart with the counter of elapsed time. -/
def flashKept (f : FlashSt) : FlashSt :=
  { f with
    writes := []
    collecting := []
    sbs := f.sbs.map fun x => { x with patrolAt := 0 }
    healthAt := 0 }

/-- Entries of a side list whose mirror was not yet programmed (R501). -/
def sideUnprogrammed (d : Dev) (x : Index) : Nat :=
  ((d.flash.writes.filterMap fun w => match w.use with
    | .side m _ => if argAt m.c 48 2 = x.handle then some (sideRecs x.width (padTo m.c.lenA m.c.dataA)).length else none
    | _ => none)).sum

/-- The indexes: their current generations in T4 and the side lists of their mirrors; builds are gone (R501, R508). -/
def indexKept (d : Dev) (x : Index) : Index :=
  { x with
    gens := x.gens.filter fun g => g.num == x.gen
    side := x.side.take (x.side.length - sideUnprogrammed d x)
    build := none }

/-- References to a chunk in a list of shards. -/
def chunkRefs (l : List Shard) (c : Dedup) : Nat :=
  ((l.filter fun s => s.kind == c.kind && s.target == c.target).map fun s =>
    (s.entries.map fun o => o.chunks.countP fun k => k.hash == c.hash && k.loc == c.loc).sum).sum

/-- The committed shards outside T3, and the dedup table reloaded from them (R527). -/
def ckptKept (c : CkptSt) : CkptSt :=
  let l := c.shards.filter fun s => s.committed && s.kind != 2
  { CkptSt.reset with
    shards := l
    dedup := (c.dedup.map fun x => { x with refs := chunkRefs l x }).filter fun x => x.refs != 0 }

/-- What the security complex keeps: banks, rollback counters, retired slots, and the end of the reserved signing block, which
the next index starts at (R596-R598, R602, R607). -/
def secKept (s : SecSt) : SecSt :=
  { SecSt.reset with
    bankA := s.bankA
    bankB := s.bankB
    active := s.active
    rollback := s.rollback
    tenantRetired := s.tenantRetired
    fabricRetired := s.fabricRetired
    sigNext := s.sigEnd
    sigEnd := s.sigEnd
    lowPosted := s.lowPosted }

/-- The dump that survives: after a module reset the region or the mirror, after a cold reset the mirror (R630, R637). -/
def dumpKept (module_ : Bool) (r : RasSt) : Option Dump :=
  match r.dump with
  | none => none
  | some x => if module_ || x.mirrored then some x else none

/-- The device after a reset. -/
def resetDev (module_ : Bool) (d : Dev) : Dev :=
  let d0 : Dev := { Dev.reset with
    flash := flashKept d.flash
    srch := { SrchSt.reset with indexes := d.srch.indexes.map (indexKept d) }
    ckpt := ckptKept d.ckpt
    sec := secKept d.sec
    fab := { FabSt.reset with extents := d.fab.extents.filter fun x => x.flash && x.sealed }
    mem := { MemSt.mk [] [] with export_ := d.mem.export_.filter fun b => decide (2 ^ 52 ≤ b.1 ∧ b.1 < 2 ^ 53) }
    ras := { RasSt.reset with dump := dumpKept module_ d.ras }
    time := { Dev.reset.time with clk10m := d.time.clk10m }
    boot := { BootSt.reset with
      flashFitted := d.boot.flashFitted
      retired := d.boot.retired }
    out := d.out
    free := d.free }
  let d1 := forAll keptFields (fun f e => e.set f (d.get f)) d0
  if module_ then
    (d1.set Reg.HOLDUP_STATE (if d.get Reg.HOLDUP_STATE = 1 then 1 else 0)).set Reg.HOLDUP_E_DJ (d.get Reg.HOLDUP_E_DJ)
  else d1

/-! ### Rails (R639, R672) -/

/-- Deadline of a rail's power-good in ns after the sequence begins (R672). -/
def railDeadline (order : Nat) : Nat :=
  match order with
  | 1 => 5000000
  | 2 => 10000000
  | 3 => 18000000
  | 4 => 24000000
  | _ => 30000000

/-- The boot ROM starts on management core 0: the counter starts at 0, the ROM measures itself and the key rings, and issues a
debug nonce (R42, R593, R599, R613). -/
def romStart (d : Dev) : Dev :=
  let (i, d1) := (setTime { d.time with
    frac := 0
    sub := 0 } (d.set Reg.TIME_NOW_NS 0)).fresh
  let d2 := setSec { d1.sec with nonce := some (Config.random i) } ((((((d1.set Reg.SEC_FW_BANK d.sec.active).set
    Reg.SEC_TENANT_PRESENT Config.tenantRing).set Reg.SEC_TENANT_RETIRED d.sec.tenantRetired).set
    Reg.SEC_FABRIC_PRESENT Config.fabricRing).set Reg.SEC_FABRIC_RETIRED d.sec.fabricRetired).set
    Reg.SEC_ATTEST_LEFT (2 ^ 40 - d.sec.sigNext))
  setStage 1 (extendMr 5 (sha256 (keyState d2)) (extendMr 0 Config.romDigest d2))

/-- RAIL_POWER_GOOD (R639, R672): each rail's power-good gates the next; the last one starts the boot ROM. -/
def railPowerGood (rail : Nat) (d : Dev) : Dev :=
  if d.get Reg.GLB_BOOT_STAGE ≠ 0 ∨ 5 ≤ d.boot.rails ∨ rail ≠ d.boot.rails + 1 ∨ d.clock < d.boot.railsAt
      ∨ d.boot.railsAt + railDeadline rail < d.clock then d
  else
    let d1 := setBoot { d.boot with rails := rail } d
    if rail = 5 then romStart d1 else d1

/-- POWER_GOOD_TIMEOUT (R639, R672): the device stays in POWER and tries the whole sequence again a second after it began. -/
def powerGoodTimeout (d : Dev) : Dev :=
  if d.get Reg.GLB_BOOT_STAGE ≠ 0 ∨ 5 ≤ d.boot.rails ∨ d.clock ≤ d.boot.railsAt + railDeadline (d.boot.rails + 1) then d
  else setBoot { d.boot with
    rails := 0
    railsAt := d.boot.railsAt + 1000000000 } d

/-- COLD_RESET (R637): the input rises through 46 V. -/
def coldReset (d : Dev) : Dev := resetDev false d

/-- MODULE_RESET (R637, R638): rails stay up, so the boot ROM starts at once. -/
def moduleReset (d : Dev) : Dev :=
  let d1 := resetDev true d
  romStart (setBoot { d1.boot with rails := 5 } d1)

/-- HOST_LINK_RESET (R637): only the host interface is reset. -/
def hostLinkReset (d : Dev) : Dev := hostLinkDown d

/-! ### The configuration record (R643-R645) -/

/-- A NEWEL word keeps R321: two disjoint runs of bank groups inside the four, and no power mode 3 (R643, R644). -/
def newelWordOk (w : Nat) : Bool :=
  let f0 := bitsOf w 0 2
  let n0 := bitsOf w 2 2 + 1
  let f1 := bitsOf w 8 2
  let n1 := bitsOf w 10 2 + 1
  bitsOf w 7 1 == 0 && bitsOf w 15 1 == 0
  && decide (f0 + n0 ≤ 4 ∧ f1 + n1 ≤ 4 ∧ (f0 + n0 ≤ f1 ∨ f1 + n1 ≤ f0))
  && bitsOf w 5 2 != 3 && bitsOf w 13 2 != 3

/-- The record is one that the boot ROM applies (R643, R644). -/
def recordOk (d : Dev) (b : Bytes) : Bool :=
  b.length == 64 && fieldAt b 0 4 == 0x46435A53 && fieldAt b 4 2 == 1
  && byteAt b 6 == (if d.isM0 then 0 else 1) && byteAt b 7 == 0 && fieldAt b 8 16 == Config.serial % 2 ^ 128
  && decide (byteAt b 24 < 66 ∧ byteAt b 25 < 66 ∧ byteAt b 24 ≠ byteAt b 25)
  && decide (66 ≤ byteAt b 26 ∧ byteAt b 26 < 132 ∧ 66 ≤ byteAt b 27 ∧ byteAt b 27 < 132 ∧ byteAt b 26 ≠ byteAt b 27)
  && newelWordOk (fieldAt b 28 2) && bitsOf (byteAt b 36) 7 1 == 0 && allZero ((b.drop 37).take 3) && allZero (b.drop 48)

/-- The enabled Galleries of a die and the spares left, after each retired one has been replaced (R645). -/
def replaceRetired (retired enabled spares : List Nat) : List Nat × List Nat :=
  match retired with
  | [] => (enabled, spares)
  | r :: rest =>
    match (spares.filter fun s => enabled.contains r && s != r).min? with
    | some s => replaceRetired rest (s :: enabled.erase r) (spares.erase s)
    | none => replaceRetired rest enabled spares

/-- The enabled map of a die: its first physical Gallery, the record's pair, and the retired list (R645). -/
def dieMap (base : Nat) (off retired : List Nat) : List Nat × List Nat :=
  let all := (List.range 66).map (base + ·)
  replaceRetired (all.filter retired.contains) (all.filter fun g => !off.contains g)
    (off.filter fun g => !retired.contains g)

/-- A list of physical Galleries as a map word (R663). -/
def mapWord (l : List Nat) (w : Nat) : Nat := ((List.range 64).map fun i => if l.contains (64 * w + i) then 2 ^ i else 0).sum

/-- The enabled map in force: map words, logical numbers and quads, and the quads that a retired Gallery makes unavailable
(R23, R24, R645, R663, R665). -/
def galleriesApply (b : Bytes) (d : Dev) : Dev :=
  let r := d.boot.retired
  let m0 := dieMap 0 [byteAt b 24, byteAt b 25] r
  let m1 := dieMap 66 [byteAt b 26, byteAt b 27] r
  let on := (List.range 132).filter fun g => m0.1.contains g || m1.1.contains g
  let lost := (List.range on.length).filter fun i => (on[i]?).any r.contains
  let d1 := forAll (List.range 3) (fun w e =>
    (e.set (Reg.GLB_GAL_ENABLED w) (mapWord on w)).set (Reg.GLB_GAL_RETIRED w) (mapWord r w)) d
  let d2 := forAll (on.zip (List.range on.length)) (fun p e =>
    (((e.set (Reg.GAL_PHYS p.1) p.1).set (Reg.GAL_LOGICAL p.1) p.2).set (Reg.GAL_QUAD p.1) (p.2 / 4)).set
      (Reg.GAL_UNAVAIL p.1) (if r.contains p.1 then 1 else 0)) d1
  setRas { d2.ras with retired := lost } (((d2.set Reg.GLB_QUAD_UNAVAIL (lost.foldl (fun q i => setBit q (i / 4) true) 0)).set
    Reg.RAS_SPARE_GAL_CD0 m0.2.length).set Reg.RAS_SPARE_GAL_CD1 m1.2.length)

/-- The Newel tables of the record (R321, R344, R643). -/
def newelApply (w : Nat) (d : Dev) : Dev :=
  (((((((d.set Reg.NT0_FIRST_GROUP (bitsOf w 0 2)).set Reg.NT0_GROUPS (bitsOf w 2 2)).set Reg.NT0_PRIO_MODE
    (bitsOf w 4 1)).set Reg.NT0_POWER_MODE (bitsOf w 5 2)).set Reg.NT1_FIRST_GROUP (bitsOf w 8 2)).set Reg.NT1_GROUPS
    (bitsOf w 10 2)).set Reg.NT1_PRIO_MODE (bitsOf w 12 1)).set Reg.NT1_POWER_MODE (bitsOf w 13 2)

/-- The configuration record is applied (R643). -/
def recordApply (b : Bytes) (d : Dev) : Dev :=
  let d1 := ((((d.set Reg.GLB_VARIANT (byteAt b 6)).set Reg.GLB_STEPPING Config.stepping).set Reg.GLB_SERIAL_LO
    (fieldAt b 8 8)).set Reg.GLB_SERIAL_HI (fieldAt b 16 8)).set Reg.GLB_LOT (fieldAt b 40 8)
  galleriesApply b (newelApply (fieldAt b 28 2) (setBoot { d1.boot with
    mgmtMac := fieldAt b 30 6
    i3cAddr := byteAt b 36 } d1))

/-! ### The boot chain (R593-R599) -/

/-- The image verified next: loader, management firmware, the four unit microcodes, the configuration record (R593). -/
def nextImage (verified : List Nat) : Nat :=
  match verified.length with
  | 0 => 1
  | 1 => 2
  | 2 => 3
  | 3 => 3
  | 4 => 3
  | 5 => 3
  | _ => 4

/-- The images known to lie in the bank that is being tried: those that FW_STAGE wrote (R598). -/
def bankImages (d : Dev) : List Image := if d.get Reg.SEC_FW_BANK = 0 then d.sec.bankA else d.sec.bankB

/-- The image is one of the bank being tried. -/
def inBank (d : Dev) (f : ImageFile) : Bool :=
  !((bankImages d).any fun x => x.kind == f.kind) || (bankImages d).contains (imageOf f)

/-- An image fails (R593, R598, R668): the chain is tried from the other bank; when that fails as well the device stays in the
boot ROM. -/
def imageFails (image status : Nat) (d : Dev) : Dev :=
  if d.boot.fallback then
    setStage 7 (setBoot { d.boot with
      failImage := image
      failStatus := status } d)
  else
    setStage 2 (((setSec { d.sec with running := [] } (setBoot { d.boot with
      fallback := true
      verified := [] } d)).set Reg.SEC_FW_BANK (1 - d.get Reg.SEC_FW_BANK)).set Reg.SEC_FW_FALLBACK 1)

/-- IMAGE_VERIFIED (R593-R596, R599, R640, R644). -/
def imageVerified (image : Nat) (f : ImageFile) (d : Dev) : Dev :=
  let st := d.get Reg.GLB_BOOT_STAGE
  if (st ≠ 1 ∧ st ≠ 2) ∨ image ≠ nextImage d.boot.verified ∨ ¬ inBank d f then d
  else
    let bad := !imageSound f || f.kind != image || (image == 4 && !recordOk d f.body)
    if bad then imageFails image stFwSigInvalid (d.count Reg.SEC_SIG_FAIL 1)
    else if imageOld d f then imageFails image stFwRollback d
    else
      let d1 := setSec { d.sec with running := assocSet d.sec.running f.kind f.svn } (setBoot { d.boot with
        verified := d.boot.verified ++ [image] } (extendMr image f.digest d))
      if image = 4 then setStage 3 (recordApply f.body d1) else d1

/-! ### Memory and flash (R641, R646, R351, R472, R488, R527) -/

/-- HBM of the module in bytes: eight stacks of 64 GiB. -/
def hbmBytes : Nat := 549755813888

/-- Address registers of what lies in HBM at boot (R351). -/
def baseFields : List Field :=
  [Reg.TICK_PLAN_BASE, Reg.RAS_DUMP_BASE, Reg.RAS_LOG_BASE, Reg.SESS_TABLE_BASE, Reg.NEWEL_DIR_BASE, Reg.PLEC_REC_BASE,
   Reg.CKPT_DEDUP_BASE, Reg.VS_TABLE_BASE, Reg.FAB_ROUTE_BASE, Reg.FAB_EXPORT_BASE, Reg.FTL_MAP_BASE]
  ++ (List.range 8).map Reg.PART_CTX_BASE ++ (List.range 8).map Reg.RANGE_ROOT

/-- Fixed regions and the T1 pool are initialised (R351, R472, R527, R627): addresses, and the bytes of the tables whose size
is not stated, are free values (log entry 3). -/
def regionInit (d : Dev) : Dev :=
  let d1 := forAll baseFields (fun f e =>
    let (i, e1) := e.fresh
    e1.set f (Config.hbmAddr i % hbmBytes)) d
  let (i, d2) := d1.fresh
  let (j, d2a) := d2.fresh
  let (k, d2b) := d2a.fresh
  let d3 := setKv { d2b.kv with refBase := Config.hbmAddr k % hbmBytes } d2b
  let pool := hbmBytes - d3.get Reg.STW_T1_FIXED - 1024 * d3.get Reg.RAS_HBM_RETIRED_KIB
  let used := (if d3.isM0 then 0 else 7516192768) + 805306368 + 4194304 + Config.freeNat i % 16777216
  ((d3.set Reg.STW_T1_POOL pool).set Reg.STW_T1_FREE (pool - used)).set Reg.THERM_TP_MC (Config.freeNat j)

/-- The device is ready (R646): a dump that survived is announced later (R630). -/
def becomeReady (d : Dev) : Dev :=
  { setStage 6 (d.set Reg.RAS_DUMP_PRESENT (if d.ras.dump.isSome then 1 else 0)) with
    tick := { d.tick with
      start := d.now
      startLocal := d.clock } }

/-- HBM_TRAINING_DONE (R641, R646): `failed` lists channels that failed three attempts, as stack * 64 + channel. -/
def hbmTrainingDone (failed : List Nat) (trained : Bool) (d : Dev) : Dev :=
  if d.get Reg.GLB_BOOT_STAGE ≠ 3 then d
  else
    let bad := failed.eraseDups.filter fun f => decide (f < 512)
    if ¬ trained ∨ (List.range 8).any (fun s => decide (2 ≤ bad.countP fun f => f / 64 == s)) then setStage 8 d
    else
      let d1 := forAll bad (fun f e =>
        unitSpared (0x50 + f / 64) (f % 64) ((e.set (Reg.HBM_STATE (f / 64)) 2).set Reg.RAS_SPARE_HBM_USED
          (setBit (e.get Reg.RAS_SPARE_HBM_USED) (f / 64) true))) d
      let d2 := regionInit (setBoot { d1.boot with hbmTrained := true } d1)
      if d2.isM0 then becomeReady d2 else setStage 5 d2

/-- FLASH_LOAD_DONE (R472, R488, R501, R527): map, side lists and dedup table are loaded. -/
def flashLoadDone (d : Dev) : Dev :=
  if d.get Reg.GLB_BOOT_STAGE ≠ 5 then d
  else
    let d1 := forAll (List.range 32) (fun c e => e.set (Reg.FLC_SPARE_BLOCKS c)
      (512 - ((e.flash.donors.filter fun x => x.1 / 32 == c).map (·.2)).sum)) d
    let d2 := forAll d1.srch.indexes (fun x e => poolTake x.part (x.side.length * sideEntBytes x.width) e) d1
    becomeReady (ftlSync (t4Sync (setBoot { d2.boot with flashLoaded := true } d2)))

def execColdReset (s : State) : Host.Outcome State Fault Refusal := s.run coldReset
def execModuleReset (s : State) : Host.Outcome State Fault Refusal := s.run moduleReset
def execHostLinkReset (s : State) : Host.Outcome State Fault Refusal := s.run hostLinkReset
def execRailPowerGood (rail : Nat) (s : State) : Host.Outcome State Fault Refusal := s.run (railPowerGood rail)
def execPowerGoodTimeout (s : State) : Host.Outcome State Fault Refusal := s.run powerGoodTimeout
def execImageVerified (image : Nat) (f : ImageFile) (s : State) : Host.Outcome State Fault Refusal := s.run (imageVerified image f)
def execHbmTrainingDone (failed : List Nat) (trained : Bool) (s : State) : Host.Outcome State Fault Refusal :=
  s.run (hbmTrainingDone failed trained)
def execFlashLoadDone (s : State) : Host.Outcome State Fault Refusal := s.run flashLoadDone

end Sys2Proof.Machine
end

