-- ==== Sys2Proof/Machine/Registers.lean ====
section
/-! DEFINITION. Register accesses (R8, R11, R656 to R663) and the management mailbox (R666 to R668). -/

namespace Sys2Proof.Machine

open Sys2Proof

/-! ### Reads (R656, R657) -/

/-- The size and alignment of a register access (R656). -/
def accessOk (offset size : Nat) : Bool :=
  (size == 4 || size == 8) && offset % size == 0

/-- A 64-bit register starts at byte `o` of a page. -/
def isWide (page o : Nat) : Bool :=
  (pageFields page).any fun f => f.off == o && decide (32 < f.width ∧ f.width ≤ 64)

/-- A 64-bit RW or RWL register starts at byte `o` of a page (R657). -/
def isHeld (page o : Nat) : Bool :=
  (pageFields page).any fun f => f.off == o && decide (32 < f.width ∧ f.width ≤ 64) && (f.acc == .rw || f.acc == .rwl)

/-- The interface reaches the device's registers at all: no CXL request is answered after a fatal error (R116). -/
def viaAnswered (d : Dev) (via : Via) : Bool :=
  match via with
  | .slot _ => !d.host.fatal
  | _ => true

/-- A refused access is counted (R656). -/
def badAccess (via : Via) (d : Dev) : Dev := when (viaAnswered d via) (fun e => e.count Reg.GLB_BAD_ACCESS 1) d

/-- A read of TIME_NOW_NS latches the fraction of the same instant (R41). -/
def fracLatch (offset : Nat) (d : Dev) : Dev := when (offset == 0x1100) (fun e => e.set Reg.TIME_NOW_FRAC e.time.frac) d

/-- A register read: the value and the device (R656, R657, R659). -/
def regRead (via : Via) (offset size : Nat) (d : Dev) : Nat × Dev :=
  let page := offset / 4096
  let o := offset % 4096
  if ¬ accessOk offset size then (0, badAccess via d)
  else if ¬ mayRead d via page then (0, d)
  else if size = 4 ∧ isWide page o then
    let v := readBytes d via page o 8
    (v % 2 ^ 32, fracLatch offset { d with regs := { d.regs with
      latch := (via, offset, v / 2 ^ 32) :: d.regs.latch.filter fun l => !(l.1 == via && l.2.1 == offset) } })
  else if size = 4 ∧ 4 ≤ o ∧ isWide page (o - 4) then
    match d.regs.latch.find? fun l => l.1 == via && l.2.1 + 4 == offset with
    | some l => (l.2.2, { d with regs := { d.regs with latch := d.regs.latch.filter fun x => x != l } })
    | none => (readBytes d via page o 4, d)
  else (readBytes d via page o size, fracLatch offset d)

/-- The number by which MBOX_OWNER names an interface; a host slot is none. -/
def viaNumber (via : Via) : Nat :=
  match via with
  | .slot _ => 0
  | .sideband => 1
  | .ethernet => 2

/-- The interface owns the mailbox. -/
def ownsMbox (d : Dev) (via : Via) : Bool := viaNumber via != 0 && d.get Reg.MBOX_OWNER == viaNumber via

/-- The owner has made an access (R667). -/
def mboxTouch (d : Dev) : Dev := { d with mbox := { d.mbox with lastAccess := d.clock } }

/-- REG_LOW_HALF_READ (R657): one of the mailbox by its owner is an access of R667. -/
def lowHalfRead (via : Via) (offset : Nat) (d : Dev) : Dev :=
  let r := regRead via offset 4 (when (offset / 4096 == 7 && ownsMbox d via) mboxTouch d)
  when (viaAnswered d via) (fun e => e.emit (.regData via offset 4 r.1)) r.2

/-! ### The common header (R660, R663) -/

/-- LOCK of a page (R8): until reset. -/
def lockPage (page : Nat) (d : Dev) : Dev := d.set (Reg.LOCK page) 1

/-- GLB_LOCK_ALL (R663). -/
def lockAll (d : Dev) : Dev := forAll pagesInUse lockPage d

/-- CNT_CLEAR (R660). -/
def clearCounters (page : Nat) (d : Dev) : Dev :=
  forAll ((pageFields page).filter fun f => f.acc == .cnt) (fun f e => e.clear f) d

/-- BLK_INT_SET (R660): bits with a defined cause. -/
def intSet (page mask : Nat) (d : Dev) : Dev :=
  match pageKind page with
  | some (k, _) => d.set (Reg.BLK_INT_STATUS page) (Nat.lor (d.get (Reg.BLK_INT_STATUS page)) (Nat.land mask (intMask k)))
  | none => d

/-- A write to a counter clears it (R11). -/
def counterWrite (offset : Nat) (d : Dev) : Dev :=
  forAll ((fieldsAt (offset / 4096) (offset % 4096) 1).filter fun f => f.acc == .cnt) (fun f e => e.clear f) d

/-! ### Writes (R8, R656-R659) -/

/-- The fields that `n` bytes from byte `o` on share bits with take what is written to them, each by its access type (R8,
R658); the rest of a field that is written in part stays. -/
def fieldsWrite (page o n v : Nat) (d : Dev) : Dev :=
  forAll (fieldsAt page o n) (fun f e =>
    let b := 8 * f.off + f.lo
    let keep := if f.acc = .w1c ∨ f.acc = .w1s then 0 else e.get f
    let lo := 8 * o - b
    let old := keep % 2 ^ lo + (if 8 * (o + n) < b + f.width then keep / 2 ^ (8 * (o + n) - b) * 2 ^ (8 * (o + n) - b) else 0)
    let new_ := v % 2 ^ (8 * n) / 2 ^ (b - 8 * o) * 2 ^ lo
    fieldWrite f (old + new_) e) d

/-- A written word of four bytes: the words with an effect of their own, and every other by its fields. -/
def wordWrite (via : Via) (page o v : Nat) (d : Dev) : Dev :=
  if o = 0x00C then fieldsWrite page o 4 v (when (bitAt v 2) (clearCounters page) d)
  else if o = 0x01C then intSet page v d
  else if page = 0 ∧ o = 0x128 then when (bitAt v 0) lockAll d
  else if page = 1 ∧ o = 0x10C then timeSrcWrite v d
  else if page = 2 ∧ o = 0x118 then tickGuardWrite v d
  else if page = 3 ∧ o = 0x138 then measNow via v d
  else if 0x10 ≤ page ∧ page < 0x20 ∧ o = 0x130 then q0EnableWrite (page - 0x10) v d
  else if page = 0x42 ∧ o = 0x110 then glLoadIdWrite via v d
  else if page = 0x42 ∧ 0x200 ≤ o ∧ o < 0xA00 ∧ o % 0x80 = 0 then portRow ((o - 0x200) / 0x80) (portEnWrite ((o - 0x200) / 0x80) v) d
  else if page = 0x80 ∧ o = 0x148 then healthGet v true d
  else if page = 0x80 ∧ o = 0x100 then slcShare (fieldsWrite page o 4 v d)
  else fieldsWrite page o 4 v d

/-- A written 64-bit register. -/
def wideWrite (page o v : Nat) (d : Dev) : Dev :=
  if page = 2 ∧ o = 0x100 then tickEpochWrite v d
  else if page = 2 ∧ o = 0x110 then tickChangeWrite v d
  else if page = 0x42 ∧ o = 0x120 then glSwitchAtWrite v d
  else fieldsWrite page o 8 v d

/-- A write of `size` bytes to an open page: the low half of a 64-bit RW or RWL register is held until its high half comes
(R657). -/
def openWrite (via : Via) (offset size v : Nat) (d : Dev) : Dev :=
  let page := offset / 4096
  let o := offset % 4096
  if size = 8 then
    if isWide page o then wideWrite page o (v % 2 ^ 64) d
    else wordWrite via page (o + 4) (v / 2 ^ 32 % 2 ^ 32) (wordWrite via page o (v % 2 ^ 32) d)
  else if isHeld page o then
    { d with regs := { d.regs with
      held := (via, offset, v % 2 ^ 32) :: d.regs.held.filter fun h => !(h.1 == via && h.2.1 == offset) } }
  else if 4 ≤ o ∧ isHeld page (o - 4) then
    let low := match d.regs.held.find? fun h => h.1 == via && h.2.1 + 4 == offset with
      | some h => h.2.2
      | none => readBytes d via page (o - 4) 4
    wideWrite page (o - 4) (low + v % 2 ^ 32 * 2 ^ 32) { d with regs := { d.regs with
      held := d.regs.held.filter fun h => !(h.1 == via && h.2.1 + 4 == offset) } }
  else wordWrite via page o (v % 2 ^ 32) d

/-! ### The mailbox (R666-R668) -/

/-- The mailbox runs from ROM_VERIFY on (R668). -/
def mboxRuns (d : Dev) : Bool := d.get Reg.GLB_BOOT_STAGE != 0

/-- An access that only the owner makes: any other is ignored and counted (R666). -/
def mboxOwned (via : Via) (f : Dev → Dev) (d : Dev) : Dev :=
  if ¬ mboxRuns d ∨ ¬ viaAnswered d via then d
  else if ownsMbox d via then f (mboxTouch d)
  else d.count Reg.MBOX_DENIED 1

/-- MBOX_CLAIM (R666, R667). -/
def mboxClaim (via : Via) (d : Dev) : Dev :=
  if ¬ mboxRuns d ∨ ¬ viaAnswered d via then d
  else if viaNumber via = 0 then d.count Reg.MBOX_DENIED 1
  else if d.get Reg.MBOX_OWNER = 0 then mboxTouch (d.set Reg.MBOX_OWNER (viaNumber via))
  else when (ownsMbox d via) mboxTouch d

/-- MBOX_RELEASE (R666). -/
def mboxRelease (via : Via) (d : Dev) : Dev := mboxOwned via (fun e => e.set Reg.MBOX_OWNER 0) d

/-- MBOX_TIMEOUT (R667): no access for 1 s. -/
def mboxTimeout (d : Dev) : Dev :=
  if d.get Reg.MBOX_OWNER = 0 ∨ d.clock < d.mbox.lastAccess + 1000000000 then d
  else (d.set Reg.MBOX_OWNER 0).count Reg.MBOX_TIMEOUTS 1

/-- The last command's status and result (R666). -/
def mboxDone (status result : Nat) (d : Dev) : Dev :=
  (((d.set Reg.MBOX_STATUS status).set Reg.MBOX_DONE_TAG (d.get Reg.MBOX_TAG)).set Reg.MBOX_RESULT result).count
    Reg.MBOX_COMMANDS 1

/-- Bytes at the start of MBOX_DATA. -/
def mboxPut (b : Bytes) (d : Dev) : Dev :=
  d.set Reg.MBOX_DATA (d.get Reg.MBOX_DATA / 2 ^ (8 * b.length) * 2 ^ (8 * b.length) + unle b)

/-- REGION_INIT and READY have been reached (R668): a halt before them never reaches them. -/
def reachedRegion (d : Dev) : Bool := d.boot.hbmTrained
def reachedReady (d : Dev) : Bool := d.boot.hbmTrained && (d.isM0 || d.boot.flashLoaded)

/-- Run a mailbox command unless one of its checks applies (R668). -/
def mboxChecked (checks : List (Bool × Nat)) (f : Dev → Dev) (d : Dev) : Dev :=
  match lowest checks with
  | some st => mboxDone st 0 d
  | none => f d

/-- The groups that REG_READ and REG_WRITE act in, ascending: aligned groups of eight bytes, else four (R668). -/
def regGroups (fuel offset len : Nat) : List (Nat × Nat) :=
  match fuel with
  | 0 => []
  | k + 1 =>
    if len = 0 then []
    else if offset % 8 = 0 ∧ 8 ≤ len then (offset, 8) :: regGroups k (offset + 8) (len - 8)
    else (offset, 4) :: regGroups k (offset + 4) (len - 4)

/-- The checks of a register range (R668). -/
def regRangeBad (d : Dev) : Bool :=
  let o := d.get (Reg.MBOX_ARG 0)
  let n := d.get (Reg.MBOX_ARG 1)
  !decide (o % 4 = 0 ∧ n % 4 = 0 ∧ 4 ≤ n ∧ n ≤ 2048 ∧ o + n ≤ 512 * 4096)

/-- The checks of a byte range of `size` bytes (R668). -/
def byteRangeBad (size : Nat) (d : Dev) : Bool :=
  !decide (1 ≤ d.get (Reg.MBOX_ARG 1) ∧ d.get (Reg.MBOX_ARG 1) ≤ 2048
    ∧ d.get (Reg.MBOX_ARG 0) + d.get (Reg.MBOX_ARG 1) ≤ size)

/-- GET_STAGE (R668). -/
def getStage (d : Dev) : Dev :=
  let st := d.get Reg.GLB_BOOT_STAGE
  mboxDone stSuccess (st + if st = 7 then d.boot.failImage * 2 ^ 8 + d.boot.failStatus * 2 ^ 16 else 0) d

/-- REG_READ (R668). -/
def mboxRegRead (via : Via) (d : Dev) : Dev :=
  mboxChecked [(regRangeBad d, stInvalidField), (!reachedRegion d, stNotReady)] (fun e =>
    let r := (regGroups 512 (e.get (Reg.MBOX_ARG 0)) (e.get (Reg.MBOX_ARG 1))).foldl (fun (acc : Bytes × Dev) g =>
      let x := regRead via g.1 g.2 acc.2
      (acc.1 ++ le g.2 x.1, x.2)) ([], e)
    mboxDone stSuccess 0 (mboxPut r.1 r.2)) d

/-- REG_WRITE (R668): a page of an absent block takes nothing (R659). -/
def mboxRegWrite (via : Via) (d : Dev) : Dev :=
  mboxChecked [(regRangeBad d, stInvalidField), (!reachedRegion d, stNotReady)] (fun e =>
    let o := e.get (Reg.MBOX_ARG 0)
    let data := e.get Reg.MBOX_DATA
    mboxDone stSuccess 0 (forAll (regGroups 512 o (e.get (Reg.MBOX_ARG 1))) (fun g x =>
      regGate via (g.1 / 4096) (openWrite via g.1 g.2 (data / 2 ^ (8 * (g.1 - o)) % 2 ^ (8 * g.2))) x) e)) d

/-- DUMP_READ (R630, R668). -/
def mboxDumpRead (d : Dev) : Dev :=
  mboxChecked [(byteRangeBad 268435456 d, stInvalidField), (!reachedRegion d, stNotReady), (d.ras.dump.isNone, stDumpNone)]
    (fun e =>
      let b := match e.ras.dump with
        | some x => ((dumpBytes x).drop (e.get (Reg.MBOX_ARG 0))).take (e.get (Reg.MBOX_ARG 1))
        | none => []
      mboxDone stSuccess 0 (mboxPut b e)) d

/-- DUMP_CLEAR (R631, R668). -/
def mboxDumpClear (d : Dev) : Dev :=
  mboxChecked [(!reachedRegion d, stNotReady), (d.ras.dump.isNone, stDumpNone)] (fun e => mboxDone stSuccess 0 (dumpErase e)) d

/-- ERRLOG_READ (R627, R668): at most 32 records, oldest first. -/
def mboxErrlogRead (d : Dev) : Dev :=
  mboxChecked [(!reachedRegion d, stNotReady)] (fun e =>
    let recs := ((errlogFrom e (e.get (Reg.MBOX_ARG 0))).map errRecBytes).take 32
    mboxDone stSuccess recs.length (mboxPut recs.flatten e)) d

/-- HEALTH_READ (R490, R668). -/
def mboxHealthRead (d : Dev) : Dev :=
  mboxChecked [(byteRangeBad 8512 d, stInvalidField), (!reachedReady d, stNotReady), (d.isM0, stUnsupported)] (fun e =>
    mboxDone stSuccess 0 (mboxPut (((padTo 8512 (healthBytes e)).drop (e.get (Reg.MBOX_ARG 0))).take (e.get (Reg.MBOX_ARG 1))) e)) d

/-- MODULE_RESET (R668): it starts 1 ms after completion. -/
def mboxModuleReset (d : Dev) : Dev :=
  mboxChecked [(d.get (Reg.MBOX_ARG 0) != 0x5253544D, stInvalidField)] (fun e =>
    mboxDone stSuccess 0 { e with mbox := { e.mbox with resetAt := some (e.clock + 1000000) } }) d

/-- A command by its opcode (R668). -/
def mboxRun (via : Via) (op : Nat) (d : Dev) : Dev :=
  match op with
  | 0x01 => getStage d
  | 0x02 => mboxRegRead via d
  | 0x03 => mboxRegWrite via d
  | 0x04 => mboxDumpRead d
  | 0x05 => mboxDumpClear d
  | 0x06 => mboxErrlogRead d
  | 0x07 => mboxHealthRead d
  | 0x08 => mboxModuleReset d
  | _ => mboxDone stInvalidOpcode 0 d

/-- The row of a mailbox command: its owner writes the opcode and MBOX_GO. -/
def mboxRow (via : Via) (op : Nat) (d : Dev) : Dev :=
  mboxOwned via (fun e => mboxRun via op (e.set Reg.MBOX_OPCODE op)) d

/-- A write of an interface to the MBOX page (R660, R666). -/
def mboxWrite (via : Via) (o size v : Nat) (d : Dev) : Dev :=
  if o = 0x104 ∨ (o = 0x100 ∧ size = 8) then
    let w := if o = 0x104 then v else v / 2 ^ 32
    when (bitAt w 1) (mboxRelease via) (when (bitAt w 0) (mboxClaim via) d)
  else if o < 0x104 then regGate via 7 (openWrite via (0x7000 + o) size v) d
  else mboxOwned via (fun e =>
    let e1 := openWrite via (0x7000 + o) size v e
    let go := (o == 0x10C && bitAt v 0) || (o == 0x108 && size == 8 && bitAt v 32)
    when go (fun x => mboxRun via (x.get Reg.MBOX_OPCODE) x) e1) d

/-- An accepted MODULE_RESET starts (R668). -/
def resetDue (d : Dev) : Dev :=
  match d.mbox.resetAt with
  | some t => if t ≤ d.clock then moduleReset d else d
  | none => d

/-- REGISTER_WRITE (R8, R656-R659, R666). -/
def registerWrite (via : Via) (offset size v : Nat) (d : Dev) : Dev :=
  if ¬ accessOk offset size then badAccess via d
  else if offset / 4096 = 7 then mboxWrite via (offset % 4096) size v d
  else regGate via (offset / 4096) (openWrite via offset size v) d

/-! ### The meanings -/

def execLockWrite (via : Via) (page : Nat) (s : State) : Host.Outcome State Fault Refusal :=
  s.run (regGate via page (lockPage page))
def execGlbLockAll (via : Via) (s : State) : Host.Outcome State Fault Refusal := s.run (regGate via 0 lockAll)
def execCntClear (via : Via) (page : Nat) (s : State) : Host.Outcome State Fault Refusal :=
  s.run (regGate via page (clearCounters page))
def execCounterWriteClear (via : Via) (offset : Nat) (s : State) : Host.Outcome State Fault Refusal :=
  s.run (regGate via (offset / 4096) (counterWrite offset))
def execBlkIntStatusW1c (via : Via) (page mask : Nat) (s : State) : Host.Outcome State Fault Refusal :=
  s.run (regGate via page (fieldWrite (Reg.BLK_INT_STATUS page) mask))
def execBlkIntSet (via : Via) (page mask : Nat) (s : State) : Host.Outcome State Fault Refusal :=
  s.run (regGate via page (intSet page mask))
def execRegLowHalfRead (via : Via) (offset : Nat) (s : State) : Host.Outcome State Fault Refusal := s.run (lowHalfRead via offset)
def execRegisterWrite (via : Via) (offset size value : Nat) (s : State) : Host.Outcome State Fault Refusal :=
  s.run (registerWrite via offset size value)
def execMboxClaim (via : Via) (s : State) : Host.Outcome State Fault Refusal := s.run (mboxClaim via)
def execMboxRelease (via : Via) (s : State) : Host.Outcome State Fault Refusal := s.run (mboxRelease via)
def execMboxTimeout (s : State) : Host.Outcome State Fault Refusal := s.run mboxTimeout
def execMboxGetStage (via : Via) (s : State) : Host.Outcome State Fault Refusal := s.run (mboxRow via 0x01)
def execMboxRegRead (via : Via) (s : State) : Host.Outcome State Fault Refusal := s.run (mboxRow via 0x02)
def execMboxRegWrite (via : Via) (s : State) : Host.Outcome State Fault Refusal := s.run (mboxRow via 0x03)
def execMboxDumpRead (via : Via) (s : State) : Host.Outcome State Fault Refusal := s.run (mboxRow via 0x04)
def execMboxDumpClear (via : Via) (s : State) : Host.Outcome State Fault Refusal := s.run (mboxRow via 0x05)
def execMboxErrlogRead (via : Via) (s : State) : Host.Outcome State Fault Refusal := s.run (mboxRow via 0x06)
def execMboxHealthRead (via : Via) (s : State) : Host.Outcome State Fault Refusal := s.run (mboxRow via 0x07)
def execMboxModuleReset (via : Via) (s : State) : Host.Outcome State Fault Refusal := s.run (mboxRow via 0x08)

end Sys2Proof.Machine
end

