-- ==== Sys2Proof/Machine/Tick.lean ====
section
/-! DEFINITION. The step tick: firing a boundary, sealing a plan, and the plan entries that open windows, switch gate lists,
promote and maintain (R50-R72, R131, R458, R461, R680). -/

namespace Sys2Proof.Machine

open Sys2Proof

/-! ### Boundaries (R50, R56, R57, R680) -/

/-- The number of the tick that begins at a counter value (R57, R680). -/
def tickNumber (d : Dev) (at_ : Nat) : Nat :=
  ((((at_ : Int) - d.get Reg.TICK_EPOCH) / (max 1 (d.get Reg.TICK_PERIOD_NS) : Nat)) % (two64 : Nat)).toNat

/-- The boundary that follows a step correction or a grid change, once the counter has reached it (R56). -/
def correctedBoundary (d : Dev) : Option Nat :=
  let p := max 1 (d.get Reg.TICK_PERIOD_NS)
  let last : Int := (d.now : Int) - ((d.now : Int) - d.get Reg.TICK_EPOCH) % (p : Nat)
  let e : Int := (d.clock : Int) - d.tick.startLocal - (d.now - last)
  if e < p then none else some (last - (e - p) / (p : Nat) * p).toNat

/-- The boundary that the counter has reached and that has not fired. -/
def dueBoundary (d : Dev) : Option Nat :=
  if ¬ deviceReady d ∨ d.pwr.shed then none
  else if d.tick.running ∧ d.tick.corrected then correctedBoundary d
  else
    let b := if d.tick.running then d.tick.start + d.tick.period else gridFrom d d.tick.start
    if b ≤ d.now then some b else none

/-- A pending period change whose instant the boundary has reached takes effect (R55, R57). A boundary that is not one of the
new grid is followed by the first that is. -/
def changeAtTick (b : Nat) (d : Dev) : Dev :=
  if d.get Reg.TICK_CHANGE_AT ≠ 0 ∧ d.get Reg.TICK_CHANGE_AT ≤ b then
    let d1 := applyPeriodChange d
    setTick { d1.tick with corrected := !onGrid d1 b } d1
  else d

/-! ### Plans (R62-R65) -/

/-- A plan without entries. -/
def emptyPlan (d : Dev) : Plan :=
  { number := 0
    start := 0
    period := 0
    localOnly := ticksLocal d
    maint := false
    empty := true
    entries := []
    steps := []
    quads := 0
    digest := planDigest [] }

/-- A plan becomes that of the tick that begins at `b` (R57). -/
def planAt (p : Plan) (number b period : Nat) : Plan :=
  { p with
    number := number
    start := b
    period := period }

/-- Put an entry in ascending order of offset, behind those of its own. -/
def entryInsert (e : PlanEntry) (l : List PlanEntry) : List PlanEntry :=
  match l with
  | [] => [e]
  | x :: r => if e.offset < x.offset then e :: x :: r else x :: entryInsert e r

/-- Entries in ascending order of offset, at most 16,384 of them (R65). -/
def entrySort (l : List PlanEntry) : List PlanEntry := (l.foldl (fun acc e => entryInsert e acc) []).take 16384

/-- `n` free values in a row (log entry 3). -/
def freeMany (n : Nat) (d : Dev) : List Nat × Dev :=
  ((List.range n).map fun i => Config.freeNat (d.free + i), { d with free := d.free + n })

/-- Running sums. -/
def sums (acc : Nat) (l : List Nat) : List Nat :=
  match l with
  | [] => []
  | x :: r => (acc + x) :: sums (acc + x) r

/-- Number of layers of the batch: the most of any model with a step in it. -/
def batchLayers (d : Dev) : Nat :=
  (d.run.steps.map fun s => (((findDesc d s.key).bind fun x => findModel d x.model).map (·.layers)).getD 0).foldl max 0

/-- The batch has a step of a group of several modules. -/
def batchGroups (d : Dev) : Bool :=
  d.run.steps.any fun s => ((findDesc d s.key).bind fun x => findModel d x.model).any fun m => decide (1 < m.group)

/-- Ports of a window: a run that the device chooses. -/
def portRun (a b : Nat) : Nat × Nat := (a % 16, a % 16 + b % (16 - a % 16))

/-- Entries of the batch (R32, R65, R378, R458): its start, its layers, and the collective windows of multi-module steps. Where
the layers start and the windows lie is the device's choice (log entry 3). -/
def batchEntries (deadline : Nat) (d : Dev) : List PlanEntry × Dev :=
  if d.run.steps.isEmpty then ([], d)
  else
    let n := batchLayers d
    let (g, d1) := freeMany (n + 1) d
    let starts := sums 0 ((g.drop 1).map fun v => v % (deadline / (n + 1)))
    let layers := (starts.zip (List.range n)).map fun l => (⟨l.1, actLayerStart, 0, 0, 0, l.2⟩ : PlanEntry)
    let w := if batchGroups d then 2 * n else 0
    let (f, d2) := freeMany (4 * w) d1
    let win := (List.range w).map fun i =>
      let v := fun (j : Nat) => (f[4 * i + j]?).getD 0
      let p := portRun (v 2) (v 3)
      (⟨v 0 % deadline, actCollective, 3, p.1, p.2, v 1 % deadline⟩ : PlanEntry)
    (⟨0, actBatchStart, 0, 0, 0, (g[0]?).getD 0 % two64⟩ :: layers ++ win, d2)

/-- Objects that the draft's steps need, and the sessions that a hint or an APPEND revives (R134, R360). -/
def promoList (d : Dev) : List SessKey :=
  (d.sess.descs.filter fun x => (x.state == ssActive && x.turn.isSome && (!(stepObjects d x).isEmpty
      || ((x.turn.bind (·.revive)).isSome && !(lowerPages d x).isEmpty)))
    || (x.isHome && hintDue d x && !(lowerPages d x).isEmpty)).map descKey

/-- A capture writes to a REMOTE store (R524). -/
def remoteCapture (d : Dev) : Bool := d.ckpt.captures.any fun c => ckRunning c && c.kind == 1

/-- Entries that move data: PROMOTE_BATCH and CKPT_WINDOW, at offsets that the device chooses. -/
def moveEntries (deadline : Nat) (d : Dev) : List PlanEntry × Dev :=
  let (f, d1) := freeMany 6 d
  let v := fun (j : Nat) => (f[j]?).getD 0
  let p := portRun (v 4) (v 5)
  ((if (promoList d).isEmpty then [] else [(⟨v 0 % deadline, actPromote, 5, 0, 1, v 1 % two64⟩ : PlanEntry)])
    ++ (if remoteCapture d then [(⟨v 2 % deadline, actCkptWindow, 3, p.1, p.2, v 3 % deadline⟩ : PlanEntry)] else []), d1)

/-! ### Maintenance (R69-R72) -/

/-- The template gives a tick a maintenance gate (R69). -/
def gateTick (d : Dev) (number : Nat) : Bool :=
  d.get Reg.TICK_MAINT_EVERY != 0 && signedOf 64 (number % two64) % (d.get Reg.TICK_MAINT_EVERY : Nat) == 0

/-- The two requests act on the same units. -/
def sameUnit (a b : MaintReq) : Bool := a.unitClass == b.unitClass && a.unit == b.unit && a.sub == b.sub

/-- Place one request at the seal of plan `number`, the one of tick `idx` as `fired` counts: in its gate; or in a later gate of
the next 64 ticks; or as a maintenance tick (R70, R72). -/
def placeMaint (number idx guard : Nat) (r : MaintReq) (d : Dev) : Dev :=
  let fits := decide (r.length ≤ guard)
  let free := !d.tick.maint.any fun x => x.placed == some idx && sameUnit x r
  let put := fun (x : MaintReq) => setTick { d.tick with
    maint := d.tick.maint.map fun y => if y == r then x else y } d
  if fits ∧ gateTick d number ∧ free then put { r with placed := some idx }
  else if fits ∧ (List.range 63).any (fun i => gateTick d (number + 1 + i)) then d
  else if free then put { r with
    placed := some idx
    asTick := true }
  else d

/-- Place every request that waits. -/
def maintSeal (number idx guard : Nat) (d : Dev) : Dev :=
  forAll (d.tick.maint.filter fun r => r.kind != 2 && r.placed.isNone) (fun r e => placeMaint number idx guard r e) d

/-- Requests that make a maintenance tick of the tick with index `idx`. -/
def tickRequests (d : Dev) (idx : Nat) : List MaintReq := (maintOf d idx).filter (·.asTick)

/-- The unit range of a request's plan entry (R65): the four Galleries of a quad, or an HBM stack. -/
def maintUnits (r : MaintReq) : Nat × Nat := if r.unitClass = 1 then (r.unit, r.unit + 3) else (r.unit, r.unit)

/-- Entries of maintenance (R69, R72). -/
def maintEntries (number idx guard period : Nat) (d : Dev) : List PlanEntry × Dev :=
  let rs := tickRequests d idx
  let (f, d1) := freeMany rs.length d
  ((rs.zip f).map (fun r => (⟨0, actCalibrate, r.1.unitClass, (maintUnits r.1).1, (maintUnits r.1).2, r.2 % two64⟩ : PlanEntry))
    ++ (if gateTick d number then [(⟨period - guard, actMaintGate, 0, 0, 0, guard⟩ : PlanEntry)] else []), d1)

/-! ### The seal (R62, R131) -/

/-- A command takes its effect at the seal of the plan it entered, and is pending no longer; a code that its acceptance gave is
written now (R68, R98, R103, R130). -/
def commandSeal (m : Cmd) (d : Dev) : Dev :=
  if ¬ d.host.accepted.any (sameCmd m) then d
  else
    let d1 := setHost { d.host with accepted := d.host.accepted.filter fun x => !sameCmd x m } d
    match m.fail with
    | some st => failWith m st d1
    | none => opApply m.c.opcode m d1

/-- A session opcode that names a session (R129). -/
def namesSession (m : Cmd) : Bool :=
  decide (0x20 ≤ m.c.opcode ∧ m.c.opcode ≤ 0x2B) && !(m.c.opcode == 0x2B && m.c.sid == 0)

/-- A command has its instant and has reached its plan. -/
def commandReady (idx : Nat) (m : Cmd) : Bool := m.wait == .none && decide (m.plan ≤ idx)

/-- A command of a session waits behind every earlier one of that session (R91, R102, R287). -/
def commandBehind (d : Dev) (idx : Nat) (m : Cmd) : Bool :=
  namesSession m && d.host.accepted.any fun x =>
    namesSession x && cmdKey x.c == cmdKey m.c && decide (x.order < m.order) && !commandReady idx x

/-- Accepted commands take effect in order of acceptance (R131). -/
def commandsSeal (idx : Nat) (d : Dev) : Dev :=
  forAll (d.host.accepted.filter fun m => commandReady idx m && !commandBehind d idx m) commandSeal d

/-- Compaction at the seal; the long pages that a park has built are demoted (R188, R191, R370). -/
def compactionSeal (d : Dev) : Dev :=
  let ks := ((d.kv.builds.filter fun b => b.done && b.park).map fun b => (b.key, b.pressure)).eraseDups
  forAll ks (fun k e => if (findDesc e k.1).any fun x => x.state == ssParked then parkDemote k.1 k.2 e else e) (compactSeal d)

/-- Private copies of pages that are no longer a session's open page are dropped. -/
def copiesSeal (d : Dev) : Dev :=
  setTier { d.tier with copies := d.tier.copies.filter fun c => match c.kind with
    | .privatePage k page => !c.done || (findDesc d k).any fun x => (openPage x).any fun e => e.page == page
    | _ => true } d

/-- What the seal of plan `number` does before it drafts entries, in the order of R131 and R522: the commits and carries of the
ending tick, captures, commands, timers, then pools, caps, contexts and admissions. It gives the quads available. -/
def sealWork (number idx guard : Nat) (d : Dev) : Nat × Dev :=
  let d1 := commandsSeal idx (matchSeal <| captureSeal number (copiesSeal (carrySeal (commitSeal d))))
  let d2 := compactionSeal (timersSeal d1)
  let d3 := forAll (d2.sess.descs.map descKey) wakeHint d2
  let d4 := pressureSeal (restoreSeal (mergeSeal (loadsSeal d3)))
  let d5 := thermSeal (maxWakes (forAll (List.range 8) levelVt d4))
  let (quads, d6) := capSeal d5
  (quads, maintSeal number idx guard (pagesSeal (placeSeal quads (admitSeal number quads (rotateAll quads d6)))))

/-- The armed gate-list switch falls into the tick being planned (R461). -/
def switchEntries (start period : Nat) (d : Dev) : List PlanEntry :=
  match d.link.armed with
  | some (id, at_) =>
    if start ≤ at_ ∧ at_ < start + period then [⟨at_ - start, actGateSwitch, 0, 0, 0, id⟩] else []
  | none => []

/-- The number, start and period of the tick after the running one, when no correction comes from now on (R50, R55, R57). -/
def nextTick (d : Dev) : Nat × Nat × Nat :=
  let b := nextTickStart d
  let d1 := changeAtTick b d
  (tickNumber d1 b, b, d1.get Reg.TICK_PERIOD_NS)

/-- The offset of the running tick's step deadline (R52). -/
def deadlineOffset (d : Dev) : Nat := d.tick.period - d.get Reg.TICK_GUARD_NS

/-- STEP_DEADLINE (R53, R62, R131): the work of the seal, and the plan of the next tick. -/
def sealPlan (d : Dev) : Dev :=
  let (number, start, period) := nextTick d
  let guard := d.get Reg.TICK_GUARD_NS
  let idx := d.tick.fired + 1
  let dl := period - guard
  let (quads, d1) := sealWork number idx guard d
  let (batch, d2) := batchEntries dl d1
  let (move, d3) := moveEntries dl d2
  let (maint, d4) := maintEntries number idx guard period d3
  let work := maint ++ batch ++ move ++ switchEntries start period d4
    ++ [⟨dl, actDeadline, 0, 0, 0, 0⟩, ⟨dl, actSeal, 0, 0, 0, (number + 1) % two64⟩]
  let entries := entrySort (work ++ chooserEntries d4 work dl quads guard period)
  let p : Plan :=
    { number := number
      start := start
      period := period
      localOnly := ticksLocal d4
      maint := !(tickRequests d4 idx).isEmpty
      empty := false
      entries := entries
      steps := d4.run.steps.map fun s => ⟨s.key, s.step, decide (s.attempt ≠ 0), s.intake, s.attempt⟩
      quads := quads
      digest := planDigest entries }
  let d5 := planWakes work dl quads (tickEndClock d4)
    (d4.set Reg.PWR_PLANS_SEEN (min 16 (d4.get Reg.PWR_PLANS_SEEN + 1)))
  setTick { d5.tick with
    next := some p
    ring := (p :: d5.tick.ring).take 64
    sealed := true } d5

/-- The step deadline has passed, in elapsed time after a step correction (R52, R57), and the tick is not sealed. -/
def deadlineDue (d : Dev) : Bool :=
  d.tick.running && !d.tick.sealed && (if d.tick.corrected then decide (d.tick.startLocal + deadlineOffset d ≤ d.clock)
    else decide (d.tick.start + deadlineOffset d ≤ d.now))

def stepDeadline (d : Dev) : Dev := if deadlineDue d then sealPlan d else d

/-! ### A tick fires (R50, R51, R59, R61, R64) -/

/-- Members of this module's groups. -/
def groupPeers (d : Dev) : List Nat :=
  (((d.tier.models.filter fun m => decide (1 < m.group)).flatMap (·.members)).eraseDups).filter (· != d.self)

/-- Deadlines that a step correction has passed take effect (R57, R448, R461). -/
def passedDeadlines (d : Dev) : Dev :=
  let d1 := forAll (List.range 16) keySwitch d
  match d1.link.armed with
  | some (id, at_) =>
    if at_ ≤ d1.now then
      (setLink { d1.link with armed := none } (d1.set Reg.GL_ACTIVE id)).set Reg.GL_ARMED 0
    else d1
  | none => d1

/-- The tick that ended without a sealed plan: its steps are carried, and an empty plan runs (R64). -/
def unsealedTick (d : Dev) : Dev :=
  if d.tick.running ∧ ¬ d.tick.sealed then
    ((carrySeal (commitSeal d)).count Reg.TICK_EMPTY_PLAN 1).raise 2 1
  else d

/-- The announcements that a tick's start brings: the steps of ACTIVE sessions that the running plan does not hold (R61). -/
def announceAll (d : Dev) : Dev :=
  forAll ((d.sess.descs.filter fun x => !d.run.steps.any fun s => s.key == descKey x).map descKey) announceNext d

/-- A boundary at counter value `b` fires. -/
def fireTick (b : Nat) (d : Dev) : Dev :=
  let d0 := unsealedTick d
  let d1 := changeAtTick b (setTick { d0.tick with
    corrected := false
    corrTo := 0 } d0)
  let d2 := if d.tick.corrected then passedDeadlines d1 else d1
  let number := tickNumber d2 b
  let period := d2.get Reg.TICK_PERIOD_NS
  let p := planAt ((d.tick.next).getD (emptyPlan d2)) number b period
  let ring := match d.tick.next, d2.tick.ring with
    | some _, _ :: r => p :: r
    | _, r => r
  let idx := d2.tick.fired + 1
  let d3 := setTick { d2.tick with
    running := true
    start := b
    startLocal := d2.clock - (d2.now - b)
    period := period
    plan := some p
    next := none
    ring := ring
    sealed := false
    fired := idx
    maintNow := tickRequests d2 idx
    lastMaint := if p.maint then some idx else d2.tick.lastMaint
    windows := d2.tick.windows.filter fun w => decide (d2.clock < w.until_) } (d2.set Reg.TICK_NOW number)
  let d4 := laneTests idx (routeTick (pushTick (shareRegions (publishBatch (powerTick d3)))))
  let d5 := refreshAll (setLink { d4.link with entry := 0 } d4)
  announceAll (sendAll (groupPeers d5) (.beacon number period (d5.get Reg.TICK_EPOCH)) d5)

/-- TICK_FIRE: the boundary that is due. -/
def tickFire (d : Dev) : Dev :=
  match dueBoundary d with
  | some b => fireTick b d
  | none => d

/-! ### Entries -/

/-- COLLECTIVE_WINDOW and CKPT_WINDOW (R458): a window of a class opens on the named ports for its length. -/
def windowEntry (tc : Nat) (e : PlanEntry) (d : Dev) : Dev :=
  let ps := (List.range 16).filter (namesPort e)
  refreshAll (setTick { d.tick with windows := d.tick.windows ++ ps.map fun p => ⟨tc, p, d.clock + e.arg⟩ } d)

/-- The current entry of the list in force (R458). -/
def gateEntry (d : Dev) : Dev :=
  setLink { d.link with entry := entryIndex (gateList d (d.get Reg.GL_ACTIVE)) (tickOffset d d.clock) } d

/-- GATE_LIST_SWITCH (R461). -/
def gateSwitch (id : Nat) (d : Dev) : Dev :=
  refreshAll (gateEntry ((setLink { d.link with armed := none } (d.set Reg.GL_ACTIVE id)).set Reg.GL_ARMED 0))

/-- GATE_ENTRY_START (R458): an entry of the list in force begins. -/
def gateEntryStart (d : Dev) : Dev := refreshAll (gateEntry d)

/-- PROMOTE_BATCH (R134, R360): the objects of the draft's steps, and every page of a session that is revived. -/
def promoteBatch (d : Dev) : Dev :=
  forAll (d.sess.descs.map descKey) (fun k e =>
    match findDesc e k with
    | none => e
    | some x =>
      if x.state = ssActive ∧ x.turn.isSome then
        if (x.turn.bind (·.revive)).isSome then revivePages k e
        else forAll (stepObjects e x) (fun p z => (promoteStart (.page p.id) z).2) e
      else wakeHint k e) d

/-- MAINT_GATE (R70): the requests placed in the gate run. -/
def maintGate (d : Dev) : Dev := forAll ((maintOf d d.tick.fired).filter fun r => !r.asTick) testRun d

/-- CALIBRATE (R72): the action on the named units runs. -/
def calibrate (e : PlanEntry) (d : Dev) : Dev :=
  forAll ((tickRequests d d.tick.fired).filter fun r => r.unitClass == e.unitClass && maintUnits r == (e.first, e.last)) testRun d

/-! ### The meanings -/

def execTickFire (s : State) : Host.Outcome State Fault Refusal := s.run tickFire
def execStepDeadline (s : State) : Host.Outcome State Fault Refusal := s.run stepDeadline
def execCollectiveWindow (e : PlanEntry) (s : State) : Host.Outcome State Fault Refusal :=
  s.run (launch actCollective e (windowEntry 1 e))
def execCkptWindow (e : PlanEntry) (s : State) : Host.Outcome State Fault Refusal :=
  s.run (launch actCkptWindow e (windowEntry 6 e))
def execGateListSwitch (e : PlanEntry) (s : State) : Host.Outcome State Fault Refusal :=
  s.run (launch actGateSwitch e (gateSwitch e.arg))
def execPromoteBatch (e : PlanEntry) (s : State) : Host.Outcome State Fault Refusal := s.run (launch actPromote e promoteBatch)
def execMaintGate (e : PlanEntry) (s : State) : Host.Outcome State Fault Refusal := s.run (launch actMaintGate e maintGate)
def execCalibrate (e : PlanEntry) (s : State) : Host.Outcome State Fault Refusal := s.run (launch actCalibrate e (calibrate e))
def execGateEntryStart (s : State) : Host.Outcome State Fault Refusal := s.run gateEntryStart

end Sys2Proof.Machine
end

