-- ==== Sys2Proof/Machine/Dispatch.lean ====
section
/-! DEFINITION. The meaning of every command: one arm per constructor of Instr. -/

namespace Sys2Proof.Machine

open Sys2Proof

def exec (i : Instr) (s : State) : Host.Outcome State Fault Refusal :=
  match i with
  | .timeNowNsRead via => Sys2Proof.Machine.execTimeNowNsRead via s
  | .timeSrcWrite via word => Sys2Proof.Machine.execTimeSrcWrite via word s
  | .ptpSyncRx msg => Sys2Proof.Machine.execPtpSyncRx msg s
  | .ptpDelayRespRx src delay => Sys2Proof.Machine.execPtpDelayRespRx src delay s
  | .syncTimeout => Sys2Proof.Machine.execSyncTimeout s
  | .holdoverExpire => Sys2Proof.Machine.execHoldoverExpire s
  | .ppsInEdge offset => Sys2Proof.Machine.execPpsInEdge offset s
  | .clk10mValidityChange valid => Sys2Proof.Machine.execClk10mValidityChange valid s
  | .ppsOutEdge => Sys2Proof.Machine.execPpsOutEdge s
  | .timeSet c => Sys2Proof.Machine.execTimeSet c s
  | .tickEpochWrite via value => Sys2Proof.Machine.execTickEpochWrite via value s
  | .tickGuardNsWrite via value => Sys2Proof.Machine.execTickGuardNsWrite via value s
  | .tickChangeAtWrite via value => Sys2Proof.Machine.execTickChangeAtWrite via value s
  | .periodChange => Sys2Proof.Machine.execPeriodChange s
  | .tickFire => Sys2Proof.Machine.execTickFire s
  | .stepDeadline => Sys2Proof.Machine.execStepDeadline s
  | .batchStart e => Sys2Proof.Machine.execBatchStart e s
  | .layerStart e => Sys2Proof.Machine.execLayerStart e s
  | .collectiveWindow e => Sys2Proof.Machine.execCollectiveWindow e s
  | .ckptWindow e => Sys2Proof.Machine.execCkptWindow e s
  | .gateListSwitch e => Sys2Proof.Machine.execGateListSwitch e s
  | .promoteBatch e => Sys2Proof.Machine.execPromoteBatch e s
  | .maintGate e => Sys2Proof.Machine.execMaintGate e s
  | .calibrate e => Sys2Proof.Machine.execCalibrate e s
  | .powerState e => Sys2Proof.Machine.execPowerState e s
  | .gateEntryStart => Sys2Proof.Machine.execGateEntryStart s
  | .tickBeaconRx src number period epoch => Sys2Proof.Machine.execTickBeaconRx src number period epoch s
  | .stepAnnounceRx src key step tick => Sys2Proof.Machine.execStepAnnounceRx src key step tick s
  | .commitVoteRx src key step => Sys2Proof.Machine.execCommitVoteRx src key step s
  | .stepCommit key => Sys2Proof.Machine.execStepCommit key s
  | .bindSlot slot part key size base admin => Sys2Proof.Machine.execBindSlot slot part key size base admin s
  | .unbindSlot slot flush => Sys2Proof.Machine.execUnbindSlot slot flush s
  | .unbindComplete slot => Sys2Proof.Machine.execUnbindComplete slot s
  | .unbindFlushTimeout slot => Sys2Proof.Machine.execUnbindFlushTimeout slot s
  | .hostLinkDown => Sys2Proof.Machine.execHostLinkDown s
  | .hostViral slot => Sys2Proof.Machine.execHostViral slot s
  | .hostLossComplete slot => Sys2Proof.Machine.execHostLossComplete slot s
  | .hostMemRead slot addr own => Sys2Proof.Machine.execHostMemRead slot addr own s
  | .hostMemWrite slot addr data => Sys2Proof.Machine.execHostMemWrite slot addr data s
  | .biResponseRx slot line dirty => Sys2Proof.Machine.execBiResponseRx slot line dirty s
  | .biTimeout slot line => Sys2Proof.Machine.execBiTimeout slot line s
  | .snapshotBiTimeout slot line => Sys2Proof.Machine.execSnapshotBiTimeout slot line s
  | .inboxSnapshotDone order => Sys2Proof.Machine.execInboxSnapshotDone order s
  | .sqTailDoorbell slot offset size value => Sys2Proof.Machine.execSqTailDoorbell slot offset size value s
  | .cqHeadDoorbell slot offset size value => Sys2Proof.Machine.execCqHeadDoorbell slot offset size value s
  | .watchedLineInvalidate slot q value => Sys2Proof.Machine.execWatchedLineInvalidate slot q value s
  | .commandFetch reads failed => Sys2Proof.Machine.execCommandFetch reads failed s
  | .msixHoldoffEnd slot vector => Sys2Proof.Machine.execMsixHoldoffEnd slot vector s
  | .q0EnableWrite via slot word => Sys2Proof.Machine.execQ0EnableWrite via slot word s
  | .nop c => Sys2Proof.Machine.execNop c s
  | .createSq c => Sys2Proof.Machine.execCreateSq c s
  | .deleteSq c => Sys2Proof.Machine.execDeleteSq c s
  | .createCq c => Sys2Proof.Machine.execCreateCq c s
  | .deleteCq c => Sys2Proof.Machine.execDeleteCq c s
  | .createStreamRing c => Sys2Proof.Machine.execCreateStreamRing c s
  | .deleteStreamRing c => Sys2Proof.Machine.execDeleteStreamRing c s
  | .createEventRing c => Sys2Proof.Machine.execCreateEventRing c s
  | .deleteEventRing c => Sys2Proof.Machine.execDeleteEventRing c s
  | .abort c => Sys2Proof.Machine.execAbort c s
  | .create c => Sys2Proof.Machine.execCreate c s
  | .append c => Sys2Proof.Machine.execAppend c s
  | .wait c => Sys2Proof.Machine.execWait c s
  | .park c => Sys2Proof.Machine.execPark c s
  | .stop c => Sys2Proof.Machine.execStop c s
  | .rewind c => Sys2Proof.Machine.execRewind c s
  | .fork c => Sys2Proof.Machine.execFork c s
  | .migrate c => Sys2Proof.Machine.execMigrate c s
  | .destroy c => Sys2Proof.Machine.execDestroy c s
  | .query c => Sys2Proof.Machine.execQuery c s
  | .modify c => Sys2Proof.Machine.execModify c s
  | .publish c => Sys2Proof.Machine.execPublish c s
  | .forwardedCommandRx f => Sys2Proof.Machine.execForwardedCommandRx f s
  | .forwardedCompletionRx src tag status result step data => Sys2Proof.Machine.execForwardedCompletionRx src tag status result step data s
  | .migrationComplete key => Sys2Proof.Machine.execMigrationComplete key s
  | .sessionParkTimer key => Sys2Proof.Machine.execSessionParkTimer key s
  | .sessionTtlExpire key => Sys2Proof.Machine.execSessionTtlExpire key s
  | .sessionGraceExpire key => Sys2Proof.Machine.execSessionGraceExpire key s
  | .wakeHintDue key => Sys2Proof.Machine.execWakeHintDue key s
  | .regionPinRx src name version pin => Sys2Proof.Machine.execRegionPinRx src name version pin s
  | .compactionDone key run => Sys2Proof.Machine.execCompactionDone key run s
  | .stairwellCopyDone id => Sys2Proof.Machine.execStairwellCopyDone id s
  | .pattnRequestRx src tag keySlot body => Sys2Proof.Machine.execPattnRequestRx src tag keySlot body s
  | .pattnResponseRx src body => Sys2Proof.Machine.execPattnResponseRx src body s
  | .allreducePartialRx src key step layer half elems => Sys2Proof.Machine.execAllreducePartialRx src key step layer half elems s
  | .allgatherShardRx src key step layer half elems => Sys2Proof.Machine.execAllgatherShardRx src key step layer half elems s
  | .peerListRx src key step entries => Sys2Proof.Machine.execPeerListRx src key step entries s
  | .remainderMsgRx src ns body => Sys2Proof.Machine.execRemainderMsgRx src ns body s
  | .biasLoad c => Sys2Proof.Machine.execBiasLoad c s
  | .biasFree c => Sys2Proof.Machine.execBiasFree c s
  | .querySample c => Sys2Proof.Machine.execQuerySample c s
  | .vocabLoad c => Sys2Proof.Machine.execVocabLoad c s
  | .vocabFree c => Sys2Proof.Machine.execVocabFree c s
  | .grammarLoad c => Sys2Proof.Machine.execGrammarLoad c s
  | .grammarFree c => Sys2Proof.Machine.execGrammarFree c s
  | .stopsetLoad c => Sys2Proof.Machine.execStopsetLoad c s
  | .stopsetFree c => Sys2Proof.Machine.execStopsetFree c s
  | .tokenize c => Sys2Proof.Machine.execTokenize c s
  | .detokenize c => Sys2Proof.Machine.execDetokenize c s
  | .tokenizationPassDone unit order => Sys2Proof.Machine.execTokenizationPassDone unit order s
  | .tokenIdsRx src key ids => Sys2Proof.Machine.execTokenIdsRx src key ids s
  | .loadedDataRx src kind handle model data => Sys2Proof.Machine.execLoadedDataRx src kind handle model data s
  | .loadedDataConfirmRx src kind handle model => Sys2Proof.Machine.execLoadedDataConfirmRx src kind handle model s
  | .backingLookupDone table key => Sys2Proof.Machine.execBackingLookupDone table key s
  | .rangeMap c => Sys2Proof.Machine.execRangeMap c s
  | .rangeUnmap c => Sys2Proof.Machine.execRangeUnmap c s
  | .rangePlace c => Sys2Proof.Machine.execRangePlace c s
  | .rangeCopyIn c => Sys2Proof.Machine.execRangeCopyIn c s
  | .rangeCopyOut c => Sys2Proof.Machine.execRangeCopyOut c s
  | .modelLoad c => Sys2Proof.Machine.execModelLoad c s
  | .modelUnload c => Sys2Proof.Machine.execModelUnload c s
  | .parkPolicySet c => Sys2Proof.Machine.execParkPolicySet c s
  | .t3Add c => Sys2Proof.Machine.execT3Add c s
  | .t3Remove c => Sys2Proof.Machine.execT3Remove c s
  | .partitionPull c => Sys2Proof.Machine.execPartitionPull c s
  | .promotionComplete obj => Sys2Proof.Machine.execPromotionComplete obj s
  | .demotionConfirmed obj => Sys2Proof.Machine.execDemotionConfirmed obj s
  | .weightWindowFill model layer => Sys2Proof.Machine.execWeightWindowFill model layer s
  | .routeLoad c => Sys2Proof.Machine.execRouteLoad c s
  | .exportSet c => Sys2Proof.Machine.execExportSet c s
  | .extentPut c => Sys2Proof.Machine.execExtentPut c s
  | .extentFree c => Sys2Proof.Machine.execExtentFree c s
  | .nmOp c => Sys2Proof.Machine.execNmOp c s
  | .peerDeclareLost c => Sys2Proof.Machine.execPeerDeclareLost c s
  | .frameRx port frame => Sys2Proof.Machine.execFrameRx port frame s
  | .fabReadRx t => Sys2Proof.Machine.execFabReadRx t s
  | .allocRx t => Sys2Proof.Machine.execAllocRx t s
  | .placeRx t => Sys2Proof.Machine.execPlaceRx t s
  | .sealRx t => Sys2Proof.Machine.execSealRx t s
  | .freeRx t => Sys2Proof.Machine.execFreeRx t s
  | .pushOpenRx t => Sys2Proof.Machine.execPushOpenRx t s
  | .pushDataRx t => Sys2Proof.Machine.execPushDataRx t s
  | .pushCloseRx t => Sys2Proof.Machine.execPushCloseRx t s
  | .nmOpRx t => Sys2Proof.Machine.execNmOpRx t s
  | .probeRx t => Sys2Proof.Machine.execProbeRx t s
  | .fabCompletionRx t => Sys2Proof.Machine.execFabCompletionRx t s
  | .fabTxnTimeout tag => Sys2Proof.Machine.execFabTxnTimeout tag s
  | .probeTimer => Sys2Proof.Machine.execProbeTimer s
  | .peerTimeout peer => Sys2Proof.Machine.execPeerTimeout peer s
  | .repairCopy obj => Sys2Proof.Machine.execRepairCopy obj s
  | .frameTxSelect port => Sys2Proof.Machine.execFrameTxSelect port s
  | .dataFlitRx port flit => Sys2Proof.Machine.execDataFlitRx port flit s
  | .idleFlitRx port flit => Sys2Proof.Machine.execIdleFlitRx port flit s
  | .creditFlitRx port flit => Sys2Proof.Machine.execCreditFlitRx port flit s
  | .nakFlitRx port flit => Sys2Proof.Machine.execNakFlitRx port flit s
  | .saltFlitRx port flit => Sys2Proof.Machine.execSaltFlitRx port flit s
  | .trainFlitRx port flit info => Sys2Proof.Machine.execTrainFlitRx port flit info s
  | .saltRoll port => Sys2Proof.Machine.execSaltRoll port s
  | .portEnWrite via port word => Sys2Proof.Machine.execPortEnWrite via port word s
  | .portRetrain via port => Sys2Proof.Machine.execPortRetrain via port s
  | .trainingStepTimeout port step lanes => Sys2Proof.Machine.execTrainingStepTimeout port step lanes s
  | .trainingComplete port working => Sys2Proof.Machine.execTrainingComplete port working s
  | .portDownRetry port => Sys2Proof.Machine.execPortDownRetry port s
  | .laneLossOfSignal port lane => Sys2Proof.Machine.execLaneLossOfSignal port lane s
  | .laneSerLimit port lane symbols => Sys2Proof.Machine.execLaneSerLimit port lane symbols s
  | .laneCalibration port lane => Sys2Proof.Machine.execLaneCalibration port lane s
  | .laneCalibrationDone port lane => Sys2Proof.Machine.execLaneCalibrationDone port lane s
  | .keySwitch port => Sys2Proof.Machine.execKeySwitch port s
  | .keyPrevExpire port => Sys2Proof.Machine.execKeyPrevExpire port s
  | .tokenBucketRefill => Sys2Proof.Machine.execTokenBucketRefill s
  | .glLoadIdWrite via value => Sys2Proof.Machine.execGlLoadIdWrite via value s
  | .glLoadDone data => Sys2Proof.Machine.execGlLoadDone data s
  | .glSwitchAtWrite via value => Sys2Proof.Machine.execGlSwitchAtWrite via value s
  | .flashReadDone unit r => Sys2Proof.Machine.execFlashReadDone unit r s
  | .flashProgramDone id failed => Sys2Proof.Machine.execFlashProgramDone id failed s
  | .flashEraseDone sb failed => Sys2Proof.Machine.execFlashEraseDone sb failed s
  | .foldStart => Sys2Proof.Machine.execFoldStart s
  | .gcStart => Sys2Proof.Machine.execGcStart s
  | .patrolRead sb worstBits beyondHard => Sys2Proof.Machine.execPatrolRead sb worstBits beyondHard s
  | .mapSnapshot => Sys2Proof.Machine.execMapSnapshot s
  | .channelFail ch busLost recoveries => Sys2Proof.Machine.execChannelFail ch busLost recoveries s
  | .rebuildComplete ch => Sys2Proof.Machine.execRebuildComplete ch s
  | .healthLogUpdate temp => Sys2Proof.Machine.execHealthLogUpdate temp s
  | .ftlHealthGet via word ok => Sys2Proof.Machine.execFtlHealthGet via word ok s
  | .indexCreate c => Sys2Proof.Machine.execIndexCreate c s
  | .indexLoad c => Sys2Proof.Machine.execIndexLoad c s
  | .indexCommit c => Sys2Proof.Machine.execIndexCommit c s
  | .sideAppend c => Sys2Proof.Machine.execSideAppend c s
  | .search c => Sys2Proof.Machine.execSearch c s
  | .mergeBack c => Sys2Proof.Machine.execMergeBack c s
  | .indexDestroy c => Sys2Proof.Machine.execIndexDestroy c s
  | .searchPassDone id => Sys2Proof.Machine.execSearchPassDone id s
  | .mergeBackBuildDone handle => Sys2Proof.Machine.execMergeBackBuildDone handle s
  | .ckptStoreSet c => Sys2Proof.Machine.execCkptStoreSet c s
  | .ckptBegin c => Sys2Proof.Machine.execCkptBegin c s
  | .ckptAbort c => Sys2Proof.Machine.execCkptAbort c s
  | .ckptRestore c => Sys2Proof.Machine.execCkptRestore c s
  | .ckptDrop c => Sys2Proof.Machine.execCkptDrop c s
  | .ckptList c => Sys2Proof.Machine.execCkptList c s
  | .ckptExport c => Sys2Proof.Machine.execCkptExport c s
  | .ckptImport c => Sys2Proof.Machine.execCkptImport c s
  | .captureAnnounceRx src a => Sys2Proof.Machine.execCaptureAnnounceRx src a s
  | .captureChunkDone model firstOk secondOk => Sys2Proof.Machine.execCaptureChunkDone model firstOk secondOk s
  | .shardCommit model readEqual => Sys2Proof.Machine.execShardCommit model readEqual s
  | .shardVoteRx src model ckpt => Sys2Proof.Machine.execShardVoteRx src model ckpt s
  | .restoreRx src r => Sys2Proof.Machine.execRestoreRx src r s
  | .restoreBuildDone model verified => Sys2Proof.Machine.execRestoreBuildDone model verified s
  | .partConfig c => Sys2Proof.Machine.execPartConfig c s
  | .ctxSet c => Sys2Proof.Machine.execCtxSet c s
  | .ctxQuery c => Sys2Proof.Machine.execCtxQuery c s
  | .contextRestoreDone part ctx gallery => Sys2Proof.Machine.execContextRestoreDone part ctx gallery s
  | .engineDispatch gallery engine busy => Sys2Proof.Machine.execEngineDispatch gallery engine busy s
  | .unplannedWake dom => Sys2Proof.Machine.execUnplannedWake dom s
  | .domUnplannedExpire dom => Sys2Proof.Machine.execDomUnplannedExpire dom s
  | .coolantSample inlet outlet flow watts => Sys2Proof.Machine.execCoolantSample inlet outlet flow watts s
  | .junctionSample cd0 cd1 => Sys2Proof.Machine.execJunctionSample cd0 cd1 s
  | .flowAlarm agree => Sys2Proof.Machine.execFlowAlarm agree s
  | .inputLoss microV => Sys2Proof.Machine.execInputLoss microV s
  | .inputLow millivolt => Sys2Proof.Machine.execInputLow millivolt s
  | .inputOvervoltage millivolt => Sys2Proof.Machine.execInputOvervoltage millivolt s
  | .holdupMeasureDue => Sys2Proof.Machine.execHoldupMeasureDue s
  | .holdupMeasNow via word => Sys2Proof.Machine.execHoldupMeasNow via word s
  | .holdupMeasDone onsetMicroV fallMicros => Sys2Proof.Machine.execHoldupMeasDone onsetMicroV fallMicros s
  | .holdupCharged => Sys2Proof.Machine.execHoldupCharged s
  | .attest c => Sys2Proof.Machine.execAttest c s
  | .attestCert c => Sys2Proof.Machine.execAttestCert c s
  | .measureExtend c => Sys2Proof.Machine.execMeasureExtend c s
  | .fwStage c => Sys2Proof.Machine.execFwStage c s
  | .fwActivate c => Sys2Proof.Machine.execFwActivate c s
  | .fwCommit c => Sys2Proof.Machine.execFwCommit c s
  | .keyRetire c => Sys2Proof.Machine.execKeyRetire c s
  | .debugUnlock token => Sys2Proof.Machine.execDebugUnlock token s
  | .selftest c => Sys2Proof.Machine.execSelftest c s
  | .errlogRead c => Sys2Proof.Machine.execErrlogRead c s
  | .dumpRead c => Sys2Proof.Machine.execDumpRead c s
  | .dumpClear c => Sys2Proof.Machine.execDumpClear c s
  | .errInject c => Sys2Proof.Machine.execErrInject c s
  | .hbmSpareCopy stack channel ceLines retired => Sys2Proof.Machine.execHbmSpareCopy stack channel ceLines retired s
  | .hbmSpareSwitch stack => Sys2Proof.Machine.execHbmSpareSwitch stack s
  | .hbmPatrolScrub stack line found => Sys2Proof.Machine.execHbmPatrolScrub stack line found s
  | .quadSelftestDue => Sys2Proof.Machine.execQuadSelftestDue s
  | .watchdogExpire core => Sys2Proof.Machine.execWatchdogExpire core s
  | .fatalError cause => Sys2Proof.Machine.execFatalError cause s
  | .coldReset => Sys2Proof.Machine.execColdReset s
  | .moduleReset => Sys2Proof.Machine.execModuleReset s
  | .hostLinkReset => Sys2Proof.Machine.execHostLinkReset s
  | .railPowerGood rail => Sys2Proof.Machine.execRailPowerGood rail s
  | .powerGoodTimeout => Sys2Proof.Machine.execPowerGoodTimeout s
  | .imageVerified image f => Sys2Proof.Machine.execImageVerified image f s
  | .hbmTrainingDone failed trained => Sys2Proof.Machine.execHbmTrainingDone failed trained s
  | .flashLoadDone => Sys2Proof.Machine.execFlashLoadDone s
  | .lockWrite via page => Sys2Proof.Machine.execLockWrite via page s
  | .glbLockAll via => Sys2Proof.Machine.execGlbLockAll via s
  | .cntClear via page => Sys2Proof.Machine.execCntClear via page s
  | .counterWriteClear via offset => Sys2Proof.Machine.execCounterWriteClear via offset s
  | .blkIntStatusW1c via page mask => Sys2Proof.Machine.execBlkIntStatusW1c via page mask s
  | .blkIntSet via page mask => Sys2Proof.Machine.execBlkIntSet via page mask s
  | .regLowHalfRead via offset => Sys2Proof.Machine.execRegLowHalfRead via offset s
  | .registerWrite via offset size value => Sys2Proof.Machine.execRegisterWrite via offset size value s
  | .mboxClaim via => Sys2Proof.Machine.execMboxClaim via s
  | .mboxRelease via => Sys2Proof.Machine.execMboxRelease via s
  | .mboxTimeout => Sys2Proof.Machine.execMboxTimeout s
  | .mboxGetStage via => Sys2Proof.Machine.execMboxGetStage via s
  | .mboxRegRead via => Sys2Proof.Machine.execMboxRegRead via s
  | .mboxRegWrite via => Sys2Proof.Machine.execMboxRegWrite via s
  | .mboxDumpRead via => Sys2Proof.Machine.execMboxDumpRead via s
  | .mboxDumpClear via => Sys2Proof.Machine.execMboxDumpClear via s
  | .mboxErrlogRead via => Sys2Proof.Machine.execMboxErrlogRead via s
  | .mboxHealthRead via => Sys2Proof.Machine.execMboxHealthRead via s
  | .mboxModuleReset via => Sys2Proof.Machine.execMboxModuleReset via s
  | .newelShadowScrub row found => Sys2Proof.Machine.execNewelShadowScrub row found s
  | .hostLinkUp => Sys2Proof.Machine.execHostLinkUp s

end Sys2Proof.Machine
end

