-- ==== Sys2Proof/Machine/Idle.lean ====
section
/-! DEFINITION. What time alone does while no command comes (log entry 2): the counter, the busy engines, domains that are woken,
a staged firmware image, and a module reset that has been asked for. -/

namespace Sys2Proof.Machine

open Sys2Proof

/-- One nanosecond of the local oscillator (R39, R40, R556, R579, R594, R666, R674). -/
def nanosecond (d : Dev) : Dev := resetDue (stageDone (wakesDue (chargeClock (clk10mSecond (counterTick d)))))

/-- A step on an empty queue. -/
def idle (s : State) : Host.Outcome State Fault Refusal := s.run nanosecond

end Sys2Proof.Machine
end

