-- ==== Sys2Proof/Safety.lean ====
section
/-! DEFINITION. What statements speak of: how a command answers, what part of the device it may change, and which states are sound. -/

namespace Sys2Proof

open Sys2Proof.Machine

/-! ### Soundness -/

/-- Both memories are in canonical form. -/
def MemSound (s : State) : Prop := Memory.wf s.dev.mem = true

/-- Every bit 0-11 of GLB_MODE_STATUS agrees with its condition (R654). -/
def ModesAgree (d : Dev) : Prop := ∀ c ∈ modeConds d, d.get c.1 = if c.2 then 1 else 0

/-! ### Answers -/

/-- The command answers a next state: the queue is as it was, and the device is as `P` says. -/
def Gives (i : Instr) (s : State) (P : Dev → Prop) : Prop :=
  ∃ t, exec i s = .next t ∧ t.pending = s.pending ∧ P t.dev

/-- A submission entry of opcode `op` passes the general checks: its opcode, its reserved fields, READY, the variant, ADMIN and
SQ 0 (R10, R14, R97, R103, R646). -/
def Passes (op : Nat) (c : HostCmd) (d : Dev) : Prop := lowest (isOp op (cmdOf d c) ++ generalChecks d (cmdOf d c)) = none

/-- What the checks of an opcode's own chapter leave: no code applies. -/
def Clean (l : List (Bool × Nat)) : Prop := lowest l = none

/-! ### Parts of the device -/

/-- The device without its registers, its host interface and the record of its outputs. -/
def Dev.inner (d : Dev) : Dev := { d with regs := Dev.reset.regs, host := Dev.reset.host, out := [] }

/-- Places of the fields that follow other state, or that posting an event can change: the mode status, the servo's local-only
bit, the protection state, the objects and the key of a partition, the extended measurement, the copy deficit, and the two
counters of records that no ring took. -/
def followKeys : List Nat :=
  ([Reg.DEG_LOCAL_ONLY, Reg.DEG_HOLDOVER, Reg.DEG_GROUP_MISMATCH, Reg.DEG_GROUP_HELD, Reg.DEG_CAP_QUADS, Reg.DEG_CAP_ZERO,
    Reg.DEG_WEIGHT_LATE, Reg.DEG_MAINT_TICK, Reg.DEG_TIER_ABSENT, Reg.DEG_PLP_OFF, Reg.DEG_COPY_DEFICIT, Reg.DEG_NO_HOST,
    Reg.LOCAL_ONLY, Reg.FTL_PLP, Reg.SEC_MR 5, Reg.SEC_EXTENDS, Reg.FAB_COPY_DEFICIT]
   ++ (List.range 8).flatMap (fun p => [Reg.SEC_PART_OBJECTS p, Reg.SEC_PART_KEY p])
   ++ slotNumbers.flatMap fun n => [Reg.HOST_WRITES_DISCARDED n, Reg.HOST_EVENT_DROPPED n]).map Field.key

/-- The field is one of those, or an interrupt cause of a page (BLK_INT_STATUS, R660). -/
def follows (f : Field) : Bool := f.key % 32768 == 160 || followKeys.contains f.key

/-- Every register field reads as in `d`, but for those of `fs` and those that follow other state. -/
def Keeps (fs : List Field) (d t : Dev) : Prop := ∀ f, follows f = false → (∀ g ∈ fs, f.key ≠ g.key) → t.get f = d.get f

/-- The host interface is as in `d`, but for event records posted and interrupt messages sent (R109, R661). -/
def SameHost (d t : Dev) : Prop := t.host = { d.host with rings := t.host.rings, msix := t.host.msix }

/-- Every unit but the registers, the host interface and the outputs is as in `u`, and so is every register field but those of
`fs`. -/
def Leaves (fs : List Field) (u t : Dev) : Prop := Dev.inner t = Dev.inner u ∧ Keeps fs u t

/-- The device is as `u`, but for the register fields of `fs`, events and interrupt messages. -/
def Becomes (fs : List Field) (u t : Dev) : Prop := Leaves fs u t ∧ SameHost u t

/-- `o` is among what the device has sent since `d`. -/
def Sent (o : Out) (d t : Dev) : Prop := ∃ l, t.out = d.out ++ l ∧ o ∈ l

/-! ### Words of the statements -/

/-- The command is a valid sync of the selected source with offset `o`: a timing message, or an edge of PPS_IN while no TIME_SET
waits for it (R43-R45, R47). -/
def ValidSync (d : Dev) (i : Instr) (o : Int) : Prop :=
  match i with
  | .ptpSyncRx m => m.offset = o ∧ m.management = false ∧ m.authTlv = false ∧ m.domain = d.get Reg.TIME_PTP_DOMAIN
    ∧ sourceSelected d m.src = true
  | .ppsInEdge x => x = o ∧ d.get Reg.TIME_SRC = 3 ∧ d.time.edgeCmd = none
  | _ => False

/-- Sixteen syncs in a row, this one included, lie within 100 ns (R47). -/
def sixteenGood (d : Dev) (o : Int) : Bool := decide (o.natAbs ≤ 100 ∧ 15 ≤ d.time.good)

/-- The servo state after a valid sync with offset `o` (R47, R75). -/
def servoAfter (d : Dev) (o : Int) : Nat :=
  match d.get Reg.TIME_SERVO with
  | 0 => 1
  | 1 => if sixteenGood d o ∧ (d.get Reg.TIME_SRC ≠ 3 ∨ d.time.edgeSet) then 2 else 1
  | 2 => if 1000 < o.natAbs then 3 else 2
  | 3 => if sixteenGood d o then 2 else 3
  | _ => 1

/-- The device has taken a command of a slot (R103): it is counted, and the next one comes after it. -/
def taken (c : HostCmd) (d : Dev) : Dev :=
  { d with host := { d.host with nextOrder := d.host.nextOrder + 1 } }.count (Reg.HOST_CMDS_ACCEPTED c.slot) 1

/-- The command `m` ended with these as the last thing that happened: `u` is the device before. -/
def Ended (m : Cmd) (st result step : Nat) (data : List (Nat × Bytes)) (s u t : Dev) : Prop :=
  t = settle s (complete m st result step data u)

/-- The completion entry of `c` is written into the CQ of its SQ, when that has room and no entry waits (R92, R93, R95). -/
def Answers (c : HostCmd) (st result step : Nat) (d t : Dev) : Prop :=
  (st = 0 → cmdSuppress c = false) → ∀ q, findSq d c.slot c.sq = some q → ∀ r, findCq d c.slot q.cq = some r → r.waiting = [] →
    ringFull r.m r.head r.tail = false → Sent (.hostWrite c.slot (r.base + 32 * r.tail)
      (withPhase 31 r.phase (completionBytes c.cid c.sq st q.head c.sid result step))) d t

/-- The command `m`, taken from a host before, completes: its entry is written into its CQ, when that has room and no entry
waits (R92, R93, R95). -/
def Closes (m : Cmd) (st result step : Nat) (d t : Dev) : Prop :=
  ∀ slot sq cid head, m.origin = .host slot sq cid head → (st = 0 → cmdSuppress m.c = false) →
    ∀ q, findSq d slot sq = some q → ∀ r, findCq d slot q.cq = some r → r.waiting = [] → ringFull r.m r.head r.tail = false →
      Sent (.hostWrite slot (r.base + 32 * r.tail)
        (withPhase 31 r.phase (completionBytes cid sq st head m.c.sid result step))) d t

/-- What a lookup of a session, and the acceptance of its command, may change among the registers (R103, R329-R332). -/
def lookupFields (c : HostCmd) : List Field :=
  [Reg.HOST_CMDS_ACCEPTED c.slot, Reg.NEWEL_LOOKUPS, Reg.NEWEL_HITS, Reg.NEWEL_MISSES, Reg.NEWEL_FALSE_HIT, Reg.NEWEL_FALLBACK,
   Reg.NEWEL_SHADOW_CE, Reg.NEWEL_SHADOW_UE, Reg.NEWEL_ROWS_VALID, Reg.NEWEL_DIR_ENTRIES, Reg.NEWEL_STASH_USED]

/-- A command of opcode `op` reaches its session `x` on this module (R123): `e` is the device once the directory has answered. -/
def AtHome (op : Nat) (c : HostCmd) (d : Dev) (x : Desc) (e : Dev) : Prop :=
  Passes op c d ∧ resolve (cmdKey c) (taken c d) = (.home x, e) ∧ x.part = d.get (Reg.SLOT_PART c.slot)

/-! ### The commands that hosts submit -/

/-- Opcodes 0x00 to 0x44. -/
def hostRows1 : List ((HostCmd → Instr) × Nat) :=
  [(.nop, 0x00), (.createSq, 0x01), (.deleteSq, 0x02), (.createCq, 0x03), (.deleteCq, 0x04), (.createStreamRing, 0x05),
   (.deleteStreamRing, 0x06), (.createEventRing, 0x07), (.deleteEventRing, 0x08), (.abort, 0x09), (.create, 0x20),
   (.append, 0x21), (.wait, 0x22), (.park, 0x23), (.stop, 0x24), (.rewind, 0x25), (.fork, 0x26), (.migrate, 0x27),
   (.destroy, 0x28), (.query, 0x29), (.modify, 0x2A), (.publish, 0x2B), (.rangeMap, 0x40), (.rangeUnmap, 0x41),
   (.rangePlace, 0x42), (.rangeCopyIn, 0x43), (.rangeCopyOut, 0x44)]

/-- Opcodes 0x45 to 0x76. -/
def hostRows2 : List ((HostCmd → Instr) × Nat) :=
  [(.modelLoad, 0x45), (.modelUnload, 0x46), (.parkPolicySet, 0x47), (.t3Add, 0x48), (.t3Remove, 0x49),
   (.partitionPull, 0x4A), (.routeLoad, 0x50), (.exportSet, 0x51), (.extentPut, 0x52), (.extentFree, 0x53), (.nmOp, 0x54),
   (.peerDeclareLost, 0x55), (.vocabLoad, 0x60), (.vocabFree, 0x61), (.grammarLoad, 0x62), (.grammarFree, 0x63),
   (.stopsetLoad, 0x64), (.stopsetFree, 0x65), (.tokenize, 0x66), (.detokenize, 0x67), (.indexCreate, 0x70),
   (.indexLoad, 0x71), (.indexCommit, 0x72), (.sideAppend, 0x73), (.search, 0x74), (.mergeBack, 0x75), (.indexDestroy, 0x76)]

/-- Opcodes 0x78 to 0xA2. -/
def hostRows3 : List ((HostCmd → Instr) × Nat) :=
  [(.ckptStoreSet, 0x78), (.ckptBegin, 0x79), (.ckptAbort, 0x7A), (.ckptRestore, 0x7B), (.ckptDrop, 0x7C), (.ckptList, 0x7D),
   (.ckptExport, 0x7E), (.ckptImport, 0x7F), (.attest, 0x80), (.attestCert, 0x81), (.measureExtend, 0x82), (.fwStage, 0x83),
   (.fwActivate, 0x84), (.fwCommit, 0x85), (.keyRetire, 0x86), (.selftest, 0x88), (.errlogRead, 0x89), (.dumpRead, 0x8A),
   (.dumpClear, 0x8B), (.errInject, 0x8C), (.biasLoad, 0x90), (.biasFree, 0x91), (.querySample, 0x92), (.timeSet, 0x98),
   (.partConfig, 0xA0), (.ctxSet, 0xA1), (.ctxQuery, 0xA2)]

/-- Every command of the table that a host submits, with its opcode (R97, R118). -/
def hostRows : List ((HostCmd → Instr) × Nat) := hostRows1 ++ hostRows2 ++ hostRows3

/-- The command that loads data of a kind, with its opcode (R279, R313). -/
def loadRow (k : LoadKind) (c : HostCmd) : Instr × Nat :=
  match k with
  | .vocab => (.vocabLoad c, 0x60)
  | .grammar => (.grammarLoad c, 0x62)
  | .stopset => (.stopsetLoad c, 0x64)
  | .bias => (.biasLoad c, 0x90)

/-- The command that frees data of a kind, with its opcode (R279, R313). -/
def freeRow (k : LoadKind) (c : HostCmd) : Instr × Nat :=
  match k with
  | .vocab => (.vocabFree c, 0x61)
  | .grammar => (.grammarFree c, 0x63)
  | .stopset => (.stopsetFree c, 0x65)
  | .bias => (.biasFree c, 0x91)

/-- What is loaded is as in `d`. -/
def SameLoaded (d t : Dev) : Prop :=
  t.text.held = d.text.held ∧ t.text.vocabs = d.text.vocabs ∧ t.text.grammars = d.text.grammars ∧ t.text.stops = d.text.stops
  ∧ t.samp = d.samp

/-- Every descriptor but those of number `n` is as it was (R139). -/
def OtherSessions (n : Nat) (d t : Dev) : Prop := ∀ y ∈ d.sess.descs, y.index ≠ n → y ∈ t.sess.descs

/-- A transaction that `P` describes goes out to module `dst` in class `tc` (R401): it waits in the port part that the route
names, where the module has one. -/
def Goes (dst tc : Nat) (P : FabTxn → Prop) (d t : Dev) : Prop :=
  ∀ p, exitPort d dst tc = some p → p < d.link.ports.length → tc < (portOf d p).egress.length →
    ∃ f ∈ (portOf t p).inject ++ (egressOf (portOf t p) tc).frames, P f

/-- The request `q` is answered to its sender with a status, an argument and a payload (R402, R403). -/
def Answered (q : FabTxn) (st arg : Nat) (body : Bytes) (d t : Dev) : Prop :=
  Goes q.src q.tc (fun f => f.op = q.op + 0x80 ∧ f.tag = q.tag ∧ f.src = d.self ∧ f.dst = q.src ∧ f.status = st ∧ f.arg = arg
    ∧ f.payload = body) d t

/-- A request that awaits its completion, or that waits to be sent (R401, R405). -/
def Asks (P : TxnOut → Prop) (t : Dev) : Prop := ∃ o ∈ t.fab.txns ++ t.fab.waiting, P o

/-- Counter `f` counts `n` more than in `d` (R74, R119). -/
def Counts (f : Field) (n : Nat) (d t : Dev) : Prop := t.get f = (d.count f n).get f

end Sys2Proof
end

