-- ==== Sys2Proof/Certificates/Slice0/Obligations.lean ====
section
/-! DEFINITION. The statements for the provers: what commands do, what they leave, and what holds after every step. -/

open Sys2Proof Sys2Proof.Machine

/-- R41, R46: what a read of the counter returns and latches, and when PPS_OUT rises. -/
def Obligations.CounterReadAndPulse : Prop :=
  ∀ (via : Via) (s : State),
    (Gives (.timeNowNsRead via) s fun t =>
      Sent (.regData via 0x1100 8 (if mayRead s.dev via 1 then s.dev.now else 0)) s.dev t
      ∧ t.get Reg.TIME_NOW_FRAC = (if mayRead s.dev via 1 then s.dev.time.frac % 65536 else s.dev.get Reg.TIME_NOW_FRAC)
      ∧ Becomes [Reg.TIME_NOW_FRAC] s.dev t)
    ∧ (Gives .ppsOutEdge s fun t =>
      (s.dev.now % 1000000000 = 0 → Sent (.pps s.dev.now) s.dev t) ∧ Becomes [] s.dev t)

/-- R47: the servo after a valid sync; R40: no step outside FREE_RUN and ACQUIRING. -/
def Obligations.ValidSyncMovesServo : Prop :=
  ∀ (i : Instr) (o : Int) (s : State), ValidSync s.dev i o → s.dev.get Reg.TIME_SERVO ≤ 4 →
    Gives i s fun t =>
      t.get Reg.TIME_SERVO = servoAfter s.dev o
      ∧ t.get Reg.TIME_OFFSET = twos 32 o % 2 ^ 32
      ∧ t.get Reg.TIME_SYNC_RX = (s.dev.count Reg.TIME_SYNC_RX 1).get Reg.TIME_SYNC_RX
      ∧ Keeps [Reg.TIME_SERVO, Reg.TIME_OFFSET, Reg.TIME_SYNC_RX, Reg.TIME_SERVO_CHANGES, Reg.TIME_NOW_NS,
          Reg.TIME_STEP_CORRECTIONS] s.dev t
      ∧ Dev.inner t = Dev.inner { s.dev with time := t.time, tick := t.tick, free := t.free }
      ∧ SameHost s.dev t
      ∧ (s.dev.get Reg.TIME_SERVO ≠ 1 → t.now = s.dev.now ∧ t.tick = s.dev.tick)

/-- R47, R48, R674, R679, R44. -/
def Obligations.SourceLost : Prop :=
  (∀ s : State, s.dev.get Reg.TIME_SRC ≠ 0 →
    Gives .syncTimeout s fun t =>
      t.get Reg.TIME_SERVO = (if s.dev.get Reg.TIME_SERVO = servoLocked then servoHoldover else s.dev.get Reg.TIME_SERVO)
      ∧ (s.dev.get Reg.TIME_SERVO = servoLocked → t.time.holdBase = 5000000000000 ∧ t.time.holdAt = s.dev.time.localNs)
      ∧ Becomes [Reg.TIME_SERVO, Reg.TIME_SYNC_MISSED, Reg.TIME_SERVO_CHANGES] { s.dev with time := t.time } t)
  ∧ (∀ s : State,
    Gives .holdoverExpire s fun t =>
      (if s.dev.get Reg.TIME_SERVO = servoHoldover ∧ alignTol s.dev * 100000000000 < 2 * holdBound s.dev then
        t.get Reg.TIME_SERVO = servoExpired ∧ Becomes [Reg.TIME_SERVO, Reg.TIME_SERVO_CHANGES] { s.dev with time := t.time } t
      else Becomes [] s.dev t))
  ∧ (∀ (valid : Bool) (s : State),
    Gives (.clk10mValidityChange valid) s fun t =>
      t.time.clk10m = valid ∧ Becomes [] { s.dev with time := t.time } t
      ∧ (s.dev.get Reg.TIME_SERVO = servoHoldover → holdBound t = holdBound s.dev))
  ∧ (∀ (src : SyncSrc) (delay : Nat) (s : State),
    Gives (.ptpDelayRespRx src delay) s fun t =>
      (src, delay) ∈ t.time.pathDelay ∧ (∀ x, x.1 ≠ src → (x ∈ t.time.pathDelay ↔ x ∈ s.dev.time.pathDelay))
      ∧ Becomes [] { s.dev with time := t.time } t)

/-- R43, R47, R75. -/
def Obligations.TimeSourceWrite : Prop :=
  ∀ (via : Via) (w : Nat) (s : State), (∀ m v, s.dev.time.edgeCmd = some (m, v) → ∃ k q c i, m.origin = .host k q c i ∧ k < 16) →
    Gives (.timeSrcWrite via w) s fun t =>
      if mayWrite s.dev via 1 = false ∨ s.dev.get (Reg.LOCK 1) = 1 then Becomes [] s.dev t
      else
        t.get Reg.TIME_PTP_DOMAIN = w / 8 % 128 ∧ t.get Reg.TIME_UP_PORT = w / 1024 % 16
        ∧ (if 4 ≤ w % 8 then
            t.get Reg.TIME_WRITE_STATUS = 1
            ∧ Becomes [Reg.TIME_PTP_DOMAIN, Reg.TIME_UP_PORT, Reg.TIME_WRITE_STATUS] s.dev t
          else
            t.get Reg.TIME_SRC = w % 8 ∧ t.get Reg.TIME_SERVO = servoFreeRun ∧ t.get Reg.TIME_WRITE_STATUS = 0
            ∧ t.time.edgeCmd = none ∧ t.now = s.dev.now
            ∧ (s.dev.time.edgeCmd = none → SameHost s.dev t)
            ∧ Leaves [Reg.TIME_PTP_DOMAIN, Reg.TIME_UP_PORT, Reg.TIME_WRITE_STATUS, Reg.TIME_SRC, Reg.TIME_SERVO,
                Reg.TIME_SERVO_CHANGES] { s.dev with time := t.time } t)

/-- R75: both forms of TIME_SET, and the edge that the second waits for. -/
def Obligations.TimeSetTakesEffect : Prop :=
  (∀ (c : HostCmd) (s : State), c.slot < 16 → Passes 0x98 c s.dev → Clean (timeSetChecks s.dev (cmdOf s.dev c)) →
    Gives (.timeSet c) s fun t =>
      if timeSetEdge c then
        t.time = { s.dev.time with edgeCmd := some (cmdOf s.dev c, timeSetValue c) }
        ∧ Leaves [Reg.HOST_CMDS_ACCEPTED c.slot] { s.dev with time := t.time } t
      else
        t.now = timeSetValue c % 2 ^ 64 ∧ t.time.frac = timeSetFrac c % 65536
        ∧ t.tick.corrected = true ∧ t.tick.plan = s.dev.tick.plan ∧ t.tick.next = s.dev.tick.next
        ∧ Leaves [Reg.HOST_CMDS_ACCEPTED c.slot, Reg.TIME_NOW_NS, Reg.TIME_STEP_CORRECTIONS]
            { s.dev with time := t.time, tick := t.tick } t)
  ∧ (∀ (o : Int) (s : State) (m : Cmd) (v : Nat), s.dev.get Reg.TIME_SRC = 3 → s.dev.time.edgeCmd = some (m, v) →
      (∃ k q c i, m.origin = .host k q c i ∧ k < 16) →
    Gives (.ppsInEdge o) s fun t =>
      t.now = v % 2 ^ 64 ∧ t.time.edgeCmd = none ∧ t.time.edgeSet = true ∧ t.tick.corrected = true
      ∧ Leaves [Reg.TIME_NOW_NS, Reg.TIME_STEP_CORRECTIONS, Reg.TIME_OFFSET, Reg.TIME_SYNC_RX, Reg.TIME_SERVO,
          Reg.TIME_SERVO_CHANGES] { s.dev with time := t.time, tick := t.tick, free := t.free } t)

/-- R50, R52, R55, R57: every outcome of a write of the three checked registers of the TICK page. -/
def Obligations.TickPageWrites : Prop :=
  ∀ (via : Via) (v : Nat) (s : State), v < 2 ^ 64 →
    (Gives (.tickEpochWrite via v) s fun t =>
      if mayWrite s.dev via 2 = false ∨ s.dev.get (Reg.LOCK 2) = 1 then Becomes [] s.dev t
      else if v % 1000 ≠ 0 then t.get Reg.TICK_WRITE_STATUS = 4 ∧ Becomes [Reg.TICK_WRITE_STATUS] s.dev t
      else
        t.get Reg.TICK_EPOCH = v ∧ t.get Reg.TICK_WRITE_STATUS = 0
        ∧ (s.dev.tick.running = true → t.get Reg.TICK_CHANGE_AT = 0 ∧ t.tick.corrected = true)
        ∧ (s.dev.tick.running = false → t.get Reg.TICK_CHANGE_AT = s.dev.get Reg.TICK_CHANGE_AT)
        ∧ Becomes [Reg.TICK_EPOCH, Reg.TICK_WRITE_STATUS, Reg.TICK_CHANGE_AT] { s.dev with tick := t.tick } t
        ∧ t.tick.plan = s.dev.tick.plan ∧ t.tick.next = s.dev.tick.next)
    ∧ (v < 2 ^ 32 → Gives (.tickGuardNsWrite via v) s fun t =>
      if mayWrite s.dev via 2 = false ∨ s.dev.get (Reg.LOCK 2) = 1 then Becomes [] s.dev t
      else if v < 50000 ∨ s.dev.get Reg.TICK_PERIOD_NS < 8 * v
          ∨ (s.dev.get Reg.TICK_CHANGE_AT ≠ 0 ∧ s.dev.get Reg.TICK_PERIOD_NEXT < 8 * v) then
        t.get Reg.TICK_WRITE_STATUS = 3 ∧ Becomes [Reg.TICK_WRITE_STATUS] s.dev t
      else
        t.get Reg.TICK_GUARD_NS = v ∧ t.get Reg.TICK_WRITE_STATUS = 0
        ∧ Becomes [Reg.TICK_GUARD_NS, Reg.TICK_WRITE_STATUS] s.dev t)
    ∧ (Gives (.tickChangeAtWrite via v) s fun t =>
      if mayWrite s.dev via 2 = false then Becomes [] s.dev t
      else if v = 0 then
        t.get Reg.TICK_CHANGE_AT = 0 ∧ t.get Reg.TICK_WRITE_STATUS = 0
        ∧ Becomes [Reg.TICK_CHANGE_AT, Reg.TICK_WRITE_STATUS] s.dev t
      else if periodAllowed s.dev (s.dev.get Reg.TICK_PERIOD_NEXT) = false then
        t.get Reg.TICK_WRITE_STATUS = 1 ∧ Becomes [Reg.TICK_WRITE_STATUS] s.dev t
      else if onGrid s.dev v = false ∨ v < s.dev.now + 2 * s.dev.get Reg.TICK_PERIOD_NS then
        t.get Reg.TICK_WRITE_STATUS = 2 ∧ Becomes [Reg.TICK_WRITE_STATUS] s.dev t
      else
        t.get Reg.TICK_CHANGE_AT = v ∧ t.get Reg.TICK_WRITE_STATUS = 0
        ∧ Becomes [Reg.TICK_CHANGE_AT, Reg.TICK_WRITE_STATUS] s.dev t)

/-- R50-R55, R62, R64, R680. -/
def Obligations.TickFiresAndSeals : Prop :=
  ∀ s : State,
    (Gives .periodChange s fun t =>
      if s.dev.get Reg.TICK_CHANGE_AT ≠ 0 ∧ s.dev.get Reg.TICK_CHANGE_AT ≤ s.dev.now
          ∧ passedBy s.dev (s.dev.get Reg.TICK_CHANGE_AT) = false then
        t.get Reg.TICK_EPOCH = s.dev.get Reg.TICK_CHANGE_AT % 2 ^ 64
        ∧ t.get Reg.TICK_PERIOD_NS = s.dev.get Reg.TICK_PERIOD_NEXT % 2 ^ 32 ∧ t.get Reg.TICK_CHANGE_AT = 0
        ∧ Becomes [Reg.TICK_EPOCH, Reg.TICK_PERIOD_NS, Reg.TICK_CHANGE_AT] s.dev t
      else Becomes [] s.dev t)
    ∧ (Gives .tickFire s fun t =>
      match dueBoundary s.dev with
      | none => Becomes [] s.dev t
      | some b =>
        t.tick.running = true ∧ t.tick.start = b ∧ t.tick.sealed = false ∧ t.tick.next = none
        ∧ t.tick.fired = s.dev.tick.fired + 1
        ∧ (s.dev.get Reg.TICK_CHANGE_AT = 0 →
            t.get Reg.TICK_NOW = tickNumber s.dev b ∧ t.tick.period = s.dev.get Reg.TICK_PERIOD_NS
            ∧ t.tick.corrected = false)
        ∧ (t.tick.plan.map (·.entries)) = some ((s.dev.tick.next.map (·.entries)).getD []))
    ∧ (Gives .stepDeadline s fun t =>
      if deadlineDue s.dev = true then
        t.tick.sealed = true
        ∧ (∃ p, t.tick.next = some p ∧ p.number = (nextTick s.dev).1 ∧ p.start = (nextTick s.dev).2.1
            ∧ p.period = (nextTick s.dev).2.2 ∧ p.empty = false ∧ p.digest = planDigest p.entries ∧ t.tick.ring.head? = some p)
      else Becomes [] s.dev t)

/-- R458, R461, R578, R70, R72. -/
def Obligations.PlanEntriesLaunch : Prop :=
  ∀ (e : PlanEntry) (s : State), planHas s.dev e = true →
    (e.action = actCollective → Gives (.collectiveWindow e) s fun t =>
      t.tick = { s.dev.tick with windows := s.dev.tick.windows
        ++ ((List.range 16).filter (namesPort e)).map fun p => ⟨1, p, s.dev.clock + e.arg⟩ }
      ∧ Becomes [] { s.dev with tick := t.tick, link := t.link } t)
    ∧ (e.action = actCkptWindow → Gives (.ckptWindow e) s fun t =>
      t.tick = { s.dev.tick with windows := s.dev.tick.windows
        ++ ((List.range 16).filter (namesPort e)).map fun p => ⟨6, p, s.dev.clock + e.arg⟩ }
      ∧ Becomes [] { s.dev with tick := t.tick, link := t.link } t)
    ∧ (e.action = actGateSwitch → e.arg < 16 → Gives (.gateListSwitch e) s fun t =>
      t.get Reg.GL_ACTIVE = e.arg ∧ t.get Reg.GL_ARMED = 0 ∧ t.link.armed = none
      ∧ Becomes [Reg.GL_ACTIVE, Reg.GL_ARMED] { s.dev with link := t.link } t)
    ∧ (e.action = actPowerState → e.last < 68 → Gives (.powerState e) s fun t =>
      (∀ n, e.first ≤ n → n ≤ e.last →
        t.get (Reg.DOM_STATE n) = if (domForced s.dev n).isSome then s.dev.get (Reg.DOM_STATE n) else e.arg % 4)
      ∧ Becomes (Reg.PWR_STATE_CHANGES :: (List.range (e.last + 1 - e.first)).map fun n => Reg.DOM_STATE (e.first + n)) s.dev t)
    ∧ (e.action = actMaintGate → Gives (.maintGate e) s fun t =>
      (∀ r ∈ t.tick.maint, r ∈ s.dev.tick.maint ∧ ¬ (r ∈ maintOf s.dev s.dev.tick.fired ∧ r.asTick = false)) ∧ t.mem = s.dev.mem)
    ∧ (e.action = actCalibrate → Gives (.calibrate e) s fun t =>
      (∀ r ∈ t.tick.maint, r ∈ s.dev.tick.maint ∧ ¬ (r ∈ tickRequests s.dev s.dev.tick.fired
        ∧ r.unitClass = e.unitClass ∧ maintUnits r = (e.first, e.last))) ∧ t.mem = s.dev.mem)
    ∧ (Gives .gateEntryStart s fun t =>
      t.link.entry = entryIndex (gateList s.dev (s.dev.get Reg.GL_ACTIVE)) (tickOffset s.dev s.dev.clock)
      ∧ Becomes [] { s.dev with link := t.link } t)

/-- R32, R360, R362: the launches of a batch. -/
def Obligations.BatchLaunches : Prop :=
  ∀ (e : PlanEntry) (s : State), planHas s.dev e = true → s.dev.tick.sealed = false →
    (e.action = actBatchStart → ∀ st x, findStep s.dev st.key = some st → findDesc s.dev st.key = some x → st.started = false →
      maintHolds s.dev x = false → stepObjects s.dev x = [] → Gives (.batchStart e) s fun t =>
        (findStep t st.key).map (·.started) = some true ∧ t.sess = s.dev.sess ∧ t.mem = s.dev.mem ∧ t.tick = s.dev.tick)
    ∧ (e.action = actLayerStart → ∀ st, findStep s.dev st.key = some st → st.reach = e.arg → Gives (.layerStart e) s fun t =>
        (findStep t st.key).map (·.reach) = some (e.arg + 1) ∧ t.tick = s.dev.tick)
    ∧ (e.action = actPromote → ∀ x more p ps v, s.dev.sess.descs = x :: more → x.state = ssActive →
      (x.turn.map (·.revive)) = some none → stepObjects s.dev x = p :: ps → objView s.dev (.page p.id) = some v →
      2 ≤ v.tier → v.tier ≠ noTier → s.dev.sec.keysOff = false → poolRoom s.dev v.part v.bytes = true →
      Gives (.promoteBatch e) s fun t =>
        (t.tier.promos.any fun q => q.obj == .page p.id) = true ∧ t.tick = s.dev.tick ∧ t.mem = s.dev.mem)

/-- R59, R61, R145, R146, R53, R143. -/
def Obligations.StepMessagesAndCommit : Prop :=
  (∀ (src number period epoch : Nat) (s : State), peerState s.dev src ≠ .lost →
    Gives (.tickBeaconRx src number period epoch) s fun t =>
      if number = s.dev.get Reg.TICK_NOW ∧ period = s.dev.get Reg.TICK_PERIOD_NS ∧ epoch = s.dev.get Reg.TICK_EPOCH then
        Becomes [] s.dev t
      else t.get Reg.GROUP_MISMATCH = 1 ∧ src ∈ t.tick.mismatch
        ∧ Becomes [Reg.GROUP_MISMATCH] { s.dev with tick := { s.dev.tick with mismatch := t.tick.mismatch } } t)
  ∧ (∀ (src : Nat) (key : SessKey) (step tick : Nat) (s : State), peerState s.dev src ≠ .lost →
    Gives (.stepAnnounceRx src key step tick) s fun t =>
      (if tick = s.dev.get Reg.TICK_NOW ∨ (s.dev.tick.sealed = true ∧ tick = (s.dev.get Reg.TICK_NOW + 1) % 2 ^ 64) then
        t.run = s.dev.run
      else (key, step, tick) ∈ t.run.announced ∧ t.run = { s.dev.run with announced := t.run.announced })
      ∧ Becomes [] { s.dev with run := t.run } t)
  ∧ (∀ (src : Nat) (key : SessKey) (step : Nat) (s : State), peerState s.dev src ≠ .lost →
    (∀ st, findStep s.dev key = some st → st.step = step → st.ready = false → src ∉ st.votes →
      Gives (.commitVoteRx src key step) s fun t =>
        findStep t key = some { st with votes := st.votes ++ [src] } ∧ Becomes [] { s.dev with run := t.run } t)
    ∧ (∀ x, findStep s.dev key = none → findDesc s.dev key = some x → x.committed = step → step ≠ 0 → src ≠ s.dev.self →
      Gives (.commitVoteRx src key step) s fun t =>
        Sent (.msg src (.vote key step)) s.dev t ∧ t.sess = s.dev.sess ∧ t.run = s.dev.run ∧ t.mem = s.dev.mem))
  ∧ (∀ (key : SessKey) (s : State) (st : Step) (x : Desc) (m : Model), findStep s.dev key = some st →
    findDesc s.dev key = some x → findModel s.dev x.model = some m → m.group = 1 → s.dev.tick.sealed = false →
    stepComplete s.dev x m st = true → st.replay = false → cowWaits s.dev x (commitLays s.dev key) = false →
    copiesLeft s.dev x (commitLays s.dev key) = false → smemFree s.dev x = true →
    Gives (.stepCommit key) s fun t =>
      (findStep t key).map (·.committed) = some true
      ∧ (∃ y, findDesc t key = some y ∧ y.committed = st.step ∧ y.tokens = stepHist x st ++ st.token.toList
        ∧ y.ctxLen = y.tokens.length ∧ y.prevCtxLen = x.ctxLen)
      ∧ t.mem.export_ = s.dev.mem.export_ ∧ (x.smemBase = 0 → t.mem = s.dev.mem) ∧ t.tick = s.dev.tick)

/-- R79-R82, R687. -/
def Obligations.SlotBinding : Prop :=
  ∀ (s : State) (n : Nat), n < 16 →
    (∀ part key size base admin, part < 8 → key < 64 → base < 2 ^ 64 →
      Gives (.bindSlot n part key size base admin) s fun t =>
        match lowest (bindChecks n part key size base s.dev) with
        | none =>
          t.get (Reg.SLOT_STATE n) = 1 ∧ t.get (Reg.SLOT_PART n) = part ∧ t.get (Reg.SLOT_KEY n) = key
          ∧ t.get (Reg.SLOT_ADMIN n) = (if admin then 1 else 0) ∧ t.get (Reg.WIN_SIZE n) = size / 268435456
          ∧ t.get (Reg.WIN_BASE n) = base ∧ Sent (.fmStatus n stSuccess) s.dev t
          ∧ Leaves [Reg.SLOT_STATE n, Reg.SLOT_PART n, Reg.SLOT_KEY n, Reg.SLOT_ADMIN n, Reg.WIN_SIZE n, Reg.WIN_BASE n,
              Reg.STW_T1_FREE, Reg.PART_T1_USED part] { s.dev with tier := t.tier } t
        | some st => st ≠ stSuccess ∧ Sent (.fmStatus n st) s.dev t ∧ Becomes [] s.dev t)
    ∧ (∀ flush, deviceReady s.dev = true →
      Gives (.unbindSlot n flush) s fun t =>
        Sent (.fmStatus n stSuccess) s.dev t
        ∧ (if s.dev.get (Reg.SLOT_STATE n) = 0 ∨ s.dev.get (Reg.SLOT_STATE n) = 3 ∨ (s.dev.get (Reg.SLOT_STATE n) = 2 ∧ flush = true) then
            Becomes [] s.dev t
          else if flush = true then
            t.get (Reg.SLOT_STATE n) = 2 ∧ Leaves [Reg.SLOT_STATE n] s.dev t
            ∧ (∀ x ∈ s.dev.host.snoop, x.slot = n → x.owned = true → Sent (.backInv n x.line) s.dev t)
            ∧ t.host.snoop = s.dev.host.snoop
          else s.dev.get (Reg.SLOT_STATE n) ≤ 2 → t.get (Reg.SLOT_STATE n) = 3))
    ∧ (Gives (.unbindComplete n) s fun t =>
        if s.dev.get (Reg.SLOT_STATE n) = 2 ∧ (s.dev.host.snoop.any fun x => x.slot == n && x.owned) = false
            ∧ slotBusy s.dev n = false then
          t.get (Reg.SLOT_STATE n) = 0 ∧ t.get (Reg.Q0_ENABLE n) = 0 ∧ t.get (Reg.WIN_SIZE n) = 0
          ∧ (∀ q ∈ t.host.sqs, q.slot ≠ n) ∧ (∀ q ∈ t.host.cqs, q.slot ≠ n) ∧ (∀ q ∈ t.host.rings, q.slot ≠ n)
          ∧ t.mem = s.dev.mem ∧ t.sess = s.dev.sess
        else Becomes [] s.dev t)

/-- R80, R111, R114, R115, R684. -/
def Obligations.SlotLost : Prop :=
  ∀ (s : State) (n : Nat), n < 16 →
    let lost := fun t : Dev => t.get (Reg.SLOT_STATE n) = 3 ∧ (∀ x ∈ t.host.snoop, x.slot ≠ n)
      ∧ (∀ m ∈ t.host.accepted, ∀ q c i, m.origin ≠ .host n q c i)
    let served := s.dev.get (Reg.SLOT_STATE n) = 1 ∨ s.dev.get (Reg.SLOT_STATE n) = 2
    (served → Gives (.hostViral n) s fun t => lost t
      ∧ t.get (Reg.HOST_LINES_ABANDONED n)
        = (s.dev.count (Reg.HOST_LINES_ABANDONED n) (s.dev.host.snoop.countP fun x => x.slot == n && x.owned)).get
            (Reg.HOST_LINES_ABANDONED n))
    ∧ (served → Gives .hostLinkDown s fun t => lost t ∧ t.host.linkUp = false)
    ∧ (∀ line, served → (∃ b ∈ s.dev.host.bis, b.slot = n ∧ b.line = line ∧ b.at_ + biTimeoutNs s.dev n ≤ s.dev.clock
        ∧ ∀ o, b.purpose ≠ .snapshot o) → Gives (.biTimeout n line) s lost)
    ∧ (∀ line, (∀ b ∈ s.dev.host.bis, b.slot = n → b.line = line → s.dev.clock < b.at_ + biTimeoutNs s.dev n) →
        Gives (.biTimeout n line) s (Becomes [] s.dev))
    ∧ (∀ x, s.dev.get (Reg.SLOT_STATE n) = 2 → assocGet s.dev.host.slots n = some x →
        (s.dev.host.snoop.any fun y => y.slot == n && y.owned) = true →
        x.unbindAt + biTimeoutNs s.dev n ≤ s.dev.clock → Gives (.unbindFlushTimeout n) s lost)
    ∧ (s.dev.get (Reg.SLOT_STATE n) = 3 → Gives (.hostLossComplete n) s fun t =>
        t.get (Reg.SLOT_STATE n) = 0 ∧ t.get (Reg.Q0_ENABLE n) = 0
        ∧ (∀ q ∈ t.host.sqs, q.slot ≠ n) ∧ (∀ q ∈ t.host.cqs, q.slot ≠ n) ∧ (∀ q ∈ t.host.rings, q.slot ≠ n)
        ∧ t.mem = s.dev.mem)
    ∧ (Gives .hostLinkUp s fun t => t.host.linkUp = true ∧ Becomes [] { s.dev with host := { s.dev.host with linkUp := true } } t)

/-- R85 (and R86, R90, R116): host reads and writes of a window. -/
def Obligations.HostWindowAccess : Prop :=
  ∀ (s : State) (n addr : Nat) (own : Bool) (data : Bytes), n < 16 → addr % 64 = 0 → addr + 64 ≤ 2 ^ 52 → data.length = 64 →
    let part := s.dev.get (Reg.SLOT_PART n)
    let hit := winDecoded s.dev n = true ∧ winBase s.dev n ≤ addr ∧ addr + 64 ≤ winBase s.dev n + winBytes s.dev n
    winBase s.dev n % 268435456 = 0 →
    (s.dev.host.fatal = true →
      Gives (.hostMemRead n addr own) s (Becomes [] s.dev) ∧ Gives (.hostMemWrite n addr data) s (Becomes [] s.dev))
    ∧ (s.dev.host.fatal = false → ¬ hit →
      (Gives (.hostMemRead n addr own) s fun t =>
        Sent (.memData n addr (zeros 64)) s.dev t ∧ Becomes [Reg.HOST_WINDOW_MISS n] s.dev t
        ∧ t.get (Reg.HOST_WINDOW_MISS n) = (s.dev.count (Reg.HOST_WINDOW_MISS n) 1).get (Reg.HOST_WINDOW_MISS n))
      ∧ (Gives (.hostMemWrite n addr data) s fun t =>
        t.mem = s.dev.mem ∧ Becomes [Reg.HOST_WINDOW_MISS n] s.dev t
        ∧ t.get (Reg.HOST_WINDOW_MISS n) = (s.dev.count (Reg.HOST_WINDOW_MISS n) 1).get (Reg.HOST_WINDOW_MISS n)))
    ∧ (s.dev.host.fatal = false → hit →
      ((holders s.dev part (addr / 64)).all (fun x => x.slot == n || (!own && !x.owned)) = true →
        s.dev.host.snoop.length < snoopLines → Gives (.hostMemRead n addr own) s fun t =>
          Sent (.memData n addr (readRange s.dev part addr 64)) s.dev t ∧ Leaves [] s.dev t)
      ∧ (Gives (.hostMemWrite n addr data) s fun t =>
        readRange t part addr 64 = data ∧ t.mem.export_ = s.dev.mem.export_
        ∧ ∀ p a, a < 2 ^ 52 → (p ≠ part ∨ a < addr ∨ addr + 64 ≤ a) → readRange t p a 1 = readRange s.dev p a 1))

/-- R89, R91, R92. -/
def Obligations.BackInvalidates : Prop :=
  (∀ (s : State) (n line : Nat) (dirty : Option Bytes) (b : Bi), n < 16 → line < 2 ^ 46 →
    (s.dev.host.bis.find? fun x => x.slot == n && x.line == line) = some b →
    (∀ x ∈ s.dev.host.bis, x.slot = n → x.line = line → x.purpose = .flush) → s.dev.get (Reg.SLOT_STATE n) ≠ 3 →
    (∀ y, dirty = some y → y.length = 64) →
    Gives (.biResponseRx n line dirty) s fun t =>
      (∀ x ∈ t.host.snoop, ¬ (x.part = b.part ∧ x.line = line ∧ x.slot = n))
      ∧ (∀ y, dirty = some y → s.dev.run.steps = [] → readRange t b.part (line * 64) 64 = y)
      ∧ (dirty = none → s.dev.run.steps = [] → t.mem = s.dev.mem))
  ∧ (∀ (s : State) (o : Nat) (m : Cmd),
    (s.dev.host.accepted.find? fun x => x.order == o && x.wait == .snapshot []) = some m → m.c.opcode = 0x21 →
    goesAway s.dev m = false → appendText m = false →
    Gives (.inboxSnapshotDone o) s fun t =>
      ∃ k ∈ t.host.accepted, sameCmd k m = true ∧ k.wait = .none ∧ k.plan = planOf s.dev ∧ k.t = s.dev.now ∧ k.inbox = m.inbox)
  ∧ (∀ (s : State) (n line o : Nat) (b : Bi), n < 16 → b ∈ s.dev.host.bis → b.slot = n → b.line = line → b.purpose = .snapshot o →
    b.at_ + biTimeoutNs s.dev n ≤ s.dev.clock →
    Gives (.snapshotBiTimeout n line) s fun t =>
      (∀ m ∈ t.host.accepted, m.order ≠ o) ∧ Dev.inner t = Dev.inner s.dev)

/-- R87, R104, R106. -/
def Obligations.DoorbellsAndPolls : Prop :=
  ∀ (s : State) (n id v : Nat), n < 16 → s.dev.host.fatal = false →
    (slotBound s.dev n = false → ∀ off size, Gives (.sqTailDoorbell n off size v) s (Becomes [] s.dev)
      ∧ Gives (.cqHeadDoorbell n off size v) s (Becomes [] s.dev))
    ∧ (∀ q, slotBound s.dev n = true → findSq s.dev n id = some q → q.polled = false →
      (tailOk q v = true → Gives (.sqTailDoorbell n (8 * id) 4 v) s fun t =>
        findSq t n id = some { q with tail := v } ∧ Leaves [] s.dev t)
      ∧ (∀ size, tailOk q v = false ∨ size ≠ 4 → Gives (.sqTailDoorbell n (8 * id) size v) s fun t =>
        findSq t n id = some q ∧ Leaves [Reg.HOST_DB_ERR n] s.dev t
        ∧ t.get (Reg.HOST_DB_ERR n) = (s.dev.count (Reg.HOST_DB_ERR n) 1).get (Reg.HOST_DB_ERR n)))
    ∧ (∀ q, slotBound s.dev n = true → findCq s.dev n id = some q → q.polled = false → q.waiting = [] →
      (headOk q.m q.head q.tail v = true → Gives (.cqHeadDoorbell n (8 * id + 4) 4 v) s fun t =>
        findCq t n id = some { q with head := v } ∧ Leaves [] s.dev t)
      ∧ (∀ size, headOk q.m q.head q.tail v = false ∨ size ≠ 4 → Gives (.cqHeadDoorbell n (8 * id + 4) size v) s fun t =>
        findCq t n id = some q ∧ Leaves [Reg.HOST_DB_ERR n] s.dev t
        ∧ t.get (Reg.HOST_DB_ERR n) = (s.dev.count (Reg.HOST_DB_ERR n) 1).get (Reg.HOST_DB_ERR n)))
    ∧ (∀ q, slotServed s.dev n = true → findSq s.dev n id = some q → q.polled = true → tailOk q v = true →
      Gives (.watchedLineInvalidate n ⟨.sq, id⟩ (some v)) s fun t => findSq t n id = some { q with tail := v } ∧ Leaves [] s.dev t)
    ∧ (∀ r, slotServed s.dev n = true → findRing s.dev .stream n id = some r → headOk r.m r.head r.tail v = true → r.spill = [] →
      Gives (.watchedLineInvalidate n ⟨.stream, id⟩ (some v)) s fun t =>
        findRing t .stream n id = some { r with head := v } ∧ Leaves [] s.dev t)
    ∧ (∀ m, (s.dev.host.msix.find? fun x => x.slot == n && x.vector == id) = some m → m.held = true →
      m.last + s.dev.get (Reg.INT_HOLDOFF_NS n) ≤ s.dev.clock →
      Gives (.msixHoldoffEnd n id) s fun t => Sent (.msix n id) s.dev t ∧ Leaves [] s.dev t)

/-- R100, R102, R103, R68, R118. -/
def Obligations.FetchAndAccept : Prop :=
  (∀ (s : State) (c : HostCmd) (q : Sq), c.slot < 16 → c.sq = 0 → s.dev.host.fatal = false → slotBound s.dev c.slot = true →
    findSq s.dev c.slot 0 = some q → sqHeld q = 1 →
    (∀ p ∈ s.dev.host.sqs, slotBound s.dev p.slot = true → 0 < sqHeld p → p.slot = c.slot ∧ p.id = 0) →
    cmdFence c = false → (opInfo c.opcode).map (·.effect) = some .seal_ → c.opcode ≠ 0x21 →
    goesAway s.dev (cmdOf s.dev c) = false →
    Gives (.commandFetch [c] []) s fun t =>
      (findSq t c.slot 0).map (·.head) = some ((q.head + 1) % 2 ^ q.m)
      ∧ (∃ m ∈ t.host.accepted, m.c = c ∧ m.plan = planOf s.dev
          ∧ ∃ u, Leaves [Reg.HOST_CMDS_ACCEPTED c.slot] s.dev u ∧ m.fail = lowest (generalChecks u { m with fail := none } ++ opChecks c.opcode u { m with fail := none }))
      ∧ Leaves [Reg.HOST_CMDS_ACCEPTED c.slot] s.dev t)
  ∧ (∀ (s : State) (via : Via) (n word : Nat), n < 16 → mayWrite s.dev via (0x10 + n) = true → word / 2 ^ 24 % 2 = 1 →
    s.dev.get (Reg.Q0_ENABLE n) = 0 → findSq s.dev n 0 = none → findCq s.dev n 0 = none → findRing s.dev .event n 0 = none →
    let fields := slotBound s.dev n = true ∧ 1 ≤ word % 32 ∧ word % 32 ≤ 16 ∧ 1 ≤ word / 256 % 32 ∧ word / 256 % 32 ≤ 16
      ∧ 6 ≤ word / 65536 % 32 ∧ word / 65536 % 32 ≤ 20 ∧ s.dev.get (Reg.SQ0_BASE n) % 4096 = 0
      ∧ s.dev.get (Reg.CQ0_BASE n) % 4096 = 0 ∧ s.dev.get (Reg.EVT0_BASE n) % 4096 = 0 ∧ s.dev.get (Reg.EVT0_HEAD_LINE n) % 64 = 0
    Gives (.q0EnableWrite via n word) s fun t =>
      (fields → t.get (Reg.Q0_ENABLE n) = 1 ∧ t.get (Reg.Q0_FAULT n) = 0
        ∧ (findSq t n 0).map (fun x => (x.base, x.m, x.polled)) = some (s.dev.get (Reg.SQ0_BASE n), word % 32, false)
        ∧ (findCq t n 0).map (fun x => (x.base, x.m, x.polled)) = some (s.dev.get (Reg.CQ0_BASE n), word / 256 % 32, false)
        ∧ (findRing t .event n 0).map (fun x => (x.base, x.m, x.line))
          = some (s.dev.get (Reg.EVT0_BASE n), word / 65536 % 32, s.dev.get (Reg.EVT0_HEAD_LINE n)))
      ∧ (¬ fields → t.get (Reg.Q0_ENABLE n) = 0 ∧ t.get (Reg.Q0_FAULT n) = 1 ∧ t.host.sqs = s.dev.host.sqs
        ∧ t.host.cqs = s.dev.host.cqs))

/-- R97, R98: the effects of the host opcodes. -/
def Obligations.QueueCommands : Prop :=
  ∀ (c : HostCmd) (s : State), c.slot < 16 →
    let id := argAt c 48 2
    let m := cmdOf s.dev c
    (Passes 0x00 c s.dev → Gives (.nop c) s fun t => Leaves [Reg.HOST_CMDS_ACCEPTED c.slot] s.dev t)
    ∧ (Passes 0x01 c s.dev → Clean (createSqChecks s.dev m) → Gives (.createSq c) s fun t =>
      (findSq t c.slot id).map (fun q => (q.base, q.m, q.cq, q.polled)) = some (c.addrA, argAt c 52 1, argAt c 50 2, bitAt (argAt c 53 1) 0)
      ∧ Leaves [Reg.HOST_CMDS_ACCEPTED c.slot] s.dev t)
    ∧ (Passes 0x02 c s.dev → Clean (deleteSqChecks s.dev m) → Gives (.deleteSq c) s fun t =>
      findSq t c.slot id = none ∧ (∀ k ∈ t.host.accepted, ∀ i h, k.origin = .host c.slot id i h → abortable k = false)
      ∧ t.mem = s.dev.mem ∧ t.sess = s.dev.sess)
    ∧ (Passes 0x03 c s.dev → Clean (createCqChecks s.dev m) → Gives (.createCq c) s fun t =>
      (findCq t c.slot id).map (fun q => (q.base, q.m, q.polled, q.irq, q.vector))
        = some (c.addrA, argAt c 52 1, bitAt (argAt c 53 1) 0, bitAt (argAt c 53 1) 1, argAt c 54 2 % 2048)
      ∧ Leaves [Reg.HOST_CMDS_ACCEPTED c.slot] s.dev t)
    ∧ (Passes 0x04 c s.dev → Clean (deleteCqChecks s.dev m) → Gives (.deleteCq c) s fun t =>
      findCq t c.slot id = none ∧ Leaves [Reg.HOST_CMDS_ACCEPTED c.slot] s.dev t)
    ∧ (Passes 0x05 c s.dev → Clean (createRingChecks .stream 0 1023 s.dev m) → Gives (.createStreamRing c) s fun t =>
      (findRing t .stream c.slot id).map (fun r => (r.base, r.m, r.line)) = some (c.addrA, argAt c 52 1, c.addrB)
      ∧ Leaves [Reg.HOST_CMDS_ACCEPTED c.slot, Reg.STW_T1_FREE] s.dev t)
    ∧ (Passes 0x06 c s.dev → Clean (deleteStreamChecks s.dev m) → Gives (.deleteStreamRing c) s fun t =>
      findRing t .stream c.slot id = none ∧ Leaves [Reg.HOST_CMDS_ACCEPTED c.slot, Reg.STW_T1_FREE] s.dev t)
    ∧ (Passes 0x07 c s.dev → Clean (createRingChecks .event 1 255 s.dev m) → Gives (.createEventRing c) s fun t =>
      (findRing t .event c.slot id).map (fun r => (r.base, r.m, r.line)) = some (c.addrA, argAt c 52 1, c.addrB)
      ∧ Leaves [Reg.HOST_CMDS_ACCEPTED c.slot] { s.dev with sess := t.sess } t)
    ∧ (Passes 0x08 c s.dev → Clean (deleteEventChecks s.dev m) → Gives (.deleteEventRing c) s fun t =>
      findRing t .event c.slot id = none ∧ Leaves [Reg.HOST_CMDS_ACCEPTED c.slot] s.dev t)
    ∧ (∀ x, Passes 0x09 c s.dev → abortTarget s.dev m = some x → Clean (abortChecks s.dev m) → Gives (.abort c) s fun t =>
      (∀ k ∈ t.host.accepted, sameCmd k x = false) ∧ t.mem = s.dev.mem ∧ t.sess = s.dev.sess)

/-- R132, R133, R134, R139, R141, R149. -/
def Obligations.SessionMoves : Prop :=
  ∀ (c : HostCmd) (s : State) (x : Desc) (e : Dev), c.slot < 16 →
    let after := fun (d t : Dev) => Leaves (lookupFields c) { d with newel := t.newel } t
    let mask := argAt c 48 4
    let img := padTo 256 c.dataA
    (AtHome 0x22 c s.dev x e → x.state = 3 ∨ x.state = 4 ∨ x.state = 5 → Gives (.wait c) s fun t =>
      after (putDesc { x with state := if x.state = 3 then 4 else x.state, wakeHint := argAt c 48 8 } s.dev) t)
    ∧ (AtHome 0x23 c s.dev x e → x.state = 3 ∨ x.state = 4 → Gives (.park c) s fun t =>
      t.sess = (putDesc { x with state := 5 } s.dev).sess ∧ t.mem = s.dev.mem ∧ t.run = s.dev.run ∧ t.text = s.dev.text)
    ∧ (AtHome 0x23 c s.dev x e → x.state = 5 → Gives (.park c) s (after s.dev))
    ∧ (AtHome 0x24 c s.dev x e → x.state = 2 → Gives (.stop c) s fun t =>
      (∃ y, findDesc t (cmdKey c) = some y ∧ y.index = x.index ∧ y.state = 3 ∧ y.stopReason = 4 ∧ y.turn = none
        ∧ y.committed = x.committed ∧ y.ctxLen = x.ctxLen ∧ y.tokens = x.tokens ∧ y.timerStart = nextTickStart s.dev)
      ∧ (∀ p ∈ t.run.steps, p.key ≠ cmdKey c) ∧ (∀ p ∈ t.run.carried, p.key ≠ cmdKey c)
      ∧ OtherSessions x.index s.dev t ∧ t.mem.range = s.dev.mem.range ∧ t.text = s.dev.text)
    ∧ (AtHome 0x24 c s.dev x e → x.state = 3 → Gives (.stop c) s (after s.dev))
    ∧ (AtHome 0x29 c s.dev x e → Gives (.query c) s fun t => after s.dev t
      ∧ ((findSq s.dev c.slot c.sq).isSome = true → Sent (.hostWrite c.slot c.addrA (descBytes x)) s.dev t))
    ∧ (AtHome 0x2A c s.dev x e → Clean (modifyCodes (cmdOf s.dev c) x e) → Gives (.modify c) s fun t =>
      ∃ y, after (putDesc y s.dev) t ∧ y.index = x.index ∧ y.state = x.state ∧ y.tokens = x.tokens ∧ y.committed = x.committed
        ∧ y.model = x.model ∧ y.seed = x.seed ∧ y.home = x.home ∧ y.stopReason = x.stopReason ∧ y.turn = x.turn
        ∧ y.flags = (if mask / 4 % 2 = 1 then fieldAt img 22 2 else x.flags)
        ∧ y.policy = (if mask / 16 % 2 = 1 then byteAt img 38 else x.policy)
        ∧ y.inboxBase = (if mask / 512 % 2 = 1 then fieldAt img 72 8 else x.inboxBase)
        ∧ y.streamRing = (if mask / 1024 % 2 = 1 then fieldAt img 84 2 else x.streamRing)
        ∧ y.eventRing = (if mask / 1024 % 2 = 1 then fieldAt img 86 2 else x.eventRing)
        ∧ y.smemBase = (if mask / 2048 % 2 = 1 then fieldAt img 88 8 else x.smemBase)
        ∧ y.ttlMs = (if mask / 4096 % 2 = 1 then fieldAt img 100 4 else x.ttlMs)
        ∧ y.parkMs = (if mask / 8192 % 2 = 1 then fieldAt img 104 4 else x.parkMs)
        ∧ y.timerStart = (if (mask / 4096 % 2 = 1 ∨ mask / 8192 % 2 = 1) ∧ x.timerStart ≠ 0 then nextTickStart s.dev else x.timerStart)
        ∧ (mask / 262144 % 16 = 0 → y.sampler = samplerOf (samplerBytes x.sampler)))

/-- R132, R140, R152, R153, R155. -/
def Obligations.SessionCreateForkDestroy : Prop :=
  (∀ (c : HostCmd) (s : State), c.slot < 16 → Passes 0x20 c s.dev →
    let img := padTo 256 c.dataA
    fieldAt img 14 2 = s.dev.self → Clean (createCodes (cmdOf s.dev c) (taken c s.dev)) →
    Gives (.create c) s fun t => ∃ y, t.sess.descs = s.dev.sess.descs ++ [y]
      ∧ y.state = 1 ∧ y.sid = c.sid ∧ y.ns = c.ns ∧ y.home = s.dev.self ∧ y.isHome = true ∧ y.committed = 0 ∧ y.ctxLen = 0
      ∧ y.tokens = [] ∧ y.turn = none ∧ y.table = [] ∧ y.model = fieldAt img 48 8 ∧ y.seed = fieldAt img 40 8
      ∧ y.part = s.dev.get (Reg.SLOT_PART c.slot) ∧ y.context = fieldAt img 12 2 ∧ y.profile = byteAt img 39
      ∧ y.streamRing = fieldAt img 84 2 ∧ y.eventRing = fieldAt img 86 2 ∧ y.ttlMs = fieldAt img 100 4
      ∧ y.parkMs = fieldAt img 104 4 ∧ y.timerStart = nextTickStart s.dev ∧ y.parent = 0 ∧ y.wakeHint = 0
      ∧ dirFind t 0 (sessKeyWord (cmdKey c)) = some (resHome y.index)
      ∧ t.sess.regions = s.dev.sess.regions ∧ t.mem = s.dev.mem ∧ t.kv = s.dev.kv ∧ t.text = s.dev.text)
  ∧ (∀ (c : HostCmd) (s : State) (x : Desc) (e : Dev), c.slot < 16 → AtHome 0x26 c s.dev x e →
    Clean (forkCodes (cmdOf s.dev c) x e) →
    Gives (.fork c) s fun t => ∃ y, t.sess.descs = s.dev.sess.descs ++ [y]
      ∧ y.sid = argAt c 48 8 ∧ y.ns = x.ns ∧ y.parent = x.sid ∧ y.state = (if x.state = 5 then 5 else 3)
      ∧ y.committed = x.committed ∧ y.ctxLen = x.ctxLen ∧ y.tokens = x.tokens ∧ y.model = x.model ∧ y.home = x.home
      ∧ y.context = x.context ∧ y.flags = x.flags ∧ y.sampler = x.sampler ∧ y.policy = x.policy ∧ y.ttlMs = x.ttlMs
      ∧ y.parkMs = x.parkMs ∧ y.streamRing = x.streamRing ∧ y.eventRing = x.eventRing ∧ y.turn = none
      ∧ y.seed = (if argAt c 56 1 % 2 = 1 then x.seed else c.addrB)
      ∧ y.table.map (·.page) = x.table.map (·.page)
      ∧ dirFind t 0 (sessKeyWord ⟨x.ns, argAt c 48 8⟩) = some (resHome y.index)
      ∧ t.kv.pages.map (·.id) = s.dev.kv.pages.map (·.id) ∧ t.kv.nextPage = s.dev.kv.nextPage
      ∧ t.mem = s.dev.mem ∧ t.run = s.dev.run ∧ t.text = s.dev.text)
  ∧ (∀ (c : HostCmd) (s : State) (x : Desc) (e : Dev), c.slot < 16 → AtHome 0x28 c s.dev x e →
    x.state ≠ 6 → 1 ≤ x.state → x.state ≤ 7 →
    Gives (.destroy c) s fun t => (∀ y ∈ t.sess.descs, y.index ≠ x.index) ∧ OtherSessions x.index s.dev t
      ∧ dirFind t 0 (sessKeyWord (cmdKey c)) = none ∧ (∀ p ∈ t.run.steps, p.key ≠ cmdKey c)
      ∧ t.mem.range = s.dev.mem.range ∧ t.text = s.dev.text)

/-- R132, R137, R138, R147. -/
def Obligations.SessionRewindMigrate : Prop :=
  (∀ (c : HostCmd) (s : State) (x : Desc) (e : Dev), c.slot < 16 → AtHome 0x25 c s.dev x e →
    Clean (rewindCodes (cmdOf s.dev c) x e) →
    Gives (.rewind c) s fun t =>
      (∃ y, findDesc t (cmdKey c) = some y ∧ y.index = x.index ∧ y.committed = c.step ∧ rewindLen x c.step = some y.ctxLen
        ∧ y.tokens = x.tokens.take y.ctxLen ∧ y.state = (if x.state = 2 then 3 else x.state)
        ∧ (x.state = 2 → y.stopReason = 9 ∧ y.turn = none)
        ∧ (c.step + 1 = x.committed → y.text = x.textPrev ∧ y.fret = x.fretPrev)
        ∧ (c.step ≠ x.committed → (x.turnStarts.any fun p => p.1 == c.step) = true → y.grammar = 0 ∧ y.stopSet = 0))
      ∧ (∀ p ∈ t.run.steps, p.key ≠ cmdKey c) ∧ OtherSessions x.index s.dev t
      ∧ t.get Reg.SESS_REWINDS = (s.dev.count Reg.SESS_REWINDS 1).get Reg.SESS_REWINDS
      ∧ t.mem.range = s.dev.mem.range)
  ∧ (∀ (c : HostCmd) (s : State) (x : Desc) (e : Dev), c.slot < 16 → AtHome 0x27 c s.dev x e →
    Clean (migrateCodes (cmdOf s.dev c) x e) → argAt c 50 1 % 2 = 0 →
    let target := argAt c 48 2 % 1024
    Gives (.migrate c) s fun t =>
      (∃ y, findDesc t (cmdKey c) = some y ∧ y.index = x.index ∧ y.state = 6 ∧ y.migrFrom = x.state ∧ y.migrHome = target
        ∧ y.tokens = x.tokens ∧ y.committed = x.committed ∧ y.ctxLen = x.ctxLen ∧ y.home = x.home)
      ∧ Sent (.msg target (.migrate (cmdKey c) (descBytes x))) s.dev t
      ∧ OtherSessions x.index s.dev t ∧ t.mem = s.dev.mem)
  ∧ (∀ (k : SessKey) (s : State) (x : Desc), findDesc s.dev k = some x →
    (x.state = 6 → 1 ≤ x.migrFrom → x.migrFrom ≤ 5 → (∀ m, x.migrCmd = some m → argAt m.c 50 1 % 2 = 0) →
      (dirFind s.dev 0 (sessKeyWord k)).isSome = true → x.migrHome < 1024 →
      Gives (.migrationComplete k) s fun t =>
        (∃ y, findDesc t k = some y ∧ y.index = x.index ∧ y.state = x.migrFrom ∧ y.home = x.migrHome ∧ y.isHome = false
          ∧ y.tokens = x.tokens ∧ y.committed = x.committed)
        ∧ dirFind t 0 (sessKeyWord k) = some (resForward x.migrHome)
        ∧ OtherSessions x.index s.dev t ∧ t.mem = s.dev.mem ∧ t.kv = s.dev.kv)
    ∧ (x.state ≠ 6 → Gives (.migrationComplete k) s (Becomes [] s.dev)))

/-- R132, R135, R156, R157. -/
def Obligations.SessionAppendPublish : Prop :=
  (∀ (c : HostCmd) (s : State) (x : Desc) (e : Dev), c.slot < 16 → AtHome 0x21 c s.dev x e →
    Clean (appendChecks s.dev (cmdOf s.dev c)) → Clean (appendCodes (cmdOf s.dev c) x e) →
    argAt c 48 1 = 1 → argAt c 49 1 / 4 % 2 = 0 → (appendResult (cmdOf s.dev c) x e).1.invalid = false →
    let rep := argAt c 49 1 / 2 % 2 = 1
    let ids := (appendResult (cmdOf s.dev c) x e).1.ids
    Gives (.append c) s fun t =>
      (∃ y u, findDesc t (cmdKey c) = some y ∧ y.index = x.index ∧ y.state = 2 ∧ y.stopReason = 0 ∧ y.timerStart = 0
        ∧ y.wakeHint = 0 ∧ y.tokensLeft = argAt c 52 4 ∧ y.grammar = argAt c 56 4 ∧ y.stopSet = argAt c 60 4
        ∧ y.ctxLen = (if rep then 0 else x.ctxLen) ∧ y.tokens = (if rep then [] else x.tokens) ∧ y.committed = x.committed
        ∧ y.turnStarts.head? = some (x.committed, y.ctxLen) ∧ y.turn = some u ∧ u.input = ids
        ∧ (u.generate = true ↔ argAt c 49 1 % 2 = 1) ∧ u.cmd = some (cmdOf s.dev c) ∧ u.generated = []
        ∧ u.regions = (appendRegions (cmdOf s.dev c) e).map fun r => (r.name, r.version))
      ∧ OtherSessions x.index s.dev t ∧ t.mem = s.dev.mem ∧ t.text = s.dev.text ∧ t.run = s.dev.run)
  ∧ (∀ (c : HostCmd) (s : State), c.slot < 16 → Passes 0x2B c s.dev → Clean (publishChecks s.dev (cmdOf s.dev c)) →
    c.sid = 0 → argAt c 48 8 / 2 ^ 54 = s.dev.self →
    Gives (.publish c) s fun t =>
      t.tick.pubBatch = s.dev.tick.pubBatch
        ++ [⟨argAt c 56 8, s.dev.self, c.slot, cmdOf s.dev c, readRange s.dev (s.dev.get (Reg.SLOT_PART c.slot)) c.addrA c.lenA⟩]
      ∧ Becomes [Reg.HOST_CMDS_ACCEPTED c.slot] { s.dev with tick := t.tick, host := t.host } t
      ∧ { t.tick with pubBatch := s.dev.tick.pubBatch } = s.dev.tick)
  ∧ (∀ (s : State) (src name version : Nat) (r : Region), r ∈ s.dev.sess.regions → r.name = name → r.version = version →
    peerState s.dev src ≠ .lost →
    (Gives (.regionPinRx src name version true) s fun t => { r with remotePins := src :: r.remotePins } ∈ t.sess.regions
        ∧ t.sess.descs = s.dev.sess.descs ∧ t.mem.range = s.dev.mem.range ∧ t.text = s.dev.text)
    ∧ (r.current = true ∨ r.pins ≠ 0 → Gives (.regionPinRx src name version false) s fun t =>
        { r with remotePins := r.remotePins.erase src } ∈ t.sess.regions ∧ t.sess.descs = s.dev.sess.descs)
    ∧ (r.current = false → r.pins = 0 → r.remotePins = [src] → Gives (.regionPinRx src name version false) s fun t =>
        { r with remotePins := [] } ∉ t.sess.regions ∧ t.sess.descs = s.dev.sess.descs))

/-- R123, R125. -/
def Obligations.SessionForwarded : Prop :=
  (∀ (s : State) (f : Forwarded),
    f.cmd.opcode ≠ 0x21 → f.cmd.opcode ≠ 0x29 → f.cmd.opcode ≠ 0x92 → (f.cmd.opcode = 0x2B → f.inbox ≠ []) →
    peerState s.dev f.src ≠ .lost →
    (s.dev.fab.pushIn.all fun p => p.src != f.src) = true →
    let m : Cmd := ⟨f.cmd, .peer f.src f.tag, f.part, false, s.dev.now, s.dev.host.nextOrder, planOf s.dev, .none, f.inbox, none⟩
    Gives (.forwardedCommandRx f) s fun t =>
      t.sess = s.dev.sess ∧ t.mem = s.dev.mem ∧ t.text = s.dev.text ∧ t.fab = s.dev.fab
      ∧ match lowest (generalChecks s.dev m) with
        | some st => Sent (.msg f.src (.completion f.tag st 0 0 [])) s.dev t
            ∧ (∀ k ∈ t.host.accepted, k ∈ s.dev.host.accepted)
        | none => t.host.accepted = s.dev.host.accepted ++ [m])
  ∧ (∀ (s : State) (src tag status result step : Nat) (data : Bytes), peerState s.dev src ≠ .lost →
    (∀ m, (s.dev.fab.forwards.find? fun f => f.1 == tag && f.2.1 == src) = some (tag, src, m) →
      Gives (.forwardedCompletionRx src tag status result step data) s fun t =>
        (∀ f ∈ t.fab.forwards, f.1 ≠ tag) ∧ t.sess = s.dev.sess ∧ t.mem = s.dev.mem ∧ t.kv = s.dev.kv
        ∧ (∀ k ∈ t.host.accepted, sameCmd k m = false)
        ∧ (∀ n q i h, m.origin = .host n q i h → (findSq s.dev n q).isSome = true → data ≠ [] → m.c.opcode = 0x29 →
            Sent (.hostWrite n m.c.addrA data) s.dev t))
    ∧ ((s.dev.fab.forwards.find? fun f => f.1 == tag && f.2.1 == src) = none →
      Gives (.forwardedCompletionRx src tag status result step data) s (Becomes [] s.dev)))

/-- R134, R150, R151. -/
def Obligations.SessionTimers : Prop :=
  ∀ (s : State) (k : SessKey) (x : Desc), findDesc s.dev k = some x →
    let b := nextTickStart s.dev
    let ttl := (x.state = 1 ∨ x.state = 3 ∨ x.state = 4 ∨ x.state = 5) ∧ x.ttlMs ≠ 0 ∧ x.timerStart + x.ttlMs * 1000000 ≤ b
    let park := (x.state = 3 ∨ x.state = 4) ∧ x.parkMs ≠ 2 ^ 32 - 1 ∧ x.timerStart + x.parkMs * 1000000 ≤ b
    let grace := x.state = 7 ∧ x.expiry + s.dev.get Reg.SESS_GRACE_MS * 1000000 ≤ b
    let hint := (x.state = 4 ∨ x.state = 5) ∧ x.wakeHint ≠ 0 ∧ x.wakeHint < b + s.dev.get Reg.TICK_PERIOD_NS
    (x.isHome = true → ttl → Gives (.sessionTtlExpire k) s fun t =>
      (∃ y, findDesc t k = some y ∧ y.index = x.index ∧ y.state = 7 ∧ y.expiry = x.timerStart + x.ttlMs * 1000000
        ∧ y.tokens = [] ∧ y.ctxLen = 0 ∧ y.table = [] ∧ y.blocks = [] ∧ y.turn = none ∧ y.committed = x.committed
        ∧ y.streamRing = x.streamRing ∧ y.eventRing = x.eventRing ∧ y.timerStart = x.timerStart)
      ∧ t.get Reg.SESS_EXPIRED = (s.dev.count Reg.SESS_EXPIRED 1).get Reg.SESS_EXPIRED
      ∧ OtherSessions x.index s.dev t ∧ t.mem.range = s.dev.mem.range ∧ t.text = s.dev.text)
    ∧ (x.isHome = true → park → ¬ ttl → Gives (.sessionParkTimer k) s fun t =>
      t.sess = (putDesc { x with state := 5 } s.dev).sess ∧ t.mem = s.dev.mem ∧ t.run = s.dev.run ∧ t.text = s.dev.text)
    ∧ (x.isHome = true → grace → Gives (.sessionGraceExpire k) s fun t =>
      (∀ y ∈ t.sess.descs, y.index ≠ x.index) ∧ OtherSessions x.index s.dev t
      ∧ dirFind t 0 (sessKeyWord k) = none ∧ t.mem = s.dev.mem ∧ t.kv = s.dev.kv)
    ∧ (x.isHome = true → hint → lowerPages s.dev x = [] → x.state = 5 → Gives (.wakeHintDue k) s fun t =>
      Leaves [] { putDesc { x with state := 4 } s.dev with kv := t.kv } t ∧ t.kv.pages = s.dev.kv.pages)
    ∧ (x.isHome = true → hint → lowerPages s.dev x = [] → x.state = 4 → Gives (.wakeHintDue k) s (Becomes [] s.dev))
    ∧ (¬ ttl ∨ x.isHome = false → Gives (.sessionTtlExpire k) s (Becomes [] s.dev))
    ∧ (¬ park ∨ ttl ∨ x.isHome = false → Gives (.sessionParkTimer k) s (Becomes [] s.dev))
    ∧ (¬ grace ∨ x.isHome = false → Gives (.sessionGraceExpire k) s (Becomes [] s.dev))
    ∧ (¬ hint ∨ x.isHome = false → Gives (.wakeHintDue k) s (Becomes [] s.dev))

/-- R132: WAIT, PARK, STOP, DESTROY and QUERY. -/
def Obligations.SessionStateCodes : Prop :=
  ∀ (c : HostCmd) (s : State), c.slot < 16 →
    ∀ row ∈ [(Instr.wait c, 0x22, [3, 4, 5]), (.park c, 0x23, [3, 4, 5]), (.stop c, 0x24, [2, 3]),
        (.destroy c, 0x28, [1, 2, 3, 4, 5, 7]), (.query c, 0x29, [1, 2, 3, 4, 5, 6, 7])],
      Passes row.2.1 c s.dev →
      ∀ (f : Found) (e : Dev), resolve (cmdKey c) (taken c s.dev) = (f, e) →
        let ends := fun st => Gives row.1 s fun t =>
          Leaves (lookupFields c) { s.dev with newel := t.newel } t
          ∧ ∀ q, findSq s.dev c.slot c.sq = some q → ∀ r, findCq s.dev c.slot q.cq = some r → r.waiting = [] →
              ringFull r.m r.head r.tail = false → Sent (.hostWrite c.slot (r.base + 32 * r.tail)
                (withPhase 31 r.phase (completionBytes c.cid c.sq st q.head c.sid 0 0))) s.dev t
        match f with
        | .none => ends 0x0200
        | .home x =>
          if x.part ≠ s.dev.get (Reg.SLOT_PART c.slot) then ends stPartitionDenied
          else row.2.2.contains x.state = false → x.state ≤ 7 →
            ends (if x.state = 6 then 0x0204 else if x.state = 7 then 0x0205 else 0x0202)
        | .away _ => True

/-- R252, R255, R263, R268, R275, R423. -/
def Obligations.StepMessages : Prop :=
  ∀ (s : State) (src : Nat) (k : SessKey) (step layer half : Nat) (elems : List Nat) (entries : List (Nat × Int)) (body : Bytes),
    let body0 := fieldAt body 8 6
    let same := fun t : Dev => t.sess = s.dev.sess ∧ t.mem = s.dev.mem ∧ t.tier = s.dev.tier ∧ t.kv = s.dev.kv
    let rows := [Instr.allreducePartialRx src k step layer half elems, .allgatherShardRx src k step layer half elems,
      .peerListRx src k step entries, .remainderMsgRx src k.ns body]
    (peerState s.dev src = .lost → ∀ i ∈ rows, Gives i s fun t =>
      Becomes [Reg.FAB_RX_FENCED] s.dev t ∧ Counts Reg.FAB_RX_FENCED 1 s.dev t)
    ∧ (peerState s.dev src ≠ .lost →
      ((senderSlice s.dev k src = none ∨ ∀ x, findStep s.dev k = some x → x.step ≠ step ∨ x.committed = true) →
        ∀ i ∈ rows.take 3, Gives i s (Becomes [] s.dev))
      ∧ ∀ (x : Step) (sl : Nat), findStep s.dev k = some x → x.step = step → x.committed = false →
        senderSlice s.dev k src = some sl →
        ((x.partials.all fun p => !(p.1 == layer && p.2.1 == half && p.2.2.1 == sl)) = true →
          Gives (.allreducePartialRx src k step layer half elems) s fun t => same t
            ∧ ∃ y, findStep t k = some y ∧ y.step = step ∧ (layer, half, sl, elems) ∈ y.partials)
        ∧ ((x.partials.any fun p => p.1 == layer && p.2.1 == half && p.2.2.1 == sl) = true →
          Gives (.allreducePartialRx src k step layer half elems) s (Becomes [] s.dev))
        ∧ ((x.shards.all fun p => !(p.1 == layer && p.2.1 == half && p.2.2.1 == sl)) = true →
          Gives (.allgatherShardRx src k step layer half elems) s fun t => same t
            ∧ ∃ y, findStep t k = some y ∧ y.step = step ∧ (layer, half, sl, elems) ∈ y.shards)
        ∧ ((x.shards.any fun p => p.1 == layer && p.2.1 == half && p.2.2.1 == sl) = true →
          Gives (.allgatherShardRx src k step layer half elems) s (Becomes [] s.dev))
        ∧ (∀ z m, findDesc s.dev k = some z → findModel s.dev z.model = some m → (x.lists.all fun l => l.1 != sl) = true →
          Gives (.peerListRx src k step entries) s fun t => same t
            ∧ ∃ y, findStep t k = some y ∧ y.step = step
              ∧ (if listBad m sl entries = true then y.error = true ∧ y.lists = x.lists ∧ Counts Reg.PLEC_LIST_ERR 1 s.dev t
                 else (sl, entries) ∈ y.lists))
        ∧ ((x.lists.any fun l => l.1 == sl) = true → Gives (.peerListRx src k step entries) s (Becomes [] s.dev))
        ∧ (fieldAt body 0 8 = k.sid → body0 = step → fieldAt body 14 2 = sl → (x.remainders.all fun r => r.1 != sl) = true →
          Gives (.remainderMsgRx src k.ns body) s
            (Becomes [] (putStep { x with remainders := x.remainders ++ [(sl, fieldAt body 16 4, fieldAt body 32 16)] } s.dev)))
        ∧ (fieldAt body 0 8 = k.sid → body0 = step → (fieldAt body 14 2 ≠ sl ∨ (x.remainders.any fun r => r.1 == sl) = true) →
          Gives (.remainderMsgRx src k.ns body) s (Becomes [] s.dev)))

/-- R221-R225, R423. -/
def Obligations.RemoteAttention : Prop :=
  (∀ (s : State) (src tag key : Nat) (body : Bytes),
    let r := pattnServe s.dev body
    let same := fun t : Dev => t.sess = s.dev.sess ∧ t.mem = s.dev.mem ∧ t.run = s.dev.run
    (peerState s.dev src = .lost → Gives (.pattnRequestRx src tag key body) s fun t => same t
      ∧ Goes src 2 (fun f => f.op = 0x8A ∧ f.tag = tag ∧ f.dst = src ∧ f.status = 4 ∧ f.payload = []) s.dev t)
    ∧ (peerState s.dev src ≠ .lost → Gives (.pattnRequestRx src tag key body) s fun t => same t
      ∧ Goes src 2 (fun f => f.op = 0x8A ∧ f.tag = tag ∧ f.dst = src ∧ f.status = 0 ∧ f.payload = r.2) s.dev t
      ∧ (r.1 = 0 → Counts Reg.NME_PATTN_SERVED 1 s.dev t ∧ t.get Reg.NME_PAGE_ABSENT = s.dev.get Reg.NME_PAGE_ABSENT)
      ∧ (r.1 = 1 → Counts Reg.NME_PAGE_ABSENT 1 s.dev t ∧ t.get Reg.NME_PATTN_SERVED = s.dev.get Reg.NME_PATTN_SERVED)
      ∧ (pattnMalformed (pattnReqOf body) body.length = true → r.1 = 3)
      ∧ (pattnMalformed (pattnReqOf body) body.length = false →
          (r.1 = 0 ↔ ∀ w ∈ (pattnReqOf body).pages, pageCheck s.dev (pattnReqOf body) w = 0)
          ∧ byteAt r.2 0 = 2 ∧ fieldAt r.2 4 4 = fieldAt body 4 4 ∧ byteAt r.2 28 = r.1 % 256)))
  ∧ (∀ (s : State) (src : Nat) (body : Bytes), peerState s.dev src ≠ .lost →
    let tag := fieldAt body 4 4
    let matches_ := fun (x : Step) => !x.committed && x.requests.any fun r =>
      r.tag == tag && r.owner == src && r.attempt % 256 == byteAt body 1
    let same := fun t : Dev => t.sess = s.dev.sess ∧ t.mem = s.dev.mem
    ((∀ x ∈ s.dev.run.steps, matches_ x = false) → Gives (.pattnResponseRx src body) s fun t => same t ∧ t.run = s.dev.run
      ∧ ∃ g, Counts (Reg.ATTN_REMOTE_STALE g) 1 s.dev t)
    ∧ ∀ (x : Step) (r : RemoteReq), s.dev.run.steps.find? matches_ = some x → findStep s.dev x.key = some x →
      (x.requests.find? fun q => q.tag == tag) = some r →
      (byteAt body 28 = 0 → (x.requests.filter fun q => q.tag != tag) ≠ [] → Gives (.pattnResponseRx src body) s fun t => same t
        ∧ findStep t x.key = some { x with requests := x.requests.filter fun q => q.tag != tag }
        ∧ ∃ g, Counts (Reg.ATTN_SCORE_SAT g) (fieldAt body 40 4) s.dev t ∧ Counts (Reg.ATTN_V_SAT g) (fieldAt body 44 4) s.dev t)
      ∧ (byteAt body 28 = 0 → Gives (.pattnResponseRx src body) s same)
      ∧ (byteAt body 28 = 1 → Gives (.pattnResponseRx src body) s fun t => same t
        ∧ (∃ y, findStep t x.key = some y ∧ Cause.t2Late ∈ y.causes ∧ y.requests = x.requests)
        ∧ (ObjRef.page ((r.pages[byteAt body 29]?).getD 0), src) ∈ t.fab.absentAt)
      ∧ (2 ≤ byteAt body 28 → Gives (.pattnResponseRx src body) s fun t => same t
        ∧ (∃ y, findStep t x.key = some y ∧ y.error = true) ∧ ∃ g, Counts (Reg.ATTN_REMOTE_FAIL g) 1 s.dev t))

/-- R191, R331, R332, R377, R564. -/
def Obligations.WaitsServed : Prop :=
  ∀ (s : State),
    (∀ k run, Gives (.compactionDone k run) s (Becomes [] { s.dev with kv := { s.dev.kv with
      builds := s.dev.kv.builds.map fun b => if b.key == k && b.run == run then { b with done := true } else b } }))
    ∧ (∀ table key, (table, key) ∉ s.dev.newel.waiting → Gives (.backingLookupDone table key) s (Becomes [] s.dev))
    ∧ (∀ table key, (table, key) ∈ s.dev.newel.waiting → Gives (.backingLookupDone table key) s fun t =>
        t.newel.waiting = s.dev.newel.waiting.erase (table, key) ∧ t.newel.dir = s.dev.newel.dir ∧ t.newel.stash = s.dev.newel.stash
        ∧ (∀ r, dirFind s.dev table key = some r → ∃ x ∈ t.newel.rows, x.skey = key ∧ x.stable = table ∧ x.sres = r
            ∧ x.mkey = key ∧ x.mtable = table)
        ∧ (dirFind s.dev table key = none → t.newel.rows = s.dev.newel.rows)
        ∧ Becomes [Reg.NEWEL_ROWS_VALID, Reg.NEWEL_DIR_ENTRIES, Reg.NEWEL_STASH_USED] { s.dev with newel := t.newel } t)
    ∧ (∀ row found, (∀ r ∈ s.dev.newel.rows, r.index ≠ row) ∨ found = .clean →
        Gives (.newelShadowScrub row found) s (Becomes [] s.dev))
    ∧ (∀ row r, (s.dev.newel.rows.find? fun x => x.index == row) = some r →
        (Gives (.newelShadowScrub row .corrected) s fun t => Counts Reg.NEWEL_SHADOW_CE 1 s.dev t
          ∧ Becomes [Reg.NEWEL_SHADOW_CE] (putRow { r with ecc := .clean } s.dev) t)
        ∧ (Gives (.newelShadowScrub row .uncorrectable) s fun t => Counts Reg.NEWEL_SHADOW_UE 1 s.dev t
          ∧ (∀ x ∈ t.newel.rows, x.index ≠ row) ∧ t.newel.dir = s.dev.newel.dir ∧ t.newel.stash = s.dev.newel.stash
          ∧ Becomes [Reg.NEWEL_SHADOW_UE, Reg.NEWEL_ROWS_VALID, Reg.NEWEL_DIR_ENTRIES, Reg.NEWEL_STASH_USED]
              { s.dev with newel := { s.dev.newel with rows := s.dev.newel.rows.filter fun x => x.index != row } } t))
    ∧ (∀ h l x, findModel s.dev h = some x → x.window ≠ 0 → x.srcLost = false → x.nextFill % x.layers = l →
        (∀ p ∈ s.dev.run.steps, p.started = true → p.committed = true) → Gives (.weightWindowFill h l) s fun t =>
        (∃ y, findModel t h = some y ∧ l ∈ y.filled ∧ y.nextFill = (l + 1) % x.layers ∧ y.window = x.window ∧ y.content = x.content)
        ∧ t.sess = s.dev.sess ∧ t.mem = s.dev.mem)
    ∧ (∀ h l, (∀ x, findModel s.dev h = some x → x.window = 0 ∨ x.srcLost = true ∨ x.nextFill % x.layers ≠ l) →
        Gives (.weightWindowFill h l) s fun t => t.tier = s.dev.tier ∧ t.sess = s.dev.sess ∧ t.mem = s.dev.mem)
    ∧ (∀ part ctx g, Gives (.contextRestoreDone part ctx g) s fun t =>
        (∀ w ∈ t.part.switches, w.part = part → w.ctx = ctx → g ∉ w.left)
        ∧ (∀ w ∈ s.dev.part.switches, (w.part ≠ part ∨ w.ctx ≠ ctx) → w.left ≠ [] → w ∈ t.part.switches)
        ∧ t.sess = s.dev.sess ∧ t.mem = s.dev.mem ∧ t.tier = s.dev.tier)

/-- R276-R280, R313-R315, R683. -/
def Obligations.LoadsAndFrees : Prop :=
  ∀ (k : LoadKind) (c : HostCmd) (s : State), c.slot < 16 →
    let h := loadHandle k c
    let model := argAt c 56 8
    let data := padTo c.lenA c.dataA
    let part := s.dev.get (Reg.SLOT_PART c.slot)
    let u := taken c s.dev
    let others := otherMembers s.dev model
    let nothing := Leaves [Reg.HOST_CMDS_ACCEPTED c.slot] s.dev
    (Passes (loadRow k c).2 c s.dev →
      (∀ x, findModel s.dev model = some x → handleOk k h = true → (k = .bias → c.lenA % 8 = 0) → poolRoom u part data.length = true →
        loadOk k model x.vocab data = true → loadKnown s.dev k h model = false → loadFull u k data = false →
        ((others = [] ∨ k = .bias) → Gives (loadRow k c).1 s fun t =>
          t.text.held = s.dev.text.held ++ [(k, h, model, data.length, part)]
          ∧ t.text.vocabs = s.dev.text.vocabs ++ (if k = .vocab then [vocabOf data] else [])
          ∧ t.text.grammars = s.dev.text.grammars ++ (if k = .grammar then [(h, model, data.length, grammarOf data)] else [])
          ∧ t.text.stops = s.dev.text.stops ++ (if k = .stopset then [(h, model, stopStrings data)] else [])
          ∧ t.samp.bias = s.dev.samp.bias ++ (if k = .bias then [⟨h, model, biasEntriesOf data⟩] else [])
          ∧ t.text.loads = s.dev.text.loads
          ∧ (s.dev.get Reg.STW_T1_FREE < 2 ^ 40 → t.get Reg.STW_T1_FREE + data.length = s.dev.get Reg.STW_T1_FREE)
          ∧ (∀ o ∈ others, Sent (.msg o (.load k h model data)) s.dev t)
          ∧ Answers c 0 0 0 s.dev t ∧ t.mem = s.dev.mem ∧ t.sess = s.dev.sess)
        ∧ (others ≠ [] → k ≠ .bias → (viaExtent k = true → exportRoom s.dev data.length = true) → Gives (loadRow k c).1 s fun t =>
          SameLoaded s.dev t
          ∧ (∃ w, t.text.loads = s.dev.text.loads ++ [w] ∧ w.kind = k ∧ w.handle = h ∧ w.model = model ∧ w.data = data
            ∧ w.wait = others ∧ w.cmd = some (cmdOf s.dev c) ∧ w.extent.isSome = viaExtent k)
          ∧ (∀ o ∈ others, Sent (.msg o (.load k h model data)) s.dev t)
          ∧ t.mem.range = s.dev.mem.range ∧ t.sess = s.dev.sess)
        ∧ (others ≠ [] → viaExtent k = true → exportRoom s.dev data.length = false → Gives (loadRow k c).1 s fun t =>
          nothing t ∧ Answers c 0x0407 0 0 s.dev t))
      ∧ ((findModel s.dev model = none ∨ handleOk k h = false ∨ (k = .bias ∧ c.lenA % 8 ≠ 0)) → Gives (loadRow k c).1 s fun t =>
          nothing t ∧ Answers c 0x0002 0 0 s.dev t)
      ∧ ((loadKnown s.dev k h model = true ∨ loadFull u k data = true ∨ poolRoom u part data.length = false
          ∨ ∃ x, findModel s.dev model = some x ∧ loadOk k model x.vocab data = false) → Gives (loadRow k c).1 s nothing))
    ∧ (Passes (freeRow k c).2 c s.dev →
      let held := s.dev.text.held.any fun x => x.1 == k && x.2.1 == h && x.2.2.1 == model
      (handleOk k h = true → held = true → loadUsed s.dev k h model = false → Gives (freeRow k c).1 s fun t =>
        t.text.held = s.dev.text.held.filter (fun x => !(x.1 == k && x.2.1 == h && x.2.2.1 == model))
        ∧ t.text.vocabs = s.dev.text.vocabs.filter (fun v => !(k == .vocab && v.model == model))
        ∧ t.text.grammars = s.dev.text.grammars.filter (fun g => !(k == .grammar && g.1 == h && g.2.1 == model))
        ∧ t.text.stops = s.dev.text.stops.filter (fun g => !(k == .stopset && g.1 == h && g.2.1 == model))
        ∧ t.samp.bias = s.dev.samp.bias.filter (fun l => !(k == .bias && l.handle == h && l.model == model))
        ∧ Answers c 0 0 0 s.dev t ∧ t.mem = s.dev.mem ∧ t.sess = s.dev.sess ∧ t.text.loads = s.dev.text.loads)
      ∧ (handleOk k h = false → Gives (freeRow k c).1 s fun t => nothing t ∧ Answers c 0x0002 0 0 s.dev t)
      ∧ (handleOk k h = true → held = false → Gives (freeRow k c).1 s fun t => nothing t ∧ Answers c
          (match k with | .vocab => 0x0502 | .grammar => 0x0507 | .stopset => 0x050B | .bias => 0x0A03) 0 0 s.dev t)
      ∧ (handleOk k h = true → held = true → loadUsed s.dev k h model = true → Gives (freeRow k c).1 s fun t => nothing t ∧ Answers c
          (match k with | .vocab => 0x0505 | .grammar => 0x0509 | .stopset => 0x050D | .bias => 0x0A04) 0 0 s.dev t))

/-- R278, R287-R289, R313, R314. The member's next seal is the model's reading (log entry 18). -/
def Obligations.LoadedDataAndText : Prop :=
  (∀ (s : State) (src : Nat) (k : LoadKind) (h model : Nat) (data : Bytes), peerState s.dev src ≠ .lost →
    let row := Instr.loadedDataRx src k h model data
    (findModel s.dev model = none ∨ loadKnown s.dev k h model = true → Gives row s (Becomes [] s.dev))
    ∧ (∀ x, findModel s.dev model = some x → loadKnown s.dev k h model = false →
      (poolRoom s.dev 8 data.length = true → loadFull s.dev k data = false → Gives row s fun t =>
        t.text.loads = s.dev.text.loads ++ [⟨k, h, model, data, none, [], none, 8⟩] ∧ SameLoaded s.dev t
        ∧ Sent (.msg src (.loadConfirm k h model)) s.dev t ∧ t.mem = s.dev.mem ∧ t.sess = s.dev.sess)
      ∧ (poolRoom s.dev 8 data.length = false ∨ loadFull s.dev k data = true → Gives row s fun t =>
        t.text = s.dev.text ∧ t.samp = s.dev.samp ∧ Sent (.msg src (.loadNoRoom k h model)) s.dev t
        ∧ t.mem = s.dev.mem ∧ t.sess = s.dev.sess)))
  ∧ (∀ (s : State) (src : Nat) (k : LoadKind) (h model : Nat), peerState s.dev src ≠ .lost →
    let row := Instr.loadedDataConfirmRx src k h model
    let mine := fun w : LoadWork => w.kind == k && w.handle == h && w.model == model
    (s.dev.text.loads.find? mine = none → Gives row s (Becomes [] s.dev))
    ∧ ∀ w, s.dev.text.loads.find? mine = some w → Gives row s fun t =>
      (∃ v, t.text.loads.find? mine = some v ∧ v.wait = w.wait.filter (· != src) ∧ v.data = w.data ∧ v.cmd = w.cmd
        ∧ (v.wait = [] → v.extent = none) ∧ (v.wait ≠ [] → v.extent = w.extent ∧ t.fab = s.dev.fab ∧ t.mem = s.dev.mem))
      ∧ SameLoaded s.dev t ∧ t.mem.range = s.dev.mem.range ∧ t.sess = s.dev.sess)
  ∧ (∀ (c : HostCmd) (s : State) (x : Desc) (e : Dev), c.slot < 16 → AtHome 0x92 c s.dev x e →
    let mine := fun r : SampleRec => r.sid == c.sid && r.step == c.step
    let same := Leaves (lookupFields c) { s.dev with newel := e.newel }
    (s.dev.samp.records.find? mine = none → Gives (.querySample c) s fun t => same t ∧ Answers c 0x0A05 0 0 s.dev t)
    ∧ ∀ r, s.dev.samp.records.find? mine = some r → Gives (.querySample c) s fun t => same t ∧ Answers c 0 0 0 s.dev t
      ∧ ((findSq s.dev c.slot c.sq).isSome = true → Sent (.hostWrite c.slot c.addrA (sampleRecBytes r)) s.dev t))
  ∧ (∀ (c : HostCmd) (s : State), c.slot < 16 → ∀ row ∈ [(Instr.tokenize c, 0x66, tokenizeChecks), (.detokenize c, 0x67, detokenizeChecks)],
    Passes row.2.1 c s.dev →
      (Clean (row.2.2 s.dev (cmdOf s.dev c)) → (s.dev.text.passes.all fun p => p.unit.isSome) = true → Gives row.1 s fun t =>
        t.text.passes = s.dev.text.passes ++ [⟨s.dev.host.nextOrder, freeUnit s.dev⟩]
        ∧ (∃ m ∈ t.host.accepted, m.c = c ∧ m.order = s.dev.host.nextOrder)
        ∧ (∀ n, freeUnit s.dev = some n → t.get (Reg.TXU_BUSY n) = 1) ∧ t.mem = s.dev.mem ∧ t.sess = s.dev.sess)
      ∧ (∀ st, lowest (row.2.2 s.dev (cmdOf s.dev c)) = some st → Gives row.1 s fun t =>
        Leaves [Reg.HOST_CMDS_ACCEPTED c.slot] s.dev t ∧ Answers c st 0 0 s.dev t))
  ∧ (∀ (s : State) (unit order : Nat),
    let pass := s.dev.text.passes.find? fun p => p.order == order && p.unit == some unit
    let cmd := s.dev.host.accepted.find? fun m => m.order == order
    (pass = none ∨ cmd = none → Gives (.tokenizationPassDone unit order) s (Becomes [] s.dev))
    ∧ ∀ p m v n q i b, pass = some p → cmd = some m → m.origin = .host n q i b → (findSq s.dev n q).isSome = true →
      vocabFor s.dev (argAt m.c 56 8) = some v →
      let one := s.dev.text.passes = [p]
      let ids := tokenise v (bitAt (argAt m.c 48 1) 0) (padTo m.c.lenA m.c.dataA)
      let out := detokenise v (detokIds m.c)
      (m.c.opcode = 0x66 → ids.invalid = false → 4 * ids.ids.length ≤ m.c.lenB → Gives (.tokenizationPassDone unit order) s fun t =>
        Sent (.hostWrite n m.c.addrB ((ids.ids.map (le 4)).flatten)) s.dev t ∧ (one → t.text.passes = [])
        ∧ t.mem = s.dev.mem ∧ t.sess = s.dev.sess)
      ∧ (m.c.opcode = 0x67 → out.length ≤ m.c.lenB → Gives (.tokenizationPassDone unit order) s fun t =>
        Sent (.hostWrite n m.c.addrB out) s.dev t ∧ (one → t.text.passes = []) ∧ t.mem = s.dev.mem ∧ t.sess = s.dev.sess)
      ∧ ((m.c.opcode = 0x66 ∧ ids.invalid = true) ∨ (m.c.opcode = 0x66 ∧ m.c.lenB < 4 * ids.ids.length)
          ∨ (m.c.opcode = 0x67 ∧ m.c.lenB < out.length) → Gives (.tokenizationPassDone unit order) s fun t =>
        (∀ a d, Out.hostWrite n a d ∈ t.out.drop s.dev.out.length → d.length ≤ 32) ∧ (one → t.text.passes = [])
        ∧ t.mem = s.dev.mem ∧ t.sess = s.dev.sess))
  ∧ (∀ (s : State) (src : Nat) (key : SessKey) (ids : List Nat), peerState s.dev src ≠ .lost →
    (findDesc s.dev key = none → Gives (.tokenIdsRx src key ids) s (Becomes [] s.dev))
    ∧ ∀ x, findDesc s.dev key = some x →
      ((x.isHome = true ∨ x.home ≠ src) → Gives (.tokenIdsRx src key ids) s (Becomes [] s.dev))
      ∧ (x.isHome = false → x.home = src → Gives (.tokenIdsRx src key ids) s
          (Becomes [] (putDesc { x with turn := some ⟨ids, true, none, [], 0, none, [], none⟩ } s.dev))))

/-- R353, R356, R383, R384. -/
def Obligations.RangeCommands : Prop :=
  ∀ (c : HostCmd) (s : State), c.slot < 16 → (∀ w ∈ s.dev.tier.waiting, w.order < s.dev.host.nextOrder) →
    let part := s.dev.get (Reg.SLOT_PART c.slot)
    let base := c.addrA
    let len := argAt c 48 8
    let gs := granulesOf base len
    let u := taken c s.dev
    let m := cmdOf s.dev c
    let others := fun t : Dev => ∀ p i, (p ≠ part ∨ i ∉ gs) → (findGranule t p i).isSome = (findGranule s.dev p i).isSome
    let nothing := Leaves [Reg.HOST_CMDS_ACCEPTED c.slot] s.dev
    (Passes 0x40 c s.dev → Clean (rangeFieldChecks s.dev m) →
      (anyGranule u part gs (fun _ => true) = false → Gives (.rangeMap c) s fun t =>
        (∀ i ∈ gs, findGranule t part i = some (newGranule part i (bitAt (argAt c 56 1) 0) false))
        ∧ t.tier.granules = s.dev.tier.granules ++ gs.map (fun i => newGranule part i (bitAt (argAt c 56 1) 0) false)
        ∧ Leaves [Reg.HOST_CMDS_ACCEPTED c.slot] { s.dev with tier := { s.dev.tier with granules := t.tier.granules } } t)
      ∧ (anyGranule u part gs (fun _ => true) = true → Gives (.rangeMap c) s nothing))
    ∧ (Passes 0x41 c s.dev → Clean (rangeFieldChecks s.dev m) →
      (anyUnmapped u part gs = false → anyGranule u part gs (·.hostWindow) = false → Gives (.rangeUnmap c) s fun t =>
        (∀ i ∈ gs, findGranule t part i = none) ∧ others t
        ∧ (∀ a, base ≤ a → a < base + len → readRange t part a 1 = [0])
        ∧ (∀ p a, a < 2 ^ 52 → (p ≠ part ∨ a < base ∨ base + len ≤ a) → readRange t p a 1 = readRange s.dev p a 1)
        ∧ t.mem.export_ = s.dev.mem.export_ ∧ t.sess = s.dev.sess)
      ∧ (anyUnmapped u part gs = true ∨ anyGranule u part gs (·.hostWindow) = true → Gives (.rangeUnmap c) s nothing))
    ∧ (Passes 0x42 c s.dev → Clean (rangePlaceChecks s.dev m) → argAt c 56 1 = 1 →
      anyUnmapped u part gs = false → anyGranule u part gs (·.hostWindow) = false → anyGranule u part gs (·.lost) = false →
      poolRoom u part (granulesNeed u part false gs) = true → s.dev.sec.keysOff = false → Gives (.rangePlace c) s fun t =>
        (∀ i ∈ gs, (findGranule t part i).map (·.pinT1) = some (bitAt (argAt c 57 1) 0)) ∧ others t
        ∧ (∀ i g, gs = [i] → findGranule s.dev part i = some g → 2 ≤ g.tier → g.tier ≤ 4 → promoting t (.granule part i) = true)
        ∧ t.mem = s.dev.mem ∧ t.sess = s.dev.sess)
    ∧ (Passes 0x42 c s.dev → Clean (rangePlaceChecks s.dev m) →
      (anyUnmapped u part gs = true ∨ anyGranule u part gs (·.hostWindow) = true ∨ anyGranule u part gs (·.lost) = true
        ∨ (argAt c 56 1 ≠ 1 ∧ tierAbsent u (argAt c 56 1) = true)) → Gives (.rangePlace c) s nothing)
    ∧ (Passes 0x42 c s.dev → Clean (rangePlaceChecks s.dev m) → argAt c 56 1 ≠ 1 →
      anyUnmapped u part gs = false → anyGranule u part gs (·.hostWindow) = false → anyGranule u part gs (·.lost) = false →
      tierAbsent u (argAt c 56 1) = false → s.dev.sec.keysOff = false → Gives (.rangePlace c) s fun t =>
        others t ∧ (∀ p i g, (p ≠ part ∨ i ∉ gs ∨ g.pinT1 = true) → s.dev.tier.waiting = [] → findGranule s.dev p i = some g →
            findGranule t p i = some g)
        ∧ t.mem = s.dev.mem ∧ t.sess = s.dev.sess)
    ∧ (Passes 0x43 c s.dev → Clean (rangeCopyChecks s.dev m) →
      let to_ := granulesOf c.addrA c.lenA
      anyUnmapped u part to_ = false → anyGranule u part to_ (·.lost) = false →
      poolRoom u part (granulesNeed u part true to_) = true → s.dev.sec.keysOff = false → Gives (.rangeCopyIn c) s fun t =>
        (m ∈ t.tier.waiting ∨ ∃ k ∈ t.tier.copies, k.kind = .rangeIn m) ∧ t.mem = s.dev.mem ∧ t.sess = s.dev.sess)
    ∧ (Passes 0x44 c s.dev → Clean (rangeCopyChecks s.dev m) →
      let from_ := granulesOf c.addrA c.lenA
      (anyUnmapped u part from_ = false → anyGranule u part from_ (·.lost) = false → s.dev.sec.keysOff = false →
        Gives (.rangeCopyOut c) s fun t => (∃ k ∈ t.tier.copies, k.kind = .rangeOut m ∧ k.bytes = c.lenA)
          ∧ t.mem = s.dev.mem ∧ t.sess = s.dev.sess ∧ t.kv = s.dev.kv)
      ∧ (anyUnmapped u part from_ = true ∨ anyGranule u part from_ (·.lost) = true → Gives (.rangeCopyOut c) s nothing))

/-- R348, R349, R359, R366, R384. -/
def Obligations.TransfersEnd : Prop :=
  ∀ (s : State),
    (∀ id, (∀ k ∈ s.dev.tier.copies, k.id = id → k.done = true) → Gives (.stairwellCopyDone id) s (Becomes [] s.dev))
    ∧ (∀ id k, (s.dev.tier.copies.find? fun x => x.id == id && !x.done) = some k →
      (∀ m, k.kind = .rangeIn m → m.c.addrA + m.c.lenA ≤ 2 ^ 52 → linesFree s.dev m.part m.c.addrA m.c.lenA = true →
        anyUnmapped s.dev m.part (granulesOf m.c.addrA m.c.lenA) = false →
        Gives (.stairwellCopyDone id) s fun t =>
          readRange t m.part m.c.addrA m.c.lenA = padTo m.c.lenA m.c.dataB
          ∧ (∀ p a, a < 2 ^ 52 → (p ≠ m.part ∨ a < m.c.addrA ∨ m.c.addrA + m.c.lenA ≤ a) → readRange t p a 1 = readRange s.dev p a 1)
          ∧ t.sess = s.dev.sess)
      ∧ (∀ m, k.kind = .rangeIn m → linesFree s.dev m.part m.c.addrA m.c.lenA = false →
        Gives (.stairwellCopyDone id) s fun t => t.mem = s.dev.mem ∧ t.tier = s.dev.tier)
      ∧ (∀ m n q i h, k.kind = .rangeOut m → m.origin = .host n q i h → (findSq s.dev n q).isSome = true →
        rangeSettled s.dev m.part m.c.addrA m.c.lenA = true → Gives (.stairwellCopyDone id) s fun t =>
          Sent (.hostWrite n m.c.addrB (readRange s.dev m.part m.c.addrA m.c.lenA)) s.dev t ∧ t.mem = s.dev.mem
          ∧ t.sess = s.dev.sess)
      ∧ (∀ o, k.kind = .writeBack o → Gives (.stairwellCopyDone id) s (Becomes [] { s.dev with tier := { s.dev.tier with
          copies := s.dev.tier.copies.filter fun x => x.id != k.id } }))
      ∧ (∀ m h, k.kind = .image m h → Gives (.stairwellCopyDone id) s fun t =>
          t.tier.copies = (s.dev.tier.copies.filter fun x => x.id != k.id) ∧ t.tier.models = s.dev.tier.models
          ∧ t.mem = s.dev.mem ∧ t.sess = s.dev.sess))
    ∧ (∀ o p v, (s.dev.tier.promos.find? fun x => x.obj == o) = some p → (s.dev.fab.txns.all fun x => x.use != .promote o) = true →
      objView s.dev o = some v → Gives (.promotionComplete o) s fun t =>
        (∀ w, objView t o = some w → w.tier = 1 ∧ w.loc = p.loc) ∧ promoting t o = false
        ∧ Counts Reg.STW_PROMOTED_BYTES p.bytes s.dev t ∧ t.mem = s.dev.mem
        ∧ (∀ part i, o = .granule part i → t.sess = s.dev.sess))
    ∧ (∀ o, promoting s.dev o = false → s.dev.tier.waiting = [] → Gives (.promotionComplete o) s (Becomes [] s.dev))
    ∧ (∀ o x v, (s.dev.tier.demos.find? fun y => y.obj == o) = some x → objView s.dev o = some v → demoteWritten s.dev x = true →
      Gives (.demotionConfirmed o) s fun t =>
        (∃ w, objView t o = some w ∧ w.tier = x.tier ∧ w.loc = x.loc ∧ w.backTier = noTier) ∧ (∀ y ∈ t.tier.demos, y.obj ≠ o)
        ∧ Counts Reg.STW_DEMOTED_BYTES (x.bytes * x.copies) s.dev t ∧ t.mem = s.dev.mem ∧ t.sess = s.dev.sess)
    ∧ (∀ o, (∀ x, (s.dev.tier.demos.find? fun y => y.obj == o) = some x → demoteWritten s.dev x = false) → s.dev.tier.waiting = [] →
      Gives (.demotionConfirmed o) s (Becomes [] s.dev))

/-- R368, R373, R374, R386. -/
def Obligations.PoliciesAndRegions : Prop :=
  ∀ (c : HostCmd) (s : State), c.slot < 16 → (∀ w ∈ s.dev.tier.waiting, w.order < s.dev.host.nextOrder) →
    let part := s.dev.get (Reg.SLOT_PART c.slot)
    let m := cmdOf s.dev c
    let nothing := Leaves [Reg.HOST_CMDS_ACCEPTED c.slot] s.dev
    let n := argAt c 48 1
    let order := ([byteAt c.dataA 0, byteAt c.dataA 1, byteAt c.dataA 2]).filter (· != 0xFF)
    let len := argAt c 48 8
    let good := c.addrA % 2097152 = 0 ∧ len % 2097152 = 0 ∧ len ≠ 0 ∧ c.addrA + len ≤ 2 ^ 52 ∧ s.dev.tier.t3.length < 64
      ∧ ∀ r ∈ s.dev.tier.t3, r.slot = c.slot → r.base + r.len ≤ c.addrA ∨ c.addrA + len ≤ r.base
    (Passes 0x47 c s.dev → Clean (parkPolicyChecks s.dev m) → Gives (.parkPolicySet c) s fun t =>
      assocGet t.tier.policies n = some ⟨order, fieldAt c.dataA 4 4⟩
      ∧ (∀ k, k ≠ n → assocGet t.tier.policies k = assocGet s.dev.tier.policies k)
      ∧ Leaves [Reg.HOST_CMDS_ACCEPTED c.slot] { s.dev with tier := { s.dev.tier with policies := t.tier.policies } } t)
    ∧ (Passes 0x47 c s.dev → n = 0 → Gives (.parkPolicySet c) s nothing)
    ∧ (Passes 0x48 c s.dev → good → Gives (.t3Add c) s fun t =>
      (∃ k, k < 64 ∧ t.tier.t3 = s.dev.tier.t3 ++ [⟨k, c.slot, c.addrA, len⟩])
      ∧ t.get Reg.STW_T3_REGIONS = s.dev.tier.t3.length + 1
      ∧ Leaves [Reg.HOST_CMDS_ACCEPTED c.slot, Reg.STW_T3_BYTES, Reg.STW_T3_REGIONS]
          { s.dev with tier := { s.dev.tier with t3 := t.tier.t3 } } t)
    ∧ (Passes 0x48 c s.dev → ¬ good → Gives (.t3Add c) s nothing)
    ∧ (Passes 0x49 c s.dev → (∀ r ∈ s.dev.tier.t3, r.num ≠ n) → Gives (.t3Remove c) s nothing)
    ∧ (∀ r, Passes 0x49 c s.dev → (s.dev.tier.t3.find? fun r => r.num == n) = some r → regionObjs s.dev r = [] →
      Gives (.t3Remove c) s fun t => (∀ q ∈ t.tier.t3, q.num ≠ n) ∧ t.mem = s.dev.mem ∧ t.sess = s.dev.sess)
    ∧ (Passes 0x4A c s.dev → s.dev.sec.keysOff = false → Gives (.partitionPull c) s fun t => part ∈ t.tier.pulled
      ∧ (∀ o v, objView t o = some v → v.part = part → v.tier ≤ 1 → v.backTier = noTier)
      ∧ t.mem = s.dev.mem ∧ t.sess = s.dev.sess)

/-- R249, R376, R385. -/
def Obligations.ModelLoads : Prop :=
  ∀ (c : HostCmd) (s : State), c.slot < 16 →
    let part := s.dev.get (Reg.SLOT_PART c.slot)
    let m := cmdOf s.dev c
    let img := loadImage c
    let nothing := Leaves [Reg.HOST_CMDS_ACCEPTED c.slot] s.dev
    (Passes 0x45 c s.dev → Clean (modelLoadChecks s.dev m) →
      (imageCheck s.dev.self img = none → Gives (.modelLoad c) s nothing)
      ∧ ∀ h, imageCheck s.dev.self img = some h →
        let w := if argAt c 48 1 = 1 ∧ 2 * argAt c 49 1 < h.layers then argAt c 49 1 else 0
        (findModel s.dev h.handle = none → poolRoom (taken c s.dev) part (loadBytes h img w) = true → s.dev.sec.keysOff = false →
          s.dev.get Reg.STW_T1_FREE < 2 ^ 64 → Gives (.modelLoad c) s fun t =>
            (∃ x, findModel t h.handle = some x ∧ x.layers = h.layers ∧ x.group = h.group ∧ x.members = h.members
              ∧ x.vocab = h.vocab ∧ x.window = w ∧ x.bytes = loadBytes h img w ∧ x.content = sha256 img ∧ x.srcLost = false)
            ∧ (∀ k, k ≠ h.handle → findModel t k = findModel s.dev k)
            ∧ (∃ k ∈ t.tier.copies, k.kind = .image m h.handle)
            ∧ t.get Reg.STW_T1_FREE + loadBytes h img w = s.dev.get Reg.STW_T1_FREE
            ∧ t.mem = s.dev.mem ∧ t.sess = s.dev.sess ∧ t.kv = s.dev.kv)
        ∧ (∀ x, findModel s.dev h.handle = some x → x.srcLost = false → Gives (.modelLoad c) s nothing))
    ∧ (Passes 0x46 c s.dev →
      let h := argAt c 56 8
      (∀ x, findModel s.dev h = some x → (∀ y ∈ s.dev.sess.descs, y.model = h → y.state = 0 ∨ y.state = 7) →
        Gives (.modelUnload c) s fun t => findModel t h = none ∧ (∀ k, k ≠ h → findModel t k = findModel s.dev k)
          ∧ t.mem = s.dev.mem ∧ t.sess = s.dev.sess ∧ t.kv = s.dev.kv ∧ t.text = s.dev.text)
      ∧ (findModel s.dev h = none ∨ (∃ y ∈ s.dev.sess.descs, y.model = h ∧ y.state ≠ 0 ∧ y.state ≠ 7) →
        Gives (.modelUnload c) s nothing))

/-- R391-R396, R403. READ's ARG and the ALLOC payload are the model's (log entries 12, 15). -/
def Obligations.OwnerSide : Prop :=
  ∀ (s : State) (q : FabTxn),
    let d := s.dev
    let rows := [(Instr.fabReadRx q, 1), (.allocRx q, 2), (.placeRx q, 3), (.sealRx q, 4), (.freeRx q, 5), (.pushOpenRx q, 6),
      (.pushDataRx q, 7), (.pushCloseRx q, 8), (.nmOpRx q, 9), (.probeRx q, 13)]
    let same := fun t : Dev => t.mem.range = d.mem.range ∧ t.sess = d.sess ∧ t.tier = d.tier ∧ t.kv = d.kv
    let none_ := fun t : Dev => same t ∧ t.mem = d.mem ∧ t.fab.extents = d.fab.extents
    let bytesKept := fun (lo n : Nat) (t : Dev) => ∀ a, (a < lo ∨ lo + n ≤ a) → readExport t a 1 = readExport d a 1
    (∀ r ∈ rows, (q.op ≠ r.2 ∨ q.dst ≠ d.self → Gives r.1 s (Becomes [] d))
      ∧ (q.op = r.2 → q.dst = d.self → tooLong q = true → Gives r.1 s fun t => Becomes [Reg.FAB_RX_MALFORMED] d t ∧ Counts Reg.FAB_RX_MALFORMED 1 d t)
      ∧ (q.op = r.2 → q.dst = d.self → tooLong q = false → peerState d q.src = .lost → Gives r.1 s fun t => none_ t ∧ Answered q 4 0 [] d t))
    ∧ (q.dst = d.self → tooLong q = false → peerState d q.src ≠ .lost → q.resv = false →
      (q.op = 1 → Gives (.fabReadRx q) s fun t => none_ t ∧
        match shareAddr d q.addr with
        | none => Answered q 1 0 [] d t
        | some (fl, off) =>
          let gone := fl = true ∧ ∃ u ∈ d.flash.lost, u * 65536 < off + q.arg ∧ off < u * 65536 + 65536
          if 65536 < q.arg then Answered q 6 0 [] d t
          else match extentAt d fl off q.arg with
            | none => Answered q 1 0 [] d t
            | some x => if x.keySlot ≠ q.keySlot ∨ x.sealed = false then Answered q 2 0 [] d t ∧ Counts Reg.NME_DENIED 1 d t
              else (gone → Answered q 5 0 [] d t ∧ Counts Reg.NME_READ_ERR 1 d t)
                ∧ (¬ gone → Answered q 0 0 (readExport d (if fl then 2 ^ 52 + off else off) q.arg) d t))
      ∧ (q.op = 2 → q.addr = globalAddr 0 d.self 0 → d.self < 1024 → q.arg ≠ 0 → byteAt q.payload 0 < 4 →
        let n := roundUp 4096 q.arg
        let fits := fun o => o + n ≤ exportBytes d ∧ ∀ x ∈ d.fab.extents, x.flash = false → o + n ≤ x.base ∨ x.base + x.len ≤ o
        ((∀ o, ¬ fits o) ∨ 1048576 ≤ d.fab.extents.length → Gives (.allocRx q) s fun t => none_ t ∧ Answered q 3 0 [] d t)
        ∧ (∀ o, d.fab.extents.length < 1048576 → fits o → (∀ k, k < o → ¬ fits k) → Gives (.allocRx q) s fun t =>
          same t ∧ t.mem = d.mem ∧ Answered q 0 (globalAddr 0 d.self o) [] d t
          ∧ ∃ x, t.fab.extents = x :: d.fab.extents ∧ x.base = o ∧ x.len = n ∧ x.allocator = q.src ∧ x.keySlot = q.keySlot
            ∧ x.sealed = false ∧ x.flash = false ∧ x.scratch = bitAt (byteAt q.payload 0) 0 ∧ x.shared = bitAt (byteAt q.payload 0) 1))
      ∧ (q.op = 3 → q.payload.length ≤ 65536 → Gives (.placeRx q) s fun t => same t ∧ t.fab.extents = d.fab.extents ∧
        match (shareAddr d q.addr).bind fun a => (extentAt d a.1 a.2 q.payload.length).map fun x => (a, x) with
        | none => t.mem = d.mem ∧ Answered q 1 0 [] d t
        | some ((fl, off), x) =>
          if x.keySlot = q.keySlot ∧ x.sealed = false ∧ x.allocator = q.src then
            readExport t (if fl then 2 ^ 52 + off else off) q.payload.length = q.payload
            ∧ bytesKept (if fl then 2 ^ 52 + off else off) q.payload.length t ∧ Answered q 0 0 [] d t
          else t.mem = d.mem ∧ Answered q 2 0 [] d t ∧ Counts Reg.NME_DENIED 1 d t)
      ∧ (q.op = 4 → Gives (.sealRx q) s fun t => same t ∧ t.mem = d.mem ∧
        match (shareAddr d q.addr).bind fun a => (extentOf d a.1 a.2).map fun x => (a, x) with
        | none => t.fab.extents = d.fab.extents ∧ Answered q 1 0 [] d t
        | some ((fl, off), x) =>
          if x.keySlot ≠ q.keySlot ∨ x.allocator ≠ q.src ∨ x.sealed = true then
            t.fab.extents = d.fab.extents ∧ Answered q 2 0 [] d t ∧ Counts Reg.NME_DENIED 1 d t
          else if fl = true then t.fab.extents = d.fab.extents ∧ t.fab.sealWait = d.fab.sealWait ++ [q]
          else extentOf t false off = some { x with sealed := true } ∧ Answered q 0 0 [] d t
            ∧ ∀ f o, (f, o) ≠ (false, off) → extentOf t f o = extentOf d f o)
      ∧ (q.op = 5 → Gives (.freeRx q) s fun t => same t ∧
        match (shareAddr d q.addr).bind fun a => (extentOf d a.1 a.2).map fun x => (a, x) with
        | none => none_ t ∧ Answered q 1 0 [] d t
        | some ((fl, off), x) =>
          let lo := if fl then 2 ^ 52 + off else off
          if x.keySlot = q.keySlot ∧ (x.shared = true ∨ x.allocator = q.src) then
            extentOf t fl off = none ∧ (∀ f o, (f, o) ≠ (fl, off) → extentOf t f o = extentOf d f o)
            ∧ (∀ a, lo ≤ a → a < lo + x.len → readExport t a 1 = [0]) ∧ bytesKept lo x.len t ∧ Answered q 0 0 [] d t
          else none_ t ∧ Answered q 2 0 [] d t ∧ Counts Reg.NME_DENIED 1 d t)
      ∧ (q.op = 13 → Gives (.probeRx q) s fun t => none_ t ∧ Answered q (if q.addr = globalAddr 3 d.self 5 then 0 else 1) 0 [] d t))
    ∧ (q.dst = d.self → tooLong q = false → peerState d q.src ≠ .lost → q.resv = true → ∀ r ∈ [(Instr.allocRx q, 2), (.pushOpenRx q, 6), (.nmOpRx q, 9), (.probeRx q, 13)],
      q.op = r.2 → Gives r.1 s fun t => none_ t ∧ Answered q 6 0 [] d t)

/-- R406-R408. LEN of NM_OP is the length of the operation (log entry 16). -/
def Obligations.NearMemory : Prop :=
  ∀ (s : State) (q : FabTxn), q.op = 9 → q.dst = s.dev.self → tooLong q = false → peerState s.dev q.src ≠ .lost → q.resv = false →
    let d := s.dev
    let st := nmStatus d q.arg q.len q.addr q.keySlot q.payload
    let off := addrOffset q.addr
    let other := addrOffset (fieldAt q.payload 0 8)
    let code := q.arg % 256
    let ty := q.arg / 256 % 256
    let fn := q.arg / 65536 % 256
    let kept := fun t : Dev => (∀ a, (a < off ∨ off + nmSpan q.arg q.len ≤ a) → readExport t a 1 = readExport d a 1)
      ∧ t.mem.range = d.mem.range ∧ t.fab.extents = d.fab.extents ∧ t.sess = d.sess ∧ t.tier = d.tier
    (st ≠ 0 → Gives (.nmOpRx q) s fun t => t.mem = d.mem ∧ t.fab.extents = d.fab.extents ∧ t.sess = d.sess ∧ Answered q st 0 [] d t
      ∧ t.get Reg.NME_OPS = d.get Reg.NME_OPS)
    ∧ (st = 0 → Gives (.nmOpRx q) s fun t => kept t ∧ Counts Reg.NME_OPS 1 d t)
    ∧ (st = 0 → code = 0 → Gives (.nmOpRx q) s fun t =>
      (∀ i, i < q.len / 8 → readExport t (off + 8 * i) 8 = q.payload) ∧ Answered q 0 0 [] d t)
    ∧ (st = 0 → code = 1 → Gives (.nmOpRx q) s fun t => readExport t off q.len = readExport d other q.len ∧ Answered q 0 0 [] d t)
    ∧ (st = 0 → code = 2 → Gives (.nmOpRx q) s fun t => t.mem = d.mem ∧
      ((∀ i, i < q.len → readExport d (off + i) 1 = readExport d (other + i) 1) → Answered q 0 0 (le 8 0xFFFFFFFFFFFFFFFF) d t)
      ∧ ∀ i, i < q.len → readExport d (off + i) 1 ≠ readExport d (other + i) 1 →
        (∀ j, j < i → readExport d (off + j) 1 = readExport d (other + j) 1) → Answered q 0 0 (le 8 i) d t)
    ∧ (st = 0 → code = 3 → Gives (.nmOpRx q) s fun t => Answered q 0 0 (readExport d off 8) d t
      ∧ readExport t off 8 = if readExport d off 8 = q.payload.take 8 then q.payload.drop 8 else readExport d off 8)
    ∧ (st = 0 → code = 4 → ty = 0 → fn = 0 → Gives (.nmOpRx q) s fun t => t.mem = d.mem
      ∧ Answered q 0 0 (le 16 (twos 128 (((List.range (q.len / 8)).map fun i =>
          signedOf 64 (unle (readExport d (off + 8 * i) 8))).foldl (· + ·) 0))) d t)
    ∧ (st = 0 → code = 5 → ty = 0 → fn = 0 → Gives (.nmOpRx q) s fun t => Answered q 0 0 [] d t
      ∧ ∀ i, i < q.len / 8 → unle (readExport t (off + 8 * i) 8)
          = (unle (readExport d (off + 8 * i) 8) + fieldAt q.payload (8 * i) 8) % 2 ^ 64)
    ∧ ∀ (c : HostCmd), c.slot < 16 → Passes 0x54 c d → d.sec.keysOff = false → addrModule c.addrA = d.self → routed d = true →
      argAt c 48 8 = q.arg → c.lenA = q.len → c.addrA = q.addr → slotKey d (cmdOf d c) = q.keySlot →
      padTo (nmPayload (q.arg % 256) c.lenA) c.dataB = q.payload →
      (st ≠ 0 → Gives (.nmOp c) s fun t => t.mem = d.mem ∧ t.sess = d.sess ∧ Answers c (fabCode st) 0 0 d t)
      ∧ (st = 0 → Gives (.nmOp c) s fun t => kept t ∧ Counts Reg.NME_OPS 1 d t)
      ∧ (st = 0 → code = 3 → Gives (.nmOp c) s fun t => Answers c 0 (unle (readExport d off 8)) 0 d t
        ∧ readExport t off 8 = if readExport d off 8 = q.payload.take 8 then q.payload.drop 8 else readExport d off 8)

/-- R393, R394, R397, R399, R423, R426. -/
def Obligations.FabricCommands : Prop :=
  ∀ (c : HostCmd) (s : State), c.slot < 16 →
    let d := s.dev
    let nothing := fun (st : Nat) (t : Dev) => Leaves [Reg.HOST_CMDS_ACCEPTED c.slot] d t ∧ Answers c st 0 0 d t
    (Passes 0x50 c d → c.lenA = 16576 →
      let b := padTo 16576 c.dataA
      (routeBad d b = false → (routed d = true → d.get Reg.FAB_ROUTE_GEN < (routeTableOf b).gen) → Gives (.routeLoad c) s fun t =>
        t.fab.nextTable = some (routeTableOf b, (d.get Reg.TICK_NOW + 1) % 2 ^ 64) ∧ Answers c 0 (routeTableOf b).gen 0 d t
        ∧ Leaves [Reg.HOST_CMDS_ACCEPTED c.slot] { d with fab := { d.fab with nextTable := t.fab.nextTable } } t)
      ∧ (routeBad d b = true → Gives (.routeLoad c) s (nothing 0x0401))
      ∧ (routeBad d b = false → routed d = true → (routeTableOf b).gen ≤ d.get Reg.FAB_ROUTE_GEN → Gives (.routeLoad c) s (nothing 0x0402)))
    ∧ (Passes 0x50 c d → c.lenA ≠ 16576 → Gives (.routeLoad c) s (nothing 0x0002))
    ∧ (Passes 0x51 c d →
      let old := d.get Reg.FAB_EXPORT_GIB
      let new_ := argAt c 48 2
      let more := (new_ - old) * 2 ^ 30
      let above := ∃ x ∈ d.fab.extents, x.flash = false ∧ new_ * 2 ^ 30 < x.base + x.len
      (256 < new_ → Gives (.exportSet c) s (nothing 0x0002))
      ∧ (new_ ≤ 256 → poolRoom (taken c d) 8 more = false → Gives (.exportSet c) s (nothing 0x0407))
      ∧ (new_ ≤ 256 → poolRoom (taken c d) 8 more = true → above → Gives (.exportSet c) s (nothing 0x0408))
      ∧ (new_ ≤ 256 → poolRoom (taken c d) 8 more = true → ¬ above → d.get Reg.STW_T1_FREE + old * 2 ^ 30 < 2 ^ 64 →
        Gives (.exportSet c) s fun t =>
          t.get Reg.FAB_EXPORT_GIB = new_ ∧ t.get Reg.STW_T1_FREE + new_ * 2 ^ 30 = d.get Reg.STW_T1_FREE + old * 2 ^ 30
          ∧ Leaves [Reg.HOST_CMDS_ACCEPTED c.slot, Reg.FAB_EXPORT_GIB, Reg.STW_T1_FREE] d t ∧ Answers c 0 0 0 d t))
    ∧ (Passes 0x52 c d → routed d = true →
      let dst := argAt c 48 2 % 1024
      let data := padTo c.lenA c.dataA
      let scr := bitAt (argAt c 50 1) 0
      (dst = d.self → c.lenA = 0 → Gives (.extentPut c) s (nothing 0x0409))
      ∧ (dst = d.self → c.lenA ≠ 0 → exportRoom d c.lenA = false → Gives (.extentPut c) s (nothing 0x0407))
      ∧ (dst = d.self → c.lenA ≠ 0 → exportRoom d c.lenA = true → bitAt (argAt c 50 1) 1 = false → Gives (.extentPut c) s fun t =>
        ∃ off, Answers c 0 (globalAddr 0 d.self off) 0 d t ∧ readExport t off c.lenA = data
          ∧ (∃ x, extentOf t false off = some x ∧ x.sealed = true ∧ x.shared = true ∧ x.scratch = scr ∧ x.allocator = d.self
            ∧ x.len = roundUp 4096 c.lenA ∧ x.keySlot = d.get (Reg.SLOT_KEY c.slot) ∧ ∀ y ∈ d.fab.extents, y.flash = false →
              y.base + y.len ≤ off ∨ off + x.len ≤ y.base)
          ∧ (∀ a, (a < off ∨ off + c.lenA ≤ a) → readExport t a 1 = readExport d a 1) ∧ t.mem.range = d.mem.range ∧ t.sess = d.sess)
      ∧ (dst ≠ d.self → modulePresent d dst = false → Gives (.extentPut c) s (nothing 0x0403))
      ∧ (dst ≠ d.self → modulePresent d dst = true → peerState d dst = .lost → Gives (.extentPut c) s (nothing 0x0404))
      ∧ (dst ≠ d.self → modulePresent d dst = true → peerState d dst ≠ .lost → c.lenA ≠ 0 → Gives (.extentPut c) s fun t =>
        (∃ p ∈ t.fab.placing, p.what = .put (cmdOf d c) ∧ p.cur = some (dst, none) ∧ p.data = data ∧ p.shared = true)
        ∧ Asks (fun o => o.use = .place d.fab.nextPlace ∧ o.txn.op = 2 ∧ o.txn.dst = dst ∧ o.txn.arg = c.lenA) t
        ∧ t.mem = d.mem ∧ t.sess = d.sess))
    ∧ (Passes 0x53 c d → routed d = true →
      let a := c.addrA
      (addrModule a = d.self → ∀ fl off x, shareAddr d a = some (fl, off) → extentOf d fl off = some x →
        (x.shared = true → x.keySlot = d.get (Reg.SLOT_KEY c.slot) → Gives (.extentFree c) s fun t => extentOf t fl off = none
          ∧ (∀ f o, (f, o) ≠ (fl, off) → extentOf t f o = extentOf d f o) ∧ t.mem.range = d.mem.range ∧ t.sess = d.sess
          ∧ Answers c 0 0 0 d t)
        ∧ (x.shared = false ∨ x.keySlot ≠ d.get (Reg.SLOT_KEY c.slot) → Gives (.extentFree c) s fun t =>
          t.fab = d.fab ∧ t.mem = d.mem ∧ t.sess = d.sess ∧ Answers c 0x0406 0 0 d t))
      ∧ (addrModule a = d.self → (∀ fl off, shareAddr d a = some (fl, off) → extentOf d fl off = none) →
        Gives (.extentFree c) s (nothing 0x0405))
      ∧ (addrModule a ≠ d.self → modulePresent d (addrModule a) = true → peerState d (addrModule a) ≠ .lost → Gives (.extentFree c) s fun t =>
        Asks (fun o => o.use = .free (some (cmdOf d c)) ∧ o.txn.op = 5 ∧ o.txn.addr = a ∧ o.txn.dst = addrModule a) t
        ∧ t.fab.extents = d.fab.extents ∧ t.mem = d.mem ∧ t.sess = d.sess))
    ∧ (Passes 0x55 c d → routed d = true →
      let k := argAt c 48 2 % 1024
      (k = d.self → Gives (.peerDeclareLost c) s (nothing 0x0002))
      ∧ (k ≠ d.self → modulePresent d k = false → Gives (.peerDeclareLost c) s (nothing 0x0403))
      ∧ (k ≠ d.self → modulePresent d k = true → peerState d k = .lost → Gives (.peerDeclareLost c) s (nothing 0x0404))
      ∧ (k ≠ d.self → modulePresent d k = true → peerState d k ≠ .lost → Gives (.peerDeclareLost c) s fun t =>
        peerState t k = .lost ∧ (∀ x ∈ t.fab.extents, x.allocator = k → x.shared = true)))
    ∧ (routed d = false → (Passes 0x52 c d → Gives (.extentPut c) s (nothing 0x0400))
      ∧ (Passes 0x53 c d → Gives (.extentFree c) s (nothing 0x0400))
      ∧ (Passes 0x55 c d → argAt c 48 2 % 1024 ≠ d.self → Gives (.peerDeclareLost c) s (nothing 0x0400)))

/-- R416, R418. The payload of PUSH_OPEN is the model's (log entry 17). -/
def Obligations.PushReceiver : Prop :=
  ∀ (s : State) (q : FabTxn), q.dst = s.dev.self → tooLong q = false → peerState s.dev q.src ≠ .lost → q.resv = false →
    let d := s.dev
    let k := pushOpenKey q
    let n := fieldAt q.payload 14 8
    let known := d.fab.pushIn.any fun p => p.src == q.src && p.key == k
    let free := fun b => b < 64 ∧ ∀ x ∈ d.fab.push, x.buf ≠ b
    (q.op = 6 → q.payload.length = 22 → q.addr = globalAddr 1 d.self 0 → d.self < 1024 → d.fab.pushTaken = true →
      (∀ b, d.fab.pushWait = [] → free b → (∀ a, a < b → ¬ free a) → (known = true ∨ poolRoom d 8 n = true) →
        Gives (.pushOpenRx q) s fun t => t.fab.push = d.fab.push ++ [⟨b, q.src, k⟩] ∧ Answered q 0 b [] d t
          ∧ (known = false → t.fab.pushIn = d.fab.pushIn ++ [⟨q.src, k, q.keySlot, fieldAt q.payload 10 4, [], [], [], n⟩])
          ∧ (known = true → t.fab.pushIn = d.fab.pushIn ∧ t.get Reg.STW_T1_FREE = d.get Reg.STW_T1_FREE)
          ∧ t.mem = d.mem ∧ t.sess = d.sess)
      ∧ (d.fab.pushWait = [] → known = false → (∃ b, free b) → poolRoom d 8 n = false → Gives (.pushOpenRx q) s fun t =>
        t.fab.push = d.fab.push ∧ Answered q 3 0 [] d t ∧ t.mem = d.mem ∧ t.sess = d.sess)
      ∧ (d.fab.pushWait ≠ [] ∨ (∀ b, ¬ free b) → Gives (.pushOpenRx q) s fun t =>
        Becomes [Reg.FAB_PUSH_WAIT] { d with fab := { d.fab with pushWait := d.fab.pushWait ++ [q] } } t ∧ Counts Reg.FAB_PUSH_WAIT 1 d t))
    ∧ (q.op = 7 ∨ q.op = 8 → pushHeld q d = none → Gives (if q.op = 7 then .pushDataRx q else .pushCloseRx q) s fun t =>
      t.fab.push = d.fab.push ∧ Answered q 1 0 [] d t ∧ t.mem = d.mem ∧ t.sess = d.sess)
    ∧ (∀ b, q.op = 7 → pushHeld q d = some b → q.payload.length ≤ 65536 →
      let off := addrOffset q.addr % pushBytes
      (off + q.payload.length ≤ pushBytes → Gives (.pushDataRx q) s fun t =>
        readExport t (pushKey b.buf + off) q.payload.length = q.payload
        ∧ (∀ a, (a < pushKey b.buf + off ∨ pushKey b.buf + off + q.payload.length ≤ a) → readExport t a 1 = readExport d a 1)
        ∧ t.fab.push = d.fab.push ∧ Answered q 0 0 [] d t ∧ t.mem.range = d.mem.range ∧ t.sess = d.sess)
      ∧ (pushBytes < off + q.payload.length → Gives (.pushDataRx q) s fun t =>
        t.fab.push = d.fab.push ∧ Answered q 1 0 [] d t ∧ t.mem = d.mem ∧ t.sess = d.sess))
    ∧ (∀ b, q.op = 8 → pushHeld q d = some b → Gives (.pushCloseRx q) s fun t =>
      (d.fab.pushWait = [] → t.fab.push = d.fab.push.filter fun x => x.buf != b.buf) ∧ Answered q 0 0 [] d t
      ∧ (∀ i, i < pushBytes → readExport t (pushKey b.buf + i) 1 = [0])
      ∧ (∀ a, (a < pushKey b.buf ∨ pushKey b.buf + pushBytes ≤ a) → readExport t a 1 = readExport d a 1)
      ∧ t.mem.range = d.mem.range ∧ t.sess = d.sess)

/-- R400, R404, R405, R415, R421, R423, R425. That each message of a LOST module counts is the model's reading. -/
def Obligations.FabricTraffic : Prop :=
  ∀ (s : State),
    let d := s.dev
    let same := fun t : Dev => t.mem = d.mem ∧ t.sess = d.sess ∧ t.tier = d.tier ∧ t.fab.extents = d.fab.extents
    (∀ (p : Nat) (f : Frame), (16 ≤ p ∨ portUp d p = false) → Gives (.frameRx p f) s fun t => same t ∧ t.link = d.link ∧ t.host = { d.host with rings := t.host.rings, msix := t.host.msix })
    ∧ (∀ (p : Nat) (f : Frame), p < 16 → portUp d p = true → f.tagOk = true → keyAccepted d p f.keySlot = true →
      (policerPass p f.txn (takeAssembled p f.txn.tc d)).1 = true → f.txn.dst ≠ d.self →
      tooLong f.txn = false →
      (f.txn.hops = 0 → Gives (.frameRx p f) s fun t => same t ∧ Counts Reg.FAB_RX_MALFORMED 1 d t)
      ∧ (∀ o, f.txn.hops ≠ 0 → exitPort d f.txn.dst f.txn.tc = some o → o < d.link.ports.length → f.txn.tc < (portOf d o).egress.length →
        Gives (.frameRx p f) s fun t => same t ∧ ∃ g ∈ (portOf t o).held ++ (egressOf (portOf t o) f.txn.tc).frames,
          g = { f.txn with hops := f.txn.hops - 1 }))
    ∧ (∀ (p : Nat) (f : Frame), p < 16 → portUp d p = true → f.tagOk = true → keyAccepted d p f.keySlot = true → tooLong f.txn = true →
      Gives (.frameRx p f) s fun t => same t ∧ Counts Reg.FAB_RX_MALFORMED 1 d t)
    ∧ (∀ (p : Nat) (f : Frame), p < 16 → portUp d p = true → (f.tagOk = false ∨ keyAccepted d p f.keySlot = false) →
      Gives (.frameRx p f) s fun t => same t ∧ Counts (Reg.FAB_GCM_FAIL p) 1 d t)
    ∧ (∀ (q : FabTxn), (q.dst ≠ d.self ∨ (peerState d q.src ≠ .lost ∧ ∀ o ∈ d.fab.txns, o.txn.tag = q.tag → o.txn.dst = q.src →
        o.txn.op + 0x80 ≠ q.op)) → Gives (.fabCompletionRx q) s (Becomes [] d))
    ∧ (∀ (q : FabTxn), q.dst = d.self → peerState d q.src = .lost → Gives (.fabCompletionRx q) s fun t =>
        Becomes [Reg.FAB_RX_FENCED] d t ∧ Counts Reg.FAB_RX_FENCED 1 d t)
    ∧ (∀ (q : FabTxn) (o : TxnOut), q.dst = d.self → peerState d q.src = .suspect → portSet d q.src ≠ [] →
      (d.fab.txns.find? fun o => o.txn.tag == q.tag && o.txn.dst == q.src && o.txn.op + 0x80 == q.op) = some o → o.use = .probe →
      Gives (.fabCompletionRx q) s fun t => peerState t q.src = .present ∧ t.mem = d.mem ∧ t.sess = d.sess)
    ∧ (∀ tag, (∀ o ∈ d.fab.txns, o.txn.tag = tag → o.late = true) → Gives (.fabTxnTimeout tag) s (Becomes [] d))
    ∧ (∀ tag o, (d.fab.txns.find? fun o => o.txn.tag == tag && !o.late) = some o →
      (d.clock < o.at_ + clampNat 100 10000 (d.get Reg.FAB_TXN_TIMEOUT_US) * 1000 → Gives (.fabTxnTimeout tag) s (Becomes [] d))
      ∧ (o.at_ + clampNat 100 10000 (d.get Reg.FAB_TXN_TIMEOUT_US) * 1000 ≤ d.clock → Gives (.fabTxnTimeout tag) s fun t =>
        Counts Reg.FAB_TXN_TIMEOUTS 1 d t ∧ (peerState d o.txn.dst = .present → peerState t o.txn.dst = .suspect)
        ∧ (peerState d o.txn.dst ≠ .present → peerState t o.txn.dst = peerState d o.txn.dst)))
    ∧ (d.clock < d.fab.lastProbe + clampNat 100 10000 (d.get Reg.FAB_TXN_TIMEOUT_US) * 500 → Gives .probeTimer s (Becomes [] d))
    ∧ (d.fab.lastProbe + clampNat 100 10000 (d.get Reg.FAB_TXN_TIMEOUT_US) * 500 ≤ d.clock → Gives .probeTimer s fun t =>
        t.fab.lastProbe = d.clock ∧ same t ∧ t.fab.peers = d.fab.peers
        ∧ ∀ m e, peerState d m = .suspect → routeEnt d m = some e → portSet d m ≠ [] → Asks (fun o => o.use = .probe ∧ o.txn.op = 13
            ∧ o.txn.dst = m % 1024) t)
    ∧ (∀ m, (∀ p, (d.fab.peers.find? fun p => p.module_ == m) = some p → p.state ≠ .suspect
          ∨ d.clock < p.since + clampNat 500 60000 (d.get Reg.FAB_PEER_TIMEOUT_US) * 1000) → Gives (.peerTimeout m) s (Becomes [] d))
    ∧ (∀ m p, m ≠ d.self → (d.fab.peers.find? fun p => p.module_ == m) = some p → p.state = .suspect →
      p.since + clampNat 500 60000 (d.get Reg.FAB_PEER_TIMEOUT_US) * 1000 ≤ d.clock → Gives (.peerTimeout m) s fun t =>
        peerState t m = .lost ∧ Counts Reg.FAB_PEERS_LOST 1 d t ∧ (∀ x ∈ t.fab.extents, x.allocator = m → x.shared = true))
    ∧ (∀ (src a b e : Nat) (k : SessKey) (on : Bool) (kind : LoadKind) (l : List Nat) (x : Bytes) (f : Forwarded) (m : CaptureMsg) (r : RestoreMsg),
      peerState d src = .lost → f.src = src → ∀ i ∈ [Instr.tickBeaconRx src a b e, .stepAnnounceRx src k a b, .commitVoteRx src k a,
        .forwardedCommandRx f, .forwardedCompletionRx src a b e 0 x, .regionPinRx src a b on, .tokenIdsRx src k l,
        .loadedDataRx src kind a b x, .loadedDataConfirmRx src kind a b, .captureAnnounceRx src m, .shardVoteRx src a b, .restoreRx src r],
      Gives i s fun t => Becomes [Reg.FAB_RX_FENCED] d t ∧ Counts Reg.FAB_RX_FENCED 1 d t)
    ∧ (∀ (o : ObjRef), (objBelow d o = false ∨ repairing d o = true ∨ ∃ q ∈ allObjs d, objBelow d q = true ∧ repairing d q = false ∧ repairBefore q o = true) →
      Gives (.repairCopy o) s (Becomes [] d))
    ∧ (∀ (o : ObjRef) v a, objBelow d o = true → repairing d o = false → (∀ q ∈ allObjs d, objBelow d q = true → repairing d q = false →
        repairBefore q o = false) → objView d o = some v → v.tier = 2 → readCopy d o (remoteCopies d v) = some a → v.bytes ≠ 0 →
      Gives (.repairCopy o) s fun t => same t ∧ Asks (fun x => x.use = .repairRead o ∧ x.txn.op = 1 ∧ x.txn.tc = 7 ∧ x.txn.addr = a) t)

/-- R432, R433, R438, R439, R441, R446. -/
def Obligations.Flits : Prop :=
  ∀ (s : State) (p : Nat) (f : Flit), p < 16 → s.dev.link.ports.length = 16 → f.tc < 8 →
    let d := s.dev
    let x := portOf d p
    let rows := [Instr.dataFlitRx p f, .idleFlitRx p f, .creditFlitRx p f, .nakFlitRx p f, .saltFlitRx p f]
    let others := fun t : Dev => (∀ r, r ≠ p → portOf t r = portOf d r) ∧ t.mem = d.mem ∧ t.sess = d.sess ∧ t.tier = d.tier
    let quiet := x.sendTc0 = [] ∧ x.sendBulk = []
    let acked := match x.replay.findIdx? fun g => g.seq == f.ack with
      | some i => x.replay.drop (i + 1)
      | none => x.replay
    (∀ i ∈ rows, Gives i s others)
    ∧ (portUp d p = false → ∀ i ∈ rows, Gives i s fun t => t.link = d.link)
    ∧ (portUp d p = true → (f.fecOk = false ∨ f.crcOk = false) → ∀ i ∈ rows, Gives i s fun t =>
        t.link = d.link ∧ Sent (.flit p 3 x.rxNext) d t ∧ Counts (Reg.FAB_RX_FLITS p) 1 d t
        ∧ (f.fecOk = false → Counts (Reg.FAB_FEC_UNCORR p) 1 d t))
    ∧ (portUp d p = true → f.fecOk = true → f.crcOk = true →
      (f.seq = x.rxNext → Gives (.dataFlitRx p f) s fun t => (portOf t p).rxNext = (x.rxNext + 1) % 4096
        ∧ (x.owed.length = 8 → ((portOf t p).owed[f.tc]?).getD 0 = (x.owed[f.tc]?).getD 0 + 1)
        ∧ (f.last = true → f.first = true → (portOf t p).assembled = x.assembled ++ [⟨f.tc, [f.seq]⟩])
        ∧ (f.last = false → (portOf t p).assembled = x.assembled ∧ ∃ a, assocGet (portOf t p).assembly f.tc = some a
            ∧ (f.seq, f.bytes) ∈ a.parts))
      ∧ (f.seq < 4096 → x.rxNext < 4096 → f.seq ≠ x.rxNext → (f.seq + 4096 - x.rxNext) % 4096 < 2048 → Gives (.dataFlitRx p f) s fun t =>
        (portOf t p).rxNext = x.rxNext ∧ (portOf t p).assembled = x.assembled ∧ (portOf t p).assembly = x.assembly
        ∧ Sent (.flit p 3 x.rxNext) d t)
      ∧ (quiet → Gives (.idleFlitRx p f) s fun t => (portOf t p).replay = acked ∧ (portOf t p).rxNext = x.rxNext
          ∧ (portOf t p).assembled = x.assembled)
      ∧ (quiet → ∀ c, c < 8 → x.credits.length = 8 → Gives (.creditFlitRx p f) s fun t =>
          ((portOf t p).credits[c]?).getD 0 = min (if c = 0 then 256 else 1024) ((x.credits[c]?).getD 0 + fieldAt f.bytes (2 * c) 2))
      ∧ Gives (.saltFlitRx p f) s (fun t => (portOf t p).rxSalt = fieldAt f.bytes 0 8 ∧ (portOf t p).rxCount = 0)
      ∧ (let n := fieldAt f.bytes 0 2 % 4096
         let run := if x.nakRun ≠ 0 ∧ x.nakSeq = n then x.nakRun + 1 else 1
         (run < 8 → quiet → Gives (.nakFlitRx p f) s fun t =>
            (∀ g ∈ acked.dropWhile (fun g => g.seq != n), Sent (.flit p 0 g.seq) d t) ∧ (portOf t p).replay = acked
            ∧ (portOf t p).nakRun = run ∧ (portOf t p).nakSeq = n ∧ t.get (Reg.PORT_STATE p) = d.get (Reg.PORT_STATE p))
         ∧ (8 ≤ run → Gives (.nakFlitRx p f) s fun t => t.get (Reg.PORT_STATE p) = 4 ∧ t.get (Reg.DOWN_REASON p) = 5
            ∧ t.get (Reg.LANE_ACTIVE p) = 0 ∧ (portOf t p).replay = [] ∧ (portOf t p).inject = []
            ∧ ∀ c, (egressOf (portOf t p) c).frames = [])))

/-- R436, R437, R446, R463. -/
def Obligations.PortStates : Prop :=
  ∀ (s : State) (p : Nat), p < 16 → s.dev.link.ports.length = 16 →
    let d := s.dev
    let x := portOf d p
    let state := d.get (Reg.PORT_STATE p)
    let rest := fun t : Dev => (∀ r, r ≠ p → r < 16 → portOf t r = portOf d r ∧ t.get (Reg.PORT_STATE r) = d.get (Reg.PORT_STATE r))
      ∧ t.mem = d.mem ∧ t.sess = d.sess ∧ t.tier = d.tier
    let empty := fun t : Dev => (portOf t p).replay = [] ∧ (portOf t p).inject = [] ∧ (portOf t p).held = []
      ∧ ∀ c, (egressOf (portOf t p) c).frames = []
    let at_ := fun (n reason : Nat) (t : Dev) => t.get (Reg.PORT_STATE p) = n ∧ t.get (Reg.DOWN_REASON p) = reason ∧ rest t
    let stays := fun t : Dev => t.link = d.link ∧ t.get (Reg.PORT_STATE p) = state ∧ t.get (Reg.DOWN_REASON p) = d.get (Reg.DOWN_REASON p) ∧ rest t
    let trains := fun t : Dev => at_ 1 0 t ∧ empty t ∧ t.get (Reg.PEER_VALID p) = 0 ∧ (portOf t p).txCount = 0
    (∀ via word, (mayWrite d via 0x42 = false → Gives (.portEnWrite via p word) s (Becomes [] d) ∧ Gives (.portRetrain via p) s (Becomes [] d))
      ∧ (mayWrite d via 0x42 = true →
        (Gives (.portEnWrite via p word) s fun t => t.get (Reg.PORT_EN p) = word % 2 ∧ t.get (Reg.KEY_SLOT p) = word / 256 % 16
          ∧ t.get (Reg.KEY_NEXT p) = word / 4096 % 16)
        ∧ (word % 2 = 0 → d.get (Reg.PORT_EN p) ≠ 0 → Gives (.portEnWrite via p word) s fun t => at_ 0 0 t ∧ empty t)
        ∧ (word % 2 = 0 → d.get (Reg.PORT_EN p) = 0 → Gives (.portEnWrite via p word) s stays)
        ∧ (word % 2 = 1 → (d.get (Reg.PORT_EN p) = 0 ∨ word / 2 % 2 = 1) → Gives (.portEnWrite via p word) s trains)
        ∧ (word % 2 = 1 → d.get (Reg.PORT_EN p) ≠ 0 → word / 2 % 2 = 0 → Gives (.portEnWrite via p word) s stays)
        ∧ (d.get (Reg.PORT_EN p) = 1 → Gives (.portRetrain via p) s trains)
        ∧ (d.get (Reg.PORT_EN p) ≠ 1 → Gives (.portRetrain via p) s stays)))
    ∧ (∀ step lanes,
      (state ≠ 1 ∨ d.clock < x.trainAt + (if step = 2 then 30000000 else 1000000) → Gives (.trainingStepTimeout p step lanes) s stays)
      ∧ (state = 1 → x.trainAt + (if step = 2 then 30000000 else 1000000) ≤ d.clock →
        (step = 1 → lanes < 4 → Gives (.trainingStepTimeout p step lanes) s (at_ 4 1))
        ∧ ((step = 2 ∨ step = 4) → Gives (.trainingStepTimeout p step lanes) s (at_ 4 2))
        ∧ (step = 3 → lanes < 4 → Gives (.trainingStepTimeout p step lanes) s (at_ 4 4))
        ∧ (step = 5 → Gives (.trainingStepTimeout p step lanes) s fun t => t.get (Reg.PORT_STATE p) = 4)
        ∧ ((step = 1 ∨ step = 3) → 4 ≤ lanes → Gives (.trainingStepTimeout p step lanes) s stays)))
    ∧ (∀ working, let n := ((List.range 9).filter fun i => bitAt working i).length
      (state ≠ 1 → Gives (.trainingComplete p working) s stays)
      ∧ (state = 1 → n < 4 → Gives (.trainingComplete p working) s (at_ 4 4))
      ∧ (state = 1 → 4 ≤ n → Gives (.trainingComplete p working) s fun t => rest t
        ∧ t.get (Reg.PORT_STATE p) = (if 8 ≤ n then 2 else 3) ∧ t.get (Reg.LANE_FAILED p) = 0
        ∧ (portOf t p).txCount = 0 ∧ (portOf t p).rxNext = 0 ∧ (portOf t p).credits = 256 :: List.replicate 7 1024
        ∧ ((List.range 9).filter fun i => bitAt (t.get (Reg.LANE_ACTIVE p)) i)
            = ((List.range 9).filter fun i => bitAt working i).take (if 8 ≤ n then 8 else 4)))
    ∧ (∀ f (i : TrainInfo), state = 1 →
      (i.disabled = true → Gives (.trainFlitRx p f i) s (at_ 4 6))
      ∧ (i.disabled = false → (i.keySlot ≠ d.get (Reg.KEY_SLOT p) ∧ i.keySlot ≠ d.get (Reg.KEY_NEXT p)) → Gives (.trainFlitRx p f i) s (at_ 4 3))
      ∧ (i.disabled = false → (i.keySlot = d.get (Reg.KEY_SLOT p) ∨ i.keySlot = d.get (Reg.KEY_NEXT p)) → keyUnusable d p = false →
        i.peerModule < 1024 → i.peerPort < 16 → Gives (.trainFlitRx p f i) s fun t => rest t ∧ t.get (Reg.PORT_STATE p) = 1
          ∧ t.get (Reg.PEER_MODULE p) = i.peerModule ∧ t.get (Reg.PEER_PORT p) = i.peerPort ∧ t.get (Reg.PEER_VALID p) = 1
          ∧ (portOf t p).rxSalt = i.salt))
    ∧ (∀ f i, state ≠ 1 → portUp d p = false → Gives (.trainFlitRx p f i) s stays)
    ∧ (state ≠ 4 ∨ d.clock < x.downAt + 100000000 → Gives (.portDownRetry p) s stays)
    ∧ (state = 4 → x.downAt + 100000000 ≤ d.clock → Gives (.portDownRetry p) s trains)
    ∧ (portUp d p = true → 2 ^ 31 ≤ x.txCount → Gives (.saltRoll p) s fun t => (portOf t p).txCount = 0 ∧ Sent (.flit p 4 0) d t
        ∧ Counts (Reg.FAB_SALT_ROLLS p) 1 d t ∧ rest t)
    ∧ (portUp d p = false ∨ x.txCount < 2 ^ 31 → Gives (.saltRoll p) s stays)

/-- R434, R450-R453, R459. -/
def Obligations.Egress : Prop :=
  ∀ (s : State) (p : Nat), p < 16 → s.dev.link.ports.length = 16 →
    let d := s.dev
    let x := portOf d p
    let up := portUp d p = true ∧ x.inject = [] ∧ x.held = [] ∧ x.egress.length = 8 ∧ x.shaper.length = 7
    let free := x.freeAt ≤ d.clock * 10000
    let eligible := fun (c : Nat) (q : FabTxn) => bitAt (openSet d p d.clock) c = true ∧ (egressOf x c).isOpen = true
      ∧ shaperHolds d p q = true ∧ frameFits d p q = true ∧ q.tc = c
    let sole := fun (c : Nat) => ∀ k, k < 8 → k ≠ c → (egressOf x k).frames = []
    let silent := fun t : Dev => (∀ q, Out.txn q ∉ t.out.drop d.out.length) ∧ t.mem = d.mem ∧ t.sess = d.sess
    let starts := fun (c : Nat) (q : FabTxn) (t : Dev) => Sent (.txn q) d t ∧ (egressOf (portOf t p) c).frames = (egressOf x c).frames.drop 1
      ∧ (x.txCount < 2 ^ 31 → (portOf t p).txCount = x.txCount + 1) ∧ t.mem = d.mem ∧ t.sess = d.sess
    (portUp d p = false → Gives (.frameTxSelect p) s fun t => t.link = d.link ∧ silent t)
    ∧ (∀ q r, up → free → (egressOf x 0).frames = q :: r → Gives (.frameTxSelect p) s (starts 0 q))
    ∧ (∀ c q r, up → free → 1 ≤ c → c < 8 → (egressOf x c).frames = q :: r → sole c →
      (eligible c q → Gives (.frameTxSelect p) s fun t => starts c q t ∧ (d.get (Reg.SHAPE_RATE p c) ≠ 0 →
        ((portOf t p).shaper[c - 1]?).getD 0 = (x.shaper[c - 1]?).getD 0 - (48 + q.len)))
      ∧ (q.tc = c → (bitAt (openSet d p d.clock) c = false ∨ shaperHolds d p q = false ∨ frameFits d p q = false) →
        Gives (.frameTxSelect p) s fun t => silent t ∧ (egressOf (portOf t p) c).frames = q :: r ∧ (portOf t p).txCount = x.txCount))
    ∧ (∀ a b q r, up → free → 1 ≤ a → a < 8 → 1 ≤ b → b < 8 → a ≠ b → (egressOf x a).frames.head? = some q →
      (egressOf x b).frames.head? = some r → (∀ k, k < 8 → k ≠ a → k ≠ b → (egressOf x k).frames = []) → eligible a q → eligible b r →
      ((egressOf x a).tag < (egressOf x b).tag ∨ ((egressOf x a).tag = (egressOf x b).tag ∧ a < b)) →
      Gives (.frameTxSelect p) s (starts a q))
    ∧ (up → d.clock * 10000 < x.freeAt → (egressOf x 0).frames = [] → Gives (.frameTxSelect p) s silent)
    ∧ (let ns := clampNat 100 100000 (d.get Reg.TSCHED_REFILL_NS)
       let cap := fun kib => max 72 kib * 1024
       (d.clock < d.link.refillAt + ns → Gives .tokenBucketRefill s (Becomes [] d))
       ∧ (d.link.refillAt + ns ≤ d.clock → x.shaper.length = 7 → x.policer.length = 7 → Gives .tokenBucketRefill s fun t =>
        t.link.refillAt = d.clock ∧ t.mem = d.mem ∧ t.sess = d.sess ∧ ∀ c, 1 ≤ c → c < 8 →
          ((portOf t p).shaper[c - 1]?).getD 0 = min (cap (d.get (Reg.SHAPE_BURST p c)))
            ((x.shaper[c - 1]?).getD 0 + d.get (Reg.SHAPE_RATE p c) * ns / 10)
          ∧ ((portOf t p).policer[c - 1]?).getD 0 = min (cap (d.get (Reg.POLICE_BURST p c)))
            ((x.policer[c - 1]?).getD 0 + d.get (Reg.POLICE_RATE p c) * ns / 10)))

/-- R442-R444, R448, R456, R457, R460, R461. -/
def Obligations.LanesKeysGates : Prop :=
  ∀ (s : State) (p : Nat), p < 16 → s.dev.link.ports.length = 16 →
    let d := s.dev
    let x := portOf d p
    let a := d.get (Reg.LANE_ACTIVE p)
    let spare := (List.range 9).find? fun i => bitAt x.working i && !bitAt a i
    let same := fun t : Dev => t.mem = d.mem ∧ t.sess = d.sess ∧ t.tier = d.tier
    (∀ lane, lane < 9 → portUp d p = true → bitAt (d.get (Reg.LANE_FAILED p)) lane = false → x.calLane = none →
      (∀ k, bitAt a lane = true → spare = some k → k ≠ lane → Gives (.laneLossOfSignal p lane) s fun t => same t
        ∧ bitAt (t.get (Reg.LANE_FAILED p)) lane = true ∧ bitAt (t.get (Reg.LANE_ACTIVE p)) lane = false
        ∧ bitAt (t.get (Reg.LANE_ACTIVE p)) k = true ∧ Counts (Reg.FAB_LANE_SWAPS p) 1 d t
        ∧ t.get (Reg.PORT_STATE p) = d.get (Reg.PORT_STATE p))
      ∧ (bitAt a lane = true → spare = none → Gives (.laneLossOfSignal p lane) s fun t => same t ∧ t.get (Reg.PORT_STATE p) = 4
        ∧ bitAt (t.get (Reg.LANE_FAILED p)) lane = true)
      ∧ (bitAt a lane = false → Gives (.laneLossOfSignal p lane) s fun t => same t ∧ t.get (Reg.LANE_ACTIVE p) = a
        ∧ bitAt (t.get (Reg.LANE_FAILED p)) lane = true))
    ∧ (∀ lane n, n ≤ d.get (Reg.LANE_SER_LIMIT p) → Gives (.laneSerLimit p lane n) s fun t => same t ∧ t.link = d.link
        ∧ t.get (Reg.LANE_FAILED p) = d.get (Reg.LANE_FAILED p))
    ∧ (∀ lane n, d.get (Reg.LANE_SER_LIMIT p) < n → lane < 9 → portUp d p = true → Gives (.laneSerLimit p lane n) s fun t => same t
        ∧ bitAt (t.get (Reg.LANE_FAILED p)) lane = true)
    ∧ (∀ lane, lane < 9 → portUp d p = true →
      ((d.get (Reg.PORT_STATE p) = 3 ∨ x.calLane ≠ none ∨ spare = none) → Gives (.laneCalibration p lane) s fun t => same t
        ∧ Counts (Reg.FAB_CAL_SKIPPED p) 1 d t ∧ t.link = d.link ∧ t.get (Reg.LANE_ACTIVE p) = a)
      ∧ (∀ k, d.get (Reg.PORT_STATE p) = 2 → x.calLane = none → spare = some k → k ≠ lane → bitAt a lane = true →
        Gives (.laneCalibration p lane) s fun t => same t ∧ (portOf t p).calLane = some (lane, k)
          ∧ bitAt (t.get (Reg.LANE_ACTIVE p)) lane = false ∧ bitAt (t.get (Reg.LANE_ACTIVE p)) k = true))
    ∧ (∀ lane k, x.calLane = some (lane, k) → k ≠ lane → lane < 9 → k < 9 → Gives (.laneCalibrationDone p lane) s fun t => same t
        ∧ (portOf t p).calLane = none ∧ bitAt (t.get (Reg.LANE_ACTIVE p)) lane = true ∧ bitAt (t.get (Reg.LANE_ACTIVE p)) k = false)
    ∧ (∀ lane, (∀ k, x.calLane ≠ some (lane, k)) → Gives (.laneCalibrationDone p lane) s fun t => same t ∧ t.link = d.link)
    ∧ (let at_ := d.get (Reg.KEY_SWITCH_AT p)
       (at_ ≠ 0 → at_ ≤ d.now → passedBy d at_ = false → Gives (.keySwitch p) s fun t => same t ∧ t.get (Reg.KEY_SWITCH_AT p) = 0
          ∧ t.get (Reg.KEY_SLOT p) = d.get (Reg.KEY_NEXT p) % 16 ∧ (portOf t p).prevKey = some (d.get (Reg.KEY_SLOT p), d.clock)
          ∧ keyAccepted t p (d.get (Reg.KEY_SLOT p)) = true)
       ∧ (at_ = 0 ∨ d.now < at_ → Gives (.keySwitch p) s fun t => same t ∧ t.link = d.link ∧ t.get (Reg.KEY_SLOT p) = d.get (Reg.KEY_SLOT p)))
    ∧ (∀ k u, x.prevKey = some (k, u) →
      (u + 100000 ≤ d.clock → Gives (.keyPrevExpire p) s fun t => same t ∧ (portOf t p).prevKey = none
        ∧ (k ≠ d.get (Reg.KEY_SLOT p) → d.get (Reg.KEY_SWITCH_AT p) = 0 → keyAccepted t p k = false))
      ∧ (d.clock < u + 100000 → Gives (.keyPrevExpire p) s fun t => same t ∧ t.link = d.link))
    ∧ (∀ n v, n < 16 → mayWrite d (.slot n) 0x42 = true → d.link.loading = none → v < 16 →
      let busy := v = d.get Reg.GL_ACTIVE ∨ d.link.armed.map (·.1) = some v
      (v = 0 → Gives (.glLoadIdWrite (.slot n) v) s (Becomes [] d))
      ∧ (v ≠ 0 → busy → Gives (.glLoadIdWrite (.slot n) v) s fun t => Becomes [Reg.GL_LOAD_STATUS] d t ∧ t.get Reg.GL_LOAD_STATUS = 3)
      ∧ (v ≠ 0 → ¬ busy → Gives (.glLoadIdWrite (.slot n) v) s fun t => t.get Reg.GL_LOAD_STATUS = 1
        ∧ Becomes [Reg.GL_LOAD_STATUS] { d with link := { d.link with loading := some (v, n, d.get Reg.GL_LOAD_ADDR) } } t
        ∧ Sent (.hostRead n (d.get Reg.GL_LOAD_ADDR) 16) d t))
    ∧ (∀ v n adr b, d.link.loading = some (v, n, adr) →
      let ends := fun st (t : Dev) => Becomes [Reg.GL_LOAD_STATUS] { d with link := { d.link with loading := none } } t ∧ t.get Reg.GL_LOAD_STATUS = st
      Gives (.glLoadDone none) s (ends 4)
      ∧ (gateListOf b = none → Gives (.glLoadDone (some b)) s (ends 2))
      ∧ (∀ l, gateListOf b = some l → v ≠ d.get Reg.GL_ACTIVE → d.link.armed.map (·.1) ≠ some v → Gives (.glLoadDone (some b)) s fun t =>
        assocGet t.link.lists v = some l ∧ (∀ k, k ≠ v → assocGet t.link.lists k = assocGet d.link.lists k) ∧ t.link.loading = none
        ∧ t.get Reg.GL_LOAD_STATUS = 0 ∧ t.link.ports = d.link.ports ∧ same t))
    ∧ (∀ via v, mayWrite d via 0x42 = true → v < 2 ^ 64 →
      let id := d.get Reg.GL_SWITCH_ID
      let refused := fun st (t : Dev) => Becomes [Reg.GL_SWITCH_AT, Reg.GL_SWITCH_STATUS] d t ∧ t.get Reg.GL_SWITCH_STATUS = st
      (assocGet d.link.lists id = none → Gives (.glSwitchAtWrite via v) s (refused 1))
      ∧ (assocGet d.link.lists id ≠ none → planSealedFor d v = true → Gives (.glSwitchAtWrite via v) s (refused 2))
      ∧ (assocGet d.link.lists id ≠ none → planSealedFor d v = false → Gives (.glSwitchAtWrite via v) s fun t =>
        t.link.armed = some (id, v) ∧ t.get Reg.GL_ARMED = 1 ∧ t.get Reg.GL_SWITCH_STATUS = 0 ∧ t.get Reg.GL_SWITCH_AT = v
        ∧ Becomes [Reg.GL_SWITCH_AT, Reg.GL_SWITCH_STATUS, Reg.GL_ARMED] { d with link := { d.link with armed := some (id, v) } } t))

/-- R472, R475, R476, R479-R482, R484-R486, R488, R490. -/
def Obligations.FlashTier : Prop :=
  ∀ (s : State),
    let d := s.dev
    let f := d.flash
    let same := fun t : Dev => t.mem = d.mem ∧ t.sess = d.sess ∧ t.kv = d.kv ∧ t.fab.extents = d.fab.extents
    let mapped := fun (t : Dev) (u : Nat) => ∃ m ∈ t.flash.map, m.unit = u
    let plain := (f.sbs.map (·.sb)).Nodup ∧ (f.map.map (·.unit)).Nodup
    let moved := fun (x : Superblock) (t : Dev) => same t
      ∧ (∀ m ∈ f.map, m.backing = false ∨ d.get Reg.FTL_FOLD_BACKING = 1 → mapped t m.unit)
      ∧ (∀ m ∈ f.map, m.sb = x.sb → m.backing = true → d.get Reg.FTL_FOLD_BACKING = 0 → m ∉ t.flash.map)
      ∧ ((∃ y ∈ t.flash.sbs, y.sb = x.sb ∧ y.state = .erasing) → ∀ m ∈ t.flash.map, m.sb ≠ x.sb)
      ∧ ((∀ m ∈ t.flash.map, m.sb ≠ x.sb) → (sbOf t x.sb).state = .erasing)
    (d.isM0 = true → ∀ u r id c sb k on temp, ∀ i ∈ [Instr.flashReadDone u r, .flashProgramDone id c, .flashEraseDone sb c, .foldStart, .gcStart,
      .patrolRead sb k on, .channelFail sb on k, .rebuildComplete sb, .healthLogUpdate temp], Gives i s (Becomes [] d))
    ∧ (d.isM0 = false →
      (∀ u r, ((∀ m ∈ f.map, m.unit ≠ u) ∨ u ∈ f.lost) → Gives (.flashReadDone u r) s (Becomes [] d))
      ∧ (∀ u r m, f.map.find? (fun m => m.unit == u) = some m → u ∉ f.lost → m.channel < 32 →
        let on := d.get (Reg.FLC_STATE m.channel) = 0
        let good := on ∧ (r.hardOk = true ∨ r.retryOk = true)
        let saved := ¬ good ∧ ((on ∧ r.softOk = true) ∨ r.parityOk = true ∨ (r.remoteOk = true ∧ d.get Reg.FAB_COPY_T4 = 2))
        (Gives (.flashReadDone u r) s fun t => Counts (Reg.FLC_READS m.channel) 1 d t)
        ∧ (good → Gives (.flashReadDone u r) s fun t => same t ∧ t.flash.map = f.map ∧ t.flash.writes = f.writes ∧ t.flash.lost = f.lost)
        ∧ (saved → d.get Reg.FTL_PLP ≠ 2 → Gives (.flashReadDone u r) s fun t => same t ∧ t.flash.lost = f.lost
          ∧ ∃ w ∈ t.flash.writes, w.use = .relocate u ∧ w.first = u ∧ w.count = 1)
        ∧ (¬ good → ¬ saved → ∀ q ∈ f.runs, q.first ≤ u → u < q.first + q.count →
          (∀ q' ∈ f.runs, q'.first ≤ u → u < q'.first + q'.count → q' = q) → Gives (.flashReadDone u r) s fun t => Counts Reg.FTL_UNCORRECTABLE 1 d t
          ∧ ((∀ o v, objView d o = some v → (v.tier = 4 → v.loc / 16 = q.first → ∃ part i, o = .granule part i)
              ∧ (v.backTier = 4 → v.backLoc / 16 ≠ q.first)) → u ∈ t.flash.lost)
          ∧ ∀ part i v, objView d (.granule part i) = some v → v.tier = 4 → v.loc / 16 = q.first → v.backTier = noTier →
            (findGranule t part i).map (·.lost) = some true))
      ∧ (∀ id c, (∀ w ∈ f.writes, w.id ≠ id) → Gives (.flashProgramDone id c) s (Becomes [] d))
      ∧ (∀ id w, f.writes.find? (fun w => w.id == id) = some w →
        (Gives (.flashProgramDone id none) s fun t => (∀ x ∈ t.flash.writes, x.id ≠ id)
          ∧ (∀ u, (∀ m ∈ w.chunks, m.unit ≠ u) → (t.flash.map.find? fun m => m.unit == u) = f.map.find? fun m => m.unit == u)
          ∧ (∀ m ∈ w.chunks, ∃ n ∈ t.flash.map, n.unit = m.unit ∧ n.sb = m.sb ∧ n.stripe = m.stripe ∧ n.channel = m.channel ∧ n.slc = m.slc)
          ∧ (∀ m ∈ t.flash.map, m ∉ f.map → ∃ n ∈ w.chunks, n.unit = m.unit ∧ n.sb = m.sb) ∧ t.mem = d.mem ∧ t.sess = d.sess)
        ∧ (∀ off q x, w.use = .extent off → (d.fab.sealWait.find? fun t => addrOffset t.addr == off) = some q → extentOf d true off = some x →
          Gives (.flashProgramDone id none) s fun t => extentOf t true off = some { x with sealed := true } ∧ Answered q 0 0 [] d t)
        ∧ (∀ c, c < 32 → d.get Reg.FTL_PLP ≠ 2 → Gives (.flashProgramDone id (some c)) s fun t => same t ∧ t.flash.map = f.map
          ∧ (∃ x ∈ t.flash.writes, x.id = id ∧ x.use = w.use ∧ x.first = w.first ∧ x.count = w.count) ∧ Counts (Reg.FLC_PROG_FAIL c) 1 d t))
      ∧ (∀ sb c, (sbOf d sb).state ≠ .erasing → Gives (.flashEraseDone sb c) s (Becomes [] d))
      ∧ (∀ sb, (sbOf d sb).state = .erasing → Gives (.flashEraseDone sb none) s fun t => same t ∧ t.flash.map = f.map
          ∧ (sbOf t sb).state = .free ∧ (sbOf t sb).used = 0
          ∧ (sbOf t sb).ec = (sbOf d sb).ec + (if (sbOf d sb).slc = true then 1 else 10))
      ∧ (foldHigh d * slcSet f.slcPct ≤ freeSlc d * 100 → Gives .foldStart s (Becomes [] d))
      ∧ (∀ x ∈ f.sbs, plain → freeSlc d * 100 < foldHigh d * slcSet f.slcPct → x.slc = true → x.state = .closed → (∀ y ∈ f.sbs, y.weak = false) →
          (∀ y ∈ f.sbs, y.slc = true → y.state = .closed → y ≠ x → x.seq < y.seq) → Gives .foldStart s fun t => moved x t
          ∧ t.get Reg.FTL_GC_VICTIMS = d.get Reg.FTL_GC_VICTIMS)
      ∧ (d.get Reg.FTL_GC_LOW ≤ freeTlc d → (∀ c ∈ f.collecting, c.fold = true) → (∀ y ∈ f.sbs, y.weak = false) → Gives .gcStart s (Becomes [] d))
      ∧ (∀ x ∈ f.sbs, plain → freeTlc d < d.get Reg.FTL_GC_LOW → x.slc = false → x.state = .closed → (∀ y ∈ f.sbs, y.weak = false) →
          (∀ y ∈ f.sbs, y.slc = false → y.state = .closed → y ≠ x →
            let a := (sbUnits d x.sb).length
            let b := (sbUnits d y.sb).length
            a < b ∨ (a = b ∧ (x.ec < y.ec ∨ (x.ec = y.ec ∧ x.sb < y.sb)))) →
          Gives .gcStart s fun t => moved x t ∧ Counts Reg.FTL_GC_VICTIMS 1 d t)
      ∧ (∀ sb bits on, let x := sbOf d sb
        let due := x.state = .closed ∧ x.patrolAt + max 1 (d.get Reg.FTL_PATROL_DAYS) * 86400000000000 ≤ d.clock
        (¬ due → Gives (.patrolRead sb bits on) s (Becomes [] d))
        ∧ (due → Gives (.patrolRead sb bits on) s fun t => same t ∧ t.flash.map = f.map ∧ (sbOf t sb).patrolAt = d.clock
          ∧ ((sbOf t sb).weak = true ↔ x.weak = true ∨ 96 ≤ bits ∨ on = true) ∧ (sbOf t sb).state = .closed))
      ∧ (∀ c on k, (32 ≤ c ∨ d.get (Reg.FLC_STATE c) ≠ 0 ∨ (on = false ∧ k ≤ 1024)) → Gives (.channelFail c on k) s (Becomes [] d))
      ∧ (∀ c on k, c < 32 → d.get (Reg.FLC_STATE c) = 0 → (on = true ∨ 1024 < k) → Gives (.channelFail c on k) s fun t => same t
          ∧ t.get (Reg.FLC_STATE c) = 1 ∧ t.flash.slcPct = 1 ∧ t.flash.map = f.map
          ∧ ∀ w ∈ t.flash.writes, w ∉ f.writes → ∀ m ∈ w.chunks, m.channel ≠ c)
      ∧ (∀ c, (d.get (Reg.FLC_STATE c) ≠ 1 ∨ ∃ m ∈ f.map, m.channel = c) → Gives (.rebuildComplete c) s (Becomes [] d))
      ∧ (∀ c, c < 32 → d.get (Reg.FLC_STATE c) = 1 → (∀ m ∈ f.map, m.channel ≠ c) → Gives (.rebuildComplete c) s fun t =>
          t.get (Reg.FLC_STATE c) = 2 ∧ Becomes [Reg.FLC_STATE c] d t)
      ∧ (∀ temp, d.clock < f.healthAt + 60000000000 → Gives (.healthLogUpdate temp) s (Becomes [] d))
      ∧ (∀ temp, f.healthAt + 60000000000 ≤ d.clock → f.tempHist.length = 16 → Gives (.healthLogUpdate temp) s fun t => same t
          ∧ t.flash.healthAt = d.clock ∧ fieldAt t.flash.health 0 4 = 0x464C4847 ∧ t.flash.map = f.map
          ∧ ∃ b : Nat, b < 16 ∧ (b = 0 ↔ temp < 20) ∧ (b = 15 ↔ 90 ≤ temp) ∧ (0 < b → b < 15 → (15 + 5 * b : Int) ≤ temp ∧ temp < 20 + 5 * b)
            ∧ (t.flash.tempHist[b]?).getD 0 = (f.tempHist[b]?).getD 0 + 1))
    ∧ (f.journal < 65536 → Gives .mapSnapshot s (Becomes [] d))
    ∧ (65536 ≤ f.journal → Gives .mapSnapshot s (Becomes [] { d with flash := { f with journal := f.journal - 65536 } }))
    ∧ (∀ via word ok, mayWrite d via 0x80 = true →
      let n := d.get Reg.FTL_HEALTH_SLOT
      (word % 2 = 0 → Gives (.ftlHealthGet via word ok) s (Becomes [] d))
      ∧ (word % 2 = 1 → slotBound d n = false → Gives (.ftlHealthGet via word ok) s fun t => Becomes [Reg.FTL_HEALTH_STATUS] d t
          ∧ t.get Reg.FTL_HEALTH_STATUS = 3)
      ∧ (word % 2 = 1 → slotBound d n = true → Gives (.ftlHealthGet via word ok) s fun t => Becomes [Reg.FTL_HEALTH_STATUS] d t
          ∧ t.get Reg.FTL_HEALTH_STATUS = (if ok then 0 else 2)
          ∧ (ok = true → Sent (.hostWrite n (d.get Reg.FTL_HEALTH_ADDR) (healthBytes d)) d t)))

/-- R494-R496, R500-R502, R508-R511. -/
def Obligations.IndexCommands : Prop :=
  (∀ (c : HostCmd) (s : State), c.slot < 16 →
    let d := s.dev
    let u := taken c d
    let m := cmdOf d c
    let h := argAt c 48 2
    let part := d.get (Reg.SLOT_PART c.slot)
    let data := padTo c.lenA c.dataA
    let nothing := Leaves [Reg.HOST_CMDS_ACCEPTED c.slot] d
    let refused := fun (i : Instr) (st : Nat) => Gives i s fun t => nothing t ∧ Answers c st 0 0 d t
    let quiet := fun t : Dev => t.mem = d.mem ∧ t.sess = d.sess ∧ t.kv = d.kv ∧ t.srch.searches = d.srch.searches
      ∧ t.srch.passes = d.srch.passes ∧ ∀ y ∈ d.srch.indexes, y.handle ≠ h → y ∈ t.srch.indexes
    (∀ r ∈ [(Instr.indexLoad c, 0x71), (.indexCommit c, 0x72), (.sideAppend c, 0x73), (.search c, 0x74), (.mergeBack c, 0x75),
        (.indexDestroy c, 0x76)], Passes r.2 c d → (r.2 = 0x74 → Clean (searchChecks d m ++ keysChecks d m)) →
      (findIndex d h = none → refused r.1 0x0600)
      ∧ ∀ x, findIndex d h = some x → x.part ≠ part → Gives r.1 s nothing)
    ∧ (Passes 0x70 c d →
      (3 < argAt c 48 1 → refused (.indexCreate c) 0x0002)
      ∧ (argAt c 48 1 ≤ 3 → 64 ≤ d.srch.indexes.length → refused (.indexCreate c) 0x0601)
      ∧ (argAt c 48 1 ≤ 3 → d.srch.indexes.length < 64 → Gives (.indexCreate c) s fun t =>
        ∃ n, findIndex d n = none ∧ t.srch.indexes = d.srch.indexes ++
            [⟨n, part, argAt c 48 1, d.get (Reg.SLOT_KEY c.slot), 0, [], 0, [], (mapUnits, 0), none⟩]
          ∧ t.get Reg.VS_INDEXES = d.srch.indexes.length + 1 ∧ t.mem = d.mem ∧ t.sess = d.sess
          ∧ t.srch.searches = d.srch.searches ∧ t.srch.passes = d.srch.passes ∧ Answers c 0 n 0 d t))
    ∧ (∀ x, findIndex d h = some x → x.part = part →
      let merging := (x.build.map (·.merge.isSome)).getD false = true
      (Passes 0x71 c d →
        let w := 4 + codeBytes x.width
        let recs := loadRecs x.width data
        let all := ((x.build.map (·.recs)).getD []) ++ recs
        let n := genUnits x.width all.length
        let bad := ∃ r ∈ recs, r.1 = 0xFFFFFFFF
        let room := n = 0 ∨ t4Room u (n * 65536) = true
        (c.lenA % w ≠ 0 → refused (.indexLoad c) 0x0002)
        ∧ (c.lenA % w = 0 → merging → refused (.indexLoad c) 0x0602)
        ∧ (c.lenA % w = 0 → ¬ merging → bad → refused (.indexLoad c) 0x0604)
        ∧ (c.lenA % w = 0 → ¬ merging → ¬ bad → room → Gives (.indexLoad c) s fun t => quiet t ∧ Answers c 0 all.length 0 d t
          ∧ ∃ b, b.recs = all ∧ b.merge = none ∧ findIndex t h = some { x with build := some b })
        ∧ (c.lenA % w = 0 → ¬ merging → ¬ bad → ¬ room → Gives (.indexLoad c) s fun t => quiet t ∧ Answers c 0x0606 0 0 d t
          ∧ findIndex t h = some { x with build := none }))
      ∧ (Passes 0x72 c d →
        ((x.build = none ∨ merging) → refused (.indexCommit c) 0x0603)
        ∧ (∀ b, x.build = some b → b.merge = none →
          let got := (unitsAlloc (genUnits x.width b.recs.length) u).1
          (got = none → Gives (.indexCommit c) s fun t => quiet t ∧ Answers c 0x0606 0 0 d t
            ∧ findIndex t h = some { x with build := none })
          ∧ (got ≠ none → Gives (.indexCommit c) s fun t => quiet t ∧ Answers c 0 (x.gen + 1) 0 d t
            ∧ ∃ y, findIndex t h = some y ∧ y.gen = x.gen + 1 ∧ y.build = none ∧ (curGen y).map (·.recs) = some b.recs
              ∧ y.side = (if bitAt (argAt c 50 1) 0 then [] else x.side) ∧ y.nextSeq = x.nextSeq
              ∧ y.part = x.part ∧ y.width = x.width ∧ y.keySlot = x.keySlot
              ∧ (∀ g ∈ x.gens, (∃ r ∈ d.srch.searches, r.handle = h ∧ r.gen = g.num) → g ∈ y.gens)
              ∧ (∀ g ∈ y.gens, g.num = x.gen + 1 ∨ ∃ r ∈ d.srch.searches, r.handle = h ∧ r.gen = g.num))))
      ∧ (Passes 0x73 c d →
        let w := 8 + codeBytes x.width
        let rs := sideRecs x.width data
        let bad := ∃ r ∈ rs, fieldAt r 0 4 = 0xFFFFFFFF ∨ 2 ≤ byteAt r 4 ∨ fieldAt r 5 3 ≠ 0
          ∨ (byteAt r 4 = 1 ∧ allZero (r.drop 8) = false)
        let len := x.side.length + rs.length
        let pool := poolRoom u part (rs.length * w) = true
        let units := unitsOf (len * w)
        let mirror := units ≤ x.mirror.2 ∨ (unitsAlloc units u).1 ≠ none
        (c.lenA % w ≠ 0 → refused (.sideAppend c) 0x0002)
        ∧ (c.lenA % w = 0 → bad → refused (.sideAppend c) 0x0604)
        ∧ (c.lenA % w = 0 → ¬ bad → 16777216 < len → refused (.sideAppend c) 0x0605)
        ∧ (c.lenA % w = 0 → ¬ bad → len ≤ 16777216 → ¬ pool → refused (.sideAppend c) 0x0606)
        ∧ (c.lenA % w = 0 → ¬ bad → len ≤ 16777216 → pool → rs = [] → Gives (.sideAppend c) s fun t => nothing t
          ∧ Answers c 0 x.side.length 0 d t)
        ∧ (c.lenA % w = 0 → ¬ bad → len ≤ 16777216 → pool → rs ≠ [] → ¬ mirror → refused (.sideAppend c) 0x0606)
        ∧ (c.lenA % w = 0 → ¬ bad → len ≤ 16777216 → pool → rs ≠ [] → mirror → Gives (.sideAppend c) s fun t => quiet t
          ∧ (∃ y, findIndex t h = some y ∧ y.nextSeq = x.nextSeq + rs.length ∧ y.gens = x.gens ∧ y.gen = x.gen ∧ y.build = x.build
            ∧ y.side.take x.side.length = x.side ∧ y.side.length = len
            ∧ ∀ k, ∀ r, rs[k]? = some r → y.side[x.side.length + k]? =
                some ⟨x.nextSeq + k, fieldAt r 0 4, byteAt r 4 == 1, r.drop 8⟩)
          ∧ (d.get Reg.FTL_PLP ≠ 2 → ∃ o ∈ t.flash.writes, o.use = .side m len)))
      ∧ (Passes 0x75 c d →
        let recs := (((curGen x).map (·.recs)).getD []).filter (fun r => !x.side.any fun e => e.tomb && e.id == r.1)
          ++ (x.side.filter fun e => !e.tomb && !x.side.any fun t => t.tomb && t.id == e.id && decide (e.seq < t.seq)).map
            fun e => (e.id, e.code)
        let got := unitsAlloc (genUnits x.width recs.length) u
        (x.build ≠ none → refused (.mergeBack c) 0x0602)
        ∧ (x.build = none → got.1 = none → refused (.mergeBack c) 0x0606)
        ∧ (∀ f, x.build = none → got.1 = some f → Gives (.mergeBack c) s fun t => quiet t
          ∧ findIndex t h = some { x with build := some ⟨recs, some m, f, x.nextSeq, false⟩ }))
      ∧ (Passes 0x76 c d →
        let pinned := x.build ≠ none ∨ ∃ r ∈ d.srch.searches, r.handle = h
        (pinned → refused (.indexDestroy c) 0x0602)
        ∧ (¬ pinned → Gives (.indexDestroy c) s fun t => t.mem = d.mem ∧ t.sess = d.sess ∧ t.kv = d.kv
          ∧ t.srch.indexes = d.srch.indexes.filter (fun y => y.handle != h) ∧ t.srch.searches = d.srch.searches
          ∧ t.srch.passes = d.srch.passes ∧ (d.srch.indexes.length ≤ 64 → t.get Reg.VS_INDEXES = t.srch.indexes.length) ∧ Answers c 0 0 0 d t))))
  ∧ (∀ (h : Nat) (s : State),
    let d := s.dev
    (∀ x, findIndex d h = some x → ∀ b, x.build = some b → b.merge ≠ none →
      (∀ w ∈ d.flash.writes, w.use ≠ .index h (x.gen + 1)) → Gives (.mergeBackBuildDone h) s fun t =>
        findIndex t h = some { x with build := some { b with ready := true } } ∧ t.srch.searches = d.srch.searches ∧ t.mem = d.mem)
    ∧ ((∀ x b, findIndex d h = some x → x.build = some b → b.merge = none ∨ ∃ w ∈ d.flash.writes, w.use = .index h (x.gen + 1)) →
      Gives (.mergeBackBuildDone h) s (Becomes [] d)))

/-- R497-R499, R502-R505, R509-R511. -/
def Obligations.Searches : Prop :=
  (∀ (c : HostCmd) (s : State), c.slot < 16 →
    let d := s.dev
    let u := taken c d
    let m := cmdOf d c
    let h := argAt c 48 2
    let f := argAt c 56 8
    let nq := argAt c 50 1
    let part := d.get (Reg.SLOT_PART c.slot)
    let refused := fun (st : Nat) => Gives (.search c) s fun t => Leaves [Reg.HOST_CMDS_ACCEPTED c.slot] d t ∧ Answers c st 0 0 d t
    Passes 0x74 c d →
      let k := argAt c 52 2
      let ki := if argAt c 54 2 = 0 then k else argAt c 54 2
      let inRange := 1 ≤ nq ∧ nq ≤ 16 ∧ 1 ≤ k ∧ k ≤ 4096 ∧ k ≤ ki ∧ ki ≤ 4096 ∧ nq * (128 + 8 * k) ≤ c.lenB
      (¬ inRange → refused 0x0002)
      ∧ (inRange → d.sec.keysOff = true → refused 0x0808)
      ∧ (inRange → d.sec.keysOff = false → ∀ x, findIndex d h = some x → x.part = part →
        let sized := c.lenA = nq * codeBytes x.width
        let object := readRange d part f (filterLen (filterHead d part f))
        let lost := f ≠ 0 ∧ anyGranule u part (granulesOf f (filterLen (filterHead d part f))) (·.lost) = true
        let bad := f ≠ 0 ∧ filterBad u part f = true
        (¬ sized → refused 0x0002)
        ∧ (sized → lost → refused 0x0304)
        ∧ (sized → ¬ lost → bad → refused 0x0607)
        ∧ (sized → ¬ lost → ¬ bad → Gives (.search c) s fun t => ∃ r, t.srch.searches = d.srch.searches ++ [r] ∧ r.cmd = m
          ∧ r.handle = h ∧ r.gen = x.gen ∧ r.side = x.side ∧ r.sideLen = x.side.length ∧ r.kOut = k ∧ r.kInt = ki
          ∧ r.filter = (if f = 0 then none else some object)
          ∧ r.queries = (List.range nq).zip (chunks nq (codeBytes x.width) (padTo c.lenA c.dataA))
          ∧ (∀ q, q < nq → ∃ p ∈ t.srch.passes, (r.id, q) ∈ p.serves ∧ p.handle = h ∧ p.gen = x.gen)
          ∧ (∀ p ∈ t.srch.passes, p ∉ d.srch.passes → p.serves.length ≤ max 1 (min 16 (d.get Reg.VS_PASS_QUERIES)))
          ∧ t.srch.indexes = d.srch.indexes ∧ Counts Reg.VS_SEARCHES 1 d t ∧ t.mem = d.mem ∧ t.sess = d.sess)))
  ∧ (∀ (id : Nat) (s : State),
    let d := s.dev
    ((∀ p, d.srch.passes.head? = some p → p.id ≠ id) → Gives (.searchPassDone id) s (Becomes [] d))
    ∧ (∀ p rest x, d.srch.passes = p :: rest → p.id = id → findIndex d p.handle = some x →
      (∀ r ∈ d.srch.searches, ∀ slot sq cid head, r.cmd.origin = .host slot sq cid head → slot < 16) →
      let g := (x.gens.find? fun g => g.num == p.gen).getD ⟨0, [], mapUnits⟩
      let recs := scanned d x.width g
      let lost := lostUnits d x.width g
      (Gives (.searchPassDone id) s fun t => t.srch.passes = rest ∧ Counts Reg.VS_PASSES 1 d t ∧ t.mem = d.mem ∧ t.sess = d.sess
        ∧ (∀ r ∈ d.srch.searches, (∀ z ∈ p.serves, z.1 ≠ r.id) → r ∈ t.srch.searches)
        ∧ (∀ z ∈ p.serves, ∀ r, (d.srch.searches.find? fun r => r.id == z.1) = some r → ∀ q, (r.queries.find? fun q => q.1 == z.2) = some q →
          Sent (.hostWrite r.cmd.c.slot (r.cmd.c.addrB + z.2 * (128 + 8 * r.kOut)) (searchQuery r z.2 q.2 recs lost).bytes) d t))
      ∧ (∀ r, (d.srch.searches.find? fun y => y.id == r.id) = some r → (∀ z ∈ p.serves, z.1 = r.id) →
        (∀ q ∈ r.queries, (r.id, q.1) ∈ p.serves) → r.queries ≠ [] → Gives (.searchPassDone id) s fun t =>
          (∀ y ∈ t.srch.searches, y.id ≠ r.id)
          ∧ Closes r.cmd 0 0 0 d t)))
  ∧ (∀ (r : SearchRun) (q : Nat) (code : Bytes) (recs : List (Nat × Nat × Bytes)) (lost : Nat), code.length ≤ 256 →
    (∀ z ∈ recs, z.2.1 < 0xFFFFFFFF) → (∀ e ∈ r.side, e.id < 0xFFFFFFFF) → r.kOut ≤ 4096 →
    let b := (searchQuery r q code recs lost).bytes
    let at_ := fun i => fieldAt b (128 + 8 * i) 4
    let key := fun i => fieldAt b (132 + 8 * i) 4
    b.length = 128 + 8 * r.kOut
    ∧ (∀ i, i < r.kOut →
      (at_ i = 0xFFFFFFFF ∧ key i = 0xFFFFFFFF)
      ∨ (filterPass r.filter (at_ i) = true
        ∧ ((∃ z ∈ recs, z.2.1 = at_ i ∧ key i = hamming code z.2.2 ∧ ∀ e ∈ r.side, e.tomb = true → e.id ≠ at_ i)
          ∨ ∃ e ∈ r.side, e.tomb = false ∧ e.id = at_ i ∧ key i = hamming code e.code
            ∧ ∀ t ∈ r.side, t.tomb = true → t.id = e.id → t.seq ≤ e.seq)))
    ∧ ∀ i j, i < j → j < r.kOut → at_ j ≠ 0xFFFFFFFF →
      at_ i ≠ 0xFFFFFFFF ∧ (key i < key j ∨ (key i = key j ∧ at_ i < at_ j)))

/-- R516, R517, R521, R524, R527, R528, R530, R531, R538-R540, R542. -/
def Obligations.Captures : Prop :=
  (∀ (c : HostCmd) (s : State), c.slot < 16 →
    let d := s.dev
    let u := taken c d
    let m := cmdOf d c
    let part := d.get (Reg.SLOT_PART c.slot)
    let refused := fun (i : Instr) (st : Nat) => Gives i s fun t => Leaves [Reg.HOST_CMDS_ACCEPTED c.slot] d t ∧ Answers c st 0 0 d t
    (Passes 0x78 c d →
      let n := argAt c 48 1
      let kind := argAt c 49 1
      let target := argAt c 50 2 % 1024
      let there := kind ≤ 2 ∧ (kind ≠ 0 → storeThere u kind target = true)
      (7 < n → refused (.ckptStoreSet c) 0x0002)
      ∧ (n ≤ 7 → kind = 0 → d.isM0 = true → refused (.ckptStoreSet c) 0x0006)
      ∧ (n ≤ 7 → ¬ there → refused (.ckptStoreSet c) 0x0700)
      ∧ (n ≤ 7 → there → (kind = 0 → d.isM0 = false) → Gives (.ckptStoreSet c) s fun t => Answers c 0 0 0 d t ∧ t.mem = d.mem
        ∧ t.ckpt = { d.ckpt with stores := d.ckpt.stores.filter (fun x => x.num != n)
            ++ [⟨n, kind, if kind = 0 then d.self else target, argAt c 56 8⟩] }))
    ∧ (Passes 0x79 c d →
      let h := c.addrB
      let good := c.lenA % 8 = 0 ∧ c.lenA ≤ 512
      (¬ good → refused (.ckptBegin c) 0x0002)
      ∧ (good → (∃ q, findModel d h = some q ∧ q.part ≠ part) → refused (.ckptBegin c) 0x0005)
      ∧ (good → findModel d h = none → refused (.ckptBegin c) 0x0209)
      ∧ (∀ q, good → findModel d h = some q → q.part = part →
        (findStore d (argAt c 56 1) = none → refused (.ckptBegin c) 0x0700)
        ∧ (∀ x, findStore d (argAt c 56 1) = some x →
          (storeThere u x.kind x.target = false → refused (.ckptBegin c) 0x0700)
          ∧ (storeThere u x.kind x.target = true → scopeRuns d h = true → refused (.ckptBegin c) 0x0701)
          ∧ (storeThere u x.kind x.target = true → scopeRuns d h = false → Gives (.ckptBegin c) s fun t => ∃ a k,
            a.model = h ∧ a.ckptId = argAt c 48 8 ∧ a.tick = d.get Reg.TICK_NOW + 2 ∧ a.store = x.num
            ∧ a.full = bitAt (argAt c 57 1) 0 ∧ a.baseWeights = bitAt (argAt c 57 1) 1 ∧ a.part = part
            ∧ a.regions = (List.range (c.lenA / 8)).map (fun i => fieldAt c.dataA (8 * i) 8)
            ∧ t.ckpt = { d.ckpt with captures := d.ckpt.captures ++ [k] } ∧ k.model = h ∧ k.ckptId = a.ckptId ∧ k.tick = a.tick
            ∧ k.kind = x.kind ∧ k.target = x.target ∧ k.full = a.full ∧ k.baseWeights = a.baseWeights ∧ k.part = part
            ∧ k.regions = a.regions ∧ k.cmd = some m ∧ k.shard = none ∧ k.committed = false ∧ k.import_ = false
            ∧ (∀ o ∈ q.members, o ≠ d.self → Sent (.msg o (.capture a)) d t) ∧ t.mem = d.mem ∧ t.sess = d.sess))))
    ∧ (Passes 0x7A c d →
      (findCapture d c.addrB = none → refused (.ckptAbort c) 0x0708)
      ∧ (∀ k, findCapture d c.addrB = some k → k.part ≠ part → refused (.ckptAbort c) 0x0005)
      ∧ (∀ k, findCapture d c.addrB = some k → k.part = part → Gives (.ckptAbort c) s fun t => findCapture t c.addrB = none
        ∧ t.ckpt.shards = d.ckpt.shards ∧ t.mem = d.mem ∧ t.sess = d.sess
        ∧ (k.cmd = none → Answers c 0 0 0 d t) ∧ ∀ b, k.cmd = some b → Closes b 0x070A 0 0 d t)))
  ∧ (∀ (src : Nat) (a : CaptureMsg) (s : State), peerState s.dev src ≠ .lost →
    let d := s.dev
    let late := a.tick ≤ d.get Reg.TICK_NOW ∨ (d.tick.sealed = true ∧ a.tick = d.get Reg.TICK_NOW + 1)
    ((late ∨ findStore d a.store = none ∨ findCapture d a.model ≠ none) → Gives (.captureAnnounceRx src a) s (Becomes [] d))
    ∧ (∀ x, ¬ late → findCapture d a.model = none → findStore d a.store = some x →
      (storeThere d x.kind x.target = false → Gives (.captureAnnounceRx src a) s (Becomes [] d))
      ∧ (storeThere d x.kind x.target = true → Gives (.captureAnnounceRx src a) s fun t => t.mem = d.mem ∧ t.sess = d.sess ∧ ∃ k,
        t.ckpt = { d.ckpt with captures := d.ckpt.captures ++ [k] } ∧ k.model = a.model ∧ k.ckptId = a.ckptId ∧ k.tick = a.tick
        ∧ k.kind = x.kind ∧ k.target = x.target ∧ k.full = a.full ∧ k.baseWeights = a.baseWeights ∧ k.part = a.part
        ∧ k.regions = a.regions ∧ k.cmd = none ∧ k.shard = none ∧ k.committed = false)))
  ∧ (∀ (model : Nat) (one two : Bool) (s : State),
    let d := s.dev
    let row := Instr.captureChunkDone model one two
    ((findCapture d model = none ∨ ∃ k, findCapture d model = some k ∧ k.todo = []) → Gives row s (Becomes [] d))
    ∧ (∀ k o rest sh, findCapture d model = some k → k.todo = o :: rest → k.shard = some sh →
      let b := (o.bytes.drop (1048576 * k.chunks.length)).take 1048576
      let h := sha256 (le 1 (d.get (Reg.SEC_PART_KEY k.part) % 64) ++ b)
      let ends := fun (st : Nat) (t : Dev) => findCapture t model = none ∧ t.ckpt.shards = d.ckpt.shards
        ∧ ∀ m, k.cmd = some m → Closes m st 0 0 d t
      let enters := fun (loc : Nat) (t : Dev) => t.ckpt.shards = d.ckpt.shards ∧ ∃ k', findCapture t model = some k'
        ∧ (if (k.chunks.length + 1) * 1048576 < o.bytes.length then
            k'.todo = k.todo ∧ k'.shard = k.shard ∧ k'.chunks = k.chunks ++ [⟨h, loc, b.length⟩]
          else k'.chunks = [] ∧ ∃ sh', k'.shard = some sh' ∧ { o with chunks := k.chunks ++ [⟨h, loc, b.length⟩] } ∈ sh'.entries
            ∧ ∀ e ∈ sh.entries, e ∈ sh'.entries)
      let room := storeRoom d k b.length = true ∧ (storeTake k b.length d).1 ≠ none
      (d.sec.keysOff = true → Gives row s (ends 0x0808))
      ∧ (d.sec.keysOff = false → ∀ x, findDedup d h k.kind k.target = some x → Gives row s fun t => enters x.loc t
        ∧ Counts Reg.CKPT_DEDUP_HITS 1 d t ∧ { x with refs := x.refs + 1 } ∈ t.ckpt.dedup ∧ t.get Reg.CKPT_BYTES_WRITTEN = d.get Reg.CKPT_BYTES_WRITTEN)
      ∧ (d.sec.keysOff = false → findDedup d h k.kind k.target = none → k.kind = 1 → k.placed = none → Gives row s fun t =>
        t.ckpt = d.ckpt)
      ∧ (d.sec.keysOff = false → findDedup d h k.kind k.target = none → k.kind ≠ 1 →
        (¬ room → Gives row s (ends 0x0703))
        ∧ (room → one = true → Gives row s fun t => ∃ loc, enters loc t ∧ t.get Reg.CKPT_VERIFY_RETRIES = d.get Reg.CKPT_VERIFY_RETRIES
          ∧ (d.ckpt.dedup.length < 16777216 → t.ckpt.dedup = d.ckpt.dedup ++ [⟨h, k.kind, k.target, 1, loc, b.length⟩])
          ∧ (16777216 ≤ d.ckpt.dedup.length → t.ckpt.dedup = d.ckpt.dedup ∧ Counts Reg.CKPT_DEDUP_FULL 1 d t))
        ∧ (room → one = false → two = false → Gives row s fun t => Counts Reg.CKPT_VERIFY_RETRIES 1 d t
          ∧ (ends 0x0703 t ∨ ends 0x0704 t)))))
  ∧ (∀ (model : Nat) (equal : Bool) (s : State),
    let d := s.dev
    let row := Instr.shardCommit model equal
    ((findCapture d model = none ∨ ∃ k, findCapture d model = some k ∧ (k.shard = none ∨ k.todo ≠ [])) → Gives row s (Becomes [] d))
    ∧ (∀ k sh, findCapture d model = some k → k.shard = some sh → k.todo = [] →
      let ends := fun (st : Nat) (t : Dev) => findCapture t model = none ∧ t.ckpt.shards = d.ckpt.shards
        ∧ ∀ m, k.cmd = some m → Closes m st 0 0 d t
      let n := 128 + 32 * sh.entries.length + 40 * (sh.entries.map fun o => o.chunks.length).sum
      let room := storeRoom d k n = true ∧ (k.kind ≠ 1 → (storeTake k n d).1 ≠ none)
      (d.sec.keysOff = true → Gives row s (ends 0x0808))
      ∧ (d.sec.keysOff = false → equal = false → Gives row s (ends 0x0704))
      ∧ (d.sec.keysOff = false → equal = true → ¬ room → Gives row s (ends 0x0703))
      ∧ (d.sec.keysOff = false → equal = true → room → Gives row s fun t => findCapture t model = none ∧ t.mem = d.mem ∧ t.sess = d.sess
        ∧ (∃ loc, t.ckpt.shards = d.ckpt.shards ++ [{ sh with
            committed := true
            manLoc := loc }])
        ∧ (∀ m, k.cmd = some m → Closes m 0 (if k.import_ then 0 else k.tick) 0 d t)
        ∧ (∀ q, findModel d model = some q → k.import_ = false → ∀ o ∈ q.members, o ≠ d.self →
          Sent (.msg o (.shardVote model k.ckptId)) d t))))
  ∧ (∀ (src model ckpt : Nat) (s : State), peerState s.dev src ≠ .lost → Gives (.shardVoteRx src model ckpt) s fun t =>
      let d := s.dev
      let voted := fun (x : Capture) => { x with votes := x.votes ++ [src] }
      (∀ y ∈ t.ckpt.captures, y ∈ d.ckpt.captures ∨ ∃ x ∈ d.ckpt.captures, x.model = model ∧ x.ckptId = ckpt ∧ y = voted x)
      ∧ (∀ x ∈ d.ckpt.captures, x.committed = false → x.model = model → x.ckptId = ckpt → x.import_ = false → src ∉ x.votes →
        voted x ∈ t.ckpt.captures)
      ∧ (∀ x q, d.ckpt.captures = [x] → x.committed = true → x.model = model → x.ckptId = ckpt → x.import_ = false →
        findModel d model = some q → (∀ o ∈ q.members, o = src ∨ o ∈ x.votes) → t.ckpt.captures = [])
      ∧ t.ckpt.shards = d.ckpt.shards ∧ t.ckpt.stores = d.ckpt.stores ∧ t.mem = d.mem ∧ t.sess = d.sess)

/-- R530, R532-R540. -/
def Obligations.Restores : Prop :=
  (∀ (c : HostCmd) (s : State), c.slot < 16 →
    let d := s.dev
    let u := taken c d
    let m := cmdOf d c
    let part := d.get (Reg.SLOT_PART c.slot)
    let refused := fun (i : Instr) (st : Nat) => Gives i s fun t => Leaves [Reg.HOST_CMDS_ACCEPTED c.slot] d t ∧ Answers c st 0 0 d t
    (Passes 0x7B c d →
      let h := c.addrB
      let id := argAt c 56 8
      let foreign := ∃ q, findModel d h = some q ∧ q.part ≠ part
      (d.sec.keysOff = true → refused (.ckptRestore c) 0x0808)
      ∧ (d.sec.keysOff = false → ((findModel d h).map (·.group)).getD 1 ≤ 1 →
        (foreign → refused (.ckptRestore c) 0x0005)
        ∧ (∀ x, ¬ foreign → findStore d (argAt c 48 1) = some x →
          let pairs := usablePairs d x.kind x.target h id c.step
          let l := ((pairs.head?).map (builtOf d x.kind x.target h)).getD []
          let there := storeThere u x.kind x.target = true
          let room := l = [] ∨ poolRoom u part (builtBytes d l) = true
          (¬ room → refused (.ckptRestore c) 0x0305)
          ∧ (room → ¬ there → refused (.ckptRestore c) 0x0700)
          ∧ (room → there → scopeRuns d h = true → refused (.ckptRestore c) 0x0701)
          ∧ (room → there → scopeRuns d h = false → scopeBusy d h l = true → refused (.ckptRestore c) 0x0706)
          ∧ (room → there → scopeRuns d h = false → scopeBusy d h l = false → l ≠ [] → dependsOk u h l = false →
            refused (.ckptRestore c) 0x0707)
          ∧ (there → scopeRuns d h = false → scopeBusy d h [] = false → pairs = [] → Gives (.ckptRestore c) s fun t =>
            let n := (shardsOf d x.kind x.target h).length
            Answers c 0x0705 n 0 d t ∧ t.ckpt.restores = d.ckpt.restores ∧ t.ckpt.captures = d.ckpt.captures ∧ t.sess = d.sess
            ∧ t.kv = d.kv ∧ t.mem = d.mem
            ∧ (c.lenA ≠ 0 → findSq d c.slot c.sq ≠ none → ∃ b : Bytes, b.length = min c.lenA (24 * n) ∧ Sent (.hostWrite c.slot c.addrA b) d t))
          ∧ (∀ p rest, there → scopeRuns d h = false → scopeBusy d h l = false → pairs = p :: rest → l ≠ [] → room →
            dependsOk u h l = true → d.get Reg.STW_T1_FREE < 2 ^ 64 → (∀ y ∈ d.ckpt.shards, y.verifyFailed = false) → Gives (.ckptRestore c) s fun t =>
              t.sess = d.sess ∧ t.kv = d.kv ∧ t.mem = d.mem ∧ t.ckpt.shards = d.ckpt.shards ∧ t.ckpt.captures = d.ckpt.captures
              ∧ ∃ r, t.ckpt.restores = d.ckpt.restores ++ [r] ∧ r.model = h ∧ r.kind = x.kind ∧ r.target = x.target ∧ r.chosen = p
                ∧ r.cands = rest ∧ r.built = l ∧ r.cmd = some m ∧ r.ready = false))))
    ∧ (Passes 0x7C c d → ∀ q, findModel d c.addrB = some q →
      (q.part ≠ part → refused (.ckptDrop c) 0x0005)
      ∧ (q.part = part → findStore d (argAt c 56 1) = none → refused (.ckptDrop c) 0x0700)
      ∧ (∀ x, q.part = part → findStore d (argAt c 56 1) = some x →
        let found := (shardsOf d x.kind x.target c.addrB).find? fun y => y.ckptId == argAt c 48 8 && y.committed
        let bases := fun (b y : Shard) => y.full = false ∧ y.baseTick = b.tick ∧ y.model = b.model ∧ y.kind = b.kind ∧ y.target = b.target
        (found = none → refused (.ckptDrop c) 0x0708)
        ∧ (∀ b, found = some b → (∃ y ∈ d.ckpt.shards, bases b y) → refused (.ckptDrop c) 0x0709)
        ∧ (∀ b, found = some b → (∀ y ∈ d.ckpt.shards, ¬ bases b y) → (∀ k ∈ d.ckpt.captures, ∀ y, k.shard = some y → ¬ bases b y) →
          Gives (.ckptDrop c) s fun t => t.ckpt.shards = d.ckpt.shards.erase b ∧ Answers c 0 0 0 d t ∧ t.mem = d.mem ∧ t.sess = d.sess
            ∧ t.ckpt.captures = d.ckpt.captures ∧ t.ckpt.stores = d.ckpt.stores
            ∧ ∀ z ∈ t.ckpt.dedup, ∃ y ∈ d.ckpt.dedup, z.hash = y.hash ∧ z.loc = y.loc ∧ z.refs ≤ y.refs)))
    ∧ (Passes 0x7D c d →
      (findStore d (argAt c 48 1) = none → refused (.ckptList c) 0x0700)
      ∧ (∀ x, findStore d (argAt c 48 1) = some x → Gives (.ckptList c) s fun t =>
        let n := (d.ckpt.shards.filter fun y => y.kind == x.kind && y.target == x.target && y.committed).length
        t.ckpt = d.ckpt ∧ t.mem = d.mem ∧ t.sess = d.sess ∧ Answers c 0 n 0 d t
        ∧ (findSq d c.slot c.sq ≠ none → ∃ b : Bytes, b.length = min c.lenA (64 * n) ∧ Sent (.hostWrite c.slot c.addrA b) d t)))
    ∧ (Passes 0x7E c d →
      (d.sec.keysOff = true → refused (.ckptExport c) 0x0808)
      ∧ (d.sec.keysOff = false → findStore d (argAt c 56 1) = none → refused (.ckptExport c) 0x0700)
      ∧ (∀ x, d.sec.keysOff = false → findStore d (argAt c 56 1) = some x →
        let mine := d.ckpt.shards.filter fun y => y.kind == x.kind && y.target == x.target && y.ckptId == argAt c 48 8
        ((∀ y ∈ mine, y.committed = false) → refused (.ckptExport c) 0x0708)
        ∧ (∀ y ∈ mine, y.committed = true → (∀ z ∈ mine, z ≠ y → z.committed = true → z.tick < y.tick) → Gives (.ckptExport c) s fun t =>
          Leaves [Reg.HOST_CMDS_ACCEPTED c.slot] d t
          ∧ Answers c 0 ((exportShard y).take c.lenA).length 0 d t
          ∧ (findSq d c.slot c.sq ≠ none → Sent (.hostWrite c.slot c.addrA ((exportShard y).take c.lenA)) d t))))
    ∧ (Passes 0x7F c d →
      let b := padTo c.lenA c.dataA
      let h := fieldAt b 40 8
      (findStore d (argAt c 48 1) = none → refused (.ckptImport c) 0x0700)
      ∧ (∀ x, findStore d (argAt c 48 1) = some x →
        let there := storeThere u x.kind x.target = true
        let bad := importBad u (d.get (Reg.SEC_PART_KEY part) % 64) b = true
        (¬ there → refused (.ckptImport c) 0x0700)
        ∧ (there → scopeRuns d h = true → refused (.ckptImport c) 0x0701)
        ∧ (there → scopeRuns d h = false → bad → refused (.ckptImport c) 0x070B)
        ∧ (there → scopeRuns d h = false → ¬ bad → x.kind ≠ 1 → Gives (.ckptImport c) s fun t => t.mem = d.mem ∧ t.sess = d.sess
          ∧ ∃ k sh, t.ckpt = { d.ckpt with captures := d.ckpt.captures ++ [k] } ∧ k.model = h ∧ k.kind = x.kind ∧ k.target = x.target
            ∧ k.import_ = true ∧ k.cmd = some m ∧ k.shard = some sh ∧ sh.ckptId = fieldAt b 8 8 ∧ sh.tick = fieldAt b 16 8
            ∧ sh.slice = fieldAt b 6 2 ∧ sh.epoch = fieldAt b 24 4 ∧ sh.full = true ∧ sh.committed = false
            ∧ (sh.entries ++ k.todo).length = fieldAt b 56 8))))
  ∧ (∀ (src : Nat) (q : RestoreMsg) (s : State), peerState s.dev src ≠ .lost →
    let d := s.dev
    ((findStore d q.store = none ∨ scopeRuns d q.model = true) → Gives (.restoreRx src q) s (Becomes [] d))
    ∧ (∀ x, findStore d q.store = some x → Gives (.restoreRx src q) s fun t => t.sess = d.sess ∧ t.kv = d.kv ∧ t.mem = d.mem
      ∧ t.ckpt.captures = d.ckpt.captures ∧ ∀ r ∈ t.ckpt.restores, r ∈ d.ckpt.restores
        ∨ (r.model = q.model ∧ r.kind = x.kind ∧ r.target = x.target ∧ r.part = q.part ∧ r.cmd = none
          ∧ r.chosen ∈ usablePairs d x.kind x.target q.model q.ckptId q.latest)))
  ∧ (∀ (model : Nat) (ok : Bool) (s : State),
    let d := s.dev
    let row := Instr.restoreBuildDone model ok
    ((findRestore d model = none ∨ ∃ r, findRestore d model = some r ∧ r.ready = true) → Gives row s (Becomes [] d))
    ∧ (∀ r, findRestore d model = some r → r.ready = false →
      let sound := ∀ o ∈ r.built, o.chunks ≠ [] → (chunks (o.bytes.length + 1) 1048576 o.bytes).map
        (fun b => sha256 (le 1 (d.get (Reg.SEC_PART_KEY r.part) % 64) ++ b)) = o.chunks.map (·.hash)
      (d.sec.keysOff = true → Gives row s fun t => t.ckpt.restores = d.ckpt.restores.erase r ∧ t.sess = d.sess
        ∧ ∀ m, r.cmd = some m → Closes m 0x0808 0 0 d t)
      ∧ (d.sec.keysOff = false → ok = true → sound → Gives row s (Becomes [] { d with ckpt := { d.ckpt with
          restores := d.ckpt.restores.map fun x => if x = r then { r with ready := true } else x } }))
      ∧ (d.sec.keysOff = false → (ok = false ∨ ¬ sound) → Gives row s fun t => Counts Reg.CKPT_RESTORE_FALLBACK 1 d t ∧ t.sess = d.sess ∧ t.kv = d.kv
        ∧ (r.cands = [] → t.ckpt.restores = d.ckpt.restores.erase r ∧ ∀ m, r.cmd = some m → ∃ n, Closes m 0x0705 n 0 d t)
        ∧ (∀ p rest m, r.cands = p :: rest → r.cmd = some m →
          (∃ r' ∈ t.ckpt.restores, r'.model = r.model ∧ r'.chosen = p ∧ r'.cands = rest ∧ r'.ready = false ∧ r'.cmd = r.cmd)
          ∨ Closes m 0x0305 0 0 d t))))
  ∧ (∀ (d : Dev) (part : Nat) (l : List CkObj) (ns sid : Nat) (a : Nat × Nat × Nat × Nat),
    let b := builtObj l 0 ns sid
    let x := descOf d part l ns sid a
    (byteAt b 10 = ssCreated → x.state = ssCreated) ∧ (byteAt b 10 = ssExpired → x.state = ssExpired)
    ∧ (byteAt b 10 ≠ ssCreated → byteAt b 10 ≠ ssExpired → x.state = ssParked)
    ∧ (x.state ≠ ssParked → x.table = []) ∧ x.timerStart = nextTickStart d ∧ x.wakeHint = 0 ∧ x.committed = fieldAt b 16 6
    ∧ x.ctxLen = fieldAt b 24 4 ∧ x.prevCtxLen = fieldAt b 28 4 ∧ x.stopReason = byteAt b 11)

/-- R547, R548, R551, R553-R556, R561, R570, R571. -/
def Obligations.PartitionsAndContexts : Prop :=
  (∀ (c : HostCmd) (s : State), c.slot < 16 →
    let d := s.dev
    let u := taken c d
    let part := d.get (Reg.SLOT_PART c.slot)
    let b := c.dataA
    let refused := fun (i : Instr) (st : Nat) => Gives i s fun t => Leaves [Reg.HOST_CMDS_ACCEPTED c.slot] d t ∧ Answers c st 0 0 d t
    let spare := fun n => (b.drop n).all (· == 0) = true
    (Passes 0xA0 c d → b.length = 64 →
      let p := argAt c 48 1
      let quads := fieldAt b 4 4
      let en := byteAt b 0 % 2 = 1
      let clear := byteAt b 0 < 2 ∧ fieldAt b 1 3 = 0 ∧ spare 24
      let used := (∃ n, n < 16 ∧ d.get (Reg.SLOT_STATE n) ≠ 0 ∧ d.get (Reg.SLOT_PART n) = p)
        ∨ ∃ x ∈ d.sess.descs, x.part = p ∧ x.state ≠ ssFree
      let good := ¬ (en ∧ quads = 0)
        ∧ (∀ o, o < 8 → o ≠ p → d.get (Reg.PART_ENABLED o) = 1 → Nat.land quads (d.get (Reg.PART_QUADS o)) = 0)
        ∧ (used → en ∧ quads ≠ 0)
        ∧ (∀ x ∈ d.part.ctxs, x.part = p → x.bound = true → Nat.land x.quadSet quads = x.quadSet)
        ∧ (∀ x ∈ d.sess.descs, x.part = p → x.state ≠ ssFree → 1 + x.context % 4096 ≤ fieldAt b 8 2)
        ∧ 1 ≤ fieldAt b 8 2 ∧ fieldAt b 8 2 ≤ 4096 ∧ 1 ≤ fieldAt b 10 2 ∧ fieldAt b 12 4 ≤ 16777216 ∧ fieldAt b 16 8 % 2097152 = 0
      (8 ≤ p → refused (.partConfig c) 0x0002)
      ∧ (p < 8 → ¬ clear → refused (.partConfig c) 0x0003)
      ∧ (p < 8 → clear → ¬ good → refused (.partConfig c) 0x0002)
      ∧ (p < 8 → clear → good → Gives (.partConfig c) s fun t => Answers c 0 0 0 d t
        ∧ t.get (Reg.PART_ENABLED p) = byteAt b 0 ∧ t.get (Reg.PART_QUADS p) = quads ∧ t.get (Reg.PART_CONTEXTS p) = fieldAt b 8 2
        ∧ t.get (Reg.PART_WEIGHT p) = fieldAt b 10 2 ∧ t.get (Reg.PART_DESC_QUOTA p) = fieldAt b 12 4
        ∧ t.get (Reg.PART_T1_QUOTA p) = fieldAt b 16 8
        ∧ Leaves [Reg.HOST_CMDS_ACCEPTED c.slot, Reg.PART_ENABLED p, Reg.PART_QUADS p, Reg.PART_CONTEXTS p, Reg.PART_WEIGHT p,
            Reg.PART_DESC_QUOTA p, Reg.PART_T1_QUOTA p] d t))
    ∧ (Passes 0xA1 c d → part < 8 → b.length = 64 →
      let n := argAt c 48 2
      let x := ctxOf d part n
      let bound := byteAt b 0 = 1
      let release := byteAt b 1 = 1
      let quads := fieldAt b 4 4
      let pin := fieldAt b 8 2
      let clear := byteAt b 1 < 2 ∧ fieldAt b 12 4 = 0 ∧ spare 24
      let good := n < d.get (Reg.PART_CONTEXTS part) ∧ byteAt b 0 < 2 ∧ fieldAt b 2 2 ≠ 0 ∧ 1 ≤ fieldAt b 16 8 ∧ fieldAt b 16 8 ≤ 2 ^ 40
        ∧ pin % 64 = 0 ∧ pin ≤ 1024 ∧ (¬ bound → quads = 0 ∧ pin = 0)
        ∧ (bound → quads ≠ 0 ∧ Nat.land quads (d.get (Reg.PART_QUADS part)) = quads
          ∧ ∀ y ∈ d.part.ctxs, y.part = part → y.num ≠ n → y.bound = true → y.quadSet = quads ∨ Nat.land y.quadSet quads = 0)
        ∧ (x.bound = true → (x.saved = true ∨ x.residentAt ≠ none) → ¬ release → bound ∧ quads = x.quadSet ∧ pin = x.pinKib)
      let area := 4 * ((List.range 32).filter fun q => bitAt quads q).length * (2097152 + pin * 1024)
      let same := x.bound = true ∧ ¬ release ∧ quads = x.quadSet ∧ pin = x.pinKib
      (¬ clear → refused (.ctxSet c) 0x0003)
      ∧ (clear → ¬ good → refused (.ctxSet c) 0x0002)
      ∧ (clear → good → bound → x.bound = false → poolRoom (poolGive part 0 u) part area = false → refused (.ctxSet c) 0x0305)
      ∧ (clear → good → (¬ bound ∨ same ∨ (x.bound = false ∧ poolRoom (poolGive part 0 u) part area = true)) → Gives (.ctxSet c) s fun t =>
        let y := ctxOf t part n
        Answers c 0 0 0 d t ∧ t.mem = d.mem ∧ t.sess = d.sess ∧ t.kv = d.kv
        ∧ (y.bound = true ↔ bound) ∧ y.share = fieldAt b 2 2 ∧ y.quadSet = quads ∧ y.pinKib = pin ∧ y.minTicks = fieldAt b 10 2
        ∧ y.estInit = fieldAt b 16 8 ∧ y.est = 6 * fieldAt b 16 8 ∧ y.charge = x.charge ∧ y.vt = x.vt ∧ y.steps = x.steps
        ∧ y.switchUnits = x.switchUnits ∧ y.switches = x.switches
        ∧ (bound ∧ same → y.saved = x.saved ∧ y.residentAt = x.residentAt) ∧ (¬ (bound ∧ same) → y.saved = false ∧ y.residentAt = none)
        ∧ (bound → x.bound = false → d.get Reg.STW_T1_FREE < 2 ^ 64 → t.get Reg.STW_T1_FREE + area = d.get Reg.STW_T1_FREE)
        ∧ ∀ p k, (p ≠ part ∨ k ≠ n) → ctxOf t p k = ctxOf d p k))
    ∧ (Passes 0xA2 c d →
      let n := argAt c 48 2
      (d.get (Reg.PART_CONTEXTS part) ≤ n → refused (.ctxQuery c) 0x0002)
      ∧ (n < d.get (Reg.PART_CONTEXTS part) → Gives (.ctxQuery c) s fun t => Leaves [Reg.HOST_CMDS_ACCEPTED c.slot] d t
        ∧ Answers c 0 (ctxOf d part n).vt 0 d t
        ∧ (findSq d c.slot c.sq ≠ none → Sent (.hostWrite c.slot c.addrA (ctxRecord (ctxOf d part n) ++ ctxAccount (ctxOf d part n))) d t))))
  ∧ (∀ (g busy : Nat) (e : Engine) (s : State),
    let d := s.dev
    let row := Instr.engineDispatch g e busy
    let taken := ∃ r ∈ d.part.running, r.gallery = g ∧ r.engine = e ∧ d.clock < r.until_
    let ready := fun (q : EngCmd) => q ∈ d.part.queue ∧ q.gallery = g ∧ q.engine = e
      ∧ ∀ w ∈ d.part.switches, w.part = q.part → w.ctx = q.ctx → g ∉ w.left
    let vt := fun (q : EngCmd) => (ctxOf d q.part q.ctx).vt
    let before := fun (a q : EngCmd) => vt a < vt q ∨ (vt a = vt q ∧ (a.part < q.part ∨ (a.part = q.part ∧ a.ctx ≤ q.ctx)))
    ((taken ∨ ∀ q, ¬ ready q) → Gives row s (Becomes [] d))
    ∧ (¬ taken → ∀ q0, ready q0 → Gives row s fun t => ∃ q, ready q ∧ (∀ a, ready a → before q a)
      ∧ (∀ a, ready a → a.part = q.part → a.ctx = q.ctx → d.part.queue.idxOf q ≤ d.part.queue.idxOf a)
      ∧ Becomes [] { d with part := { d.part with
          queue := d.part.queue.erase q
          running := ⟨g, e, q.part, q.ctx, q.key, d.clock + busy⟩ :: d.part.running } } t))

/-- R575, R577, R582-R588, R591, R671. -/
def Obligations.PowerAndHeat : Prop :=
  ∀ (s : State),
    let d := s.dev
    let state := fun n => d.get (Reg.DOM_STATE n)
    (∀ n,
      let asleep := n < 68 ∧ domForced d n = none ∧ state n ≠ 0 ∧ d.pwr.shed = false
      let due := ∃ u ∈ d.pwr.unplanned, u.1 = n ∧ u.2 + 16 ≤ d.tick.fired
      (¬ asleep → Gives (.unplannedWake n) s (Becomes [] d))
      ∧ (asleep → Gives (.unplannedWake n) s fun t => t.get (Reg.DOM_STATE n) = 0 ∧ t.get (Reg.DOM_UNPLANNED n) = 1
        ∧ Counts Reg.PWR_UNPLANNED_WAKES 1 d t ∧ Counts Reg.PWR_STATE_CHANGES 1 d t ∧ (n, d.tick.fired) ∈ t.pwr.unplanned
        ∧ Becomes [Reg.DOM_STATE n, Reg.DOM_UNPLANNED n, Reg.PWR_UNPLANNED_WAKES, Reg.PWR_STATE_CHANGES]
            { d with pwr := { d.pwr with unplanned := t.pwr.unplanned } } t)
      ∧ (¬ due → Gives (.domUnplannedExpire n) s (Becomes [] d))
      ∧ (due → Gives (.domUnplannedExpire n) s fun t => t.get (Reg.DOM_UNPLANNED n) = 0 ∧ (∀ u ∈ t.pwr.unplanned, u.1 ≠ n)
        ∧ Becomes [Reg.DOM_UNPLANNED n] { d with pwr := { d.pwr with unplanned := t.pwr.unplanned } } t))
    ∧ (∀ (inlet outlet : Int) (flow watts : Nat),
      let low := flow < d.get Reg.COOL_FLOW_MIN
      let alarm := d.pwr.lowFlow = true ∨ d.pwr.disagree = true
      let r := thermalR d flow (decide low || d.pwr.disagree)
      (Gives (.coolantSample inlet outlet flow watts) s fun t =>
        t.get Reg.COOL_IN_MC = (inlet % 4294967296).toNat ∧ t.get Reg.COOL_OUT_MC = (outlet % 4294967296).toNat
        ∧ t.get Reg.COOL_FLOW_MLMIN = flow % 65536 ∧ (t.pwr.lowFlow = true ↔ low) ∧ t.pwr.disagree = d.pwr.disagree
        ∧ t.pwr.tpKnown = true ∧ t.pwr.powSum = d.pwr.powSum + watts ∧ t.pwr.powCount = d.pwr.powCount + 1 ∧ t.pwr.powLast = watts
        ∧ (d.pwr.tpKnown = false → t.pwr.tpNum = inlet * t.pwr.tpDen)
        ∧ (d.pwr.tpKnown = true → t.pwr.tpNum * (20000000 * d.pwr.tpDen : Nat)
            = (d.pwr.tpNum * 19999000 + ((watts * r : Nat) + inlet * 1000) * d.pwr.tpDen) * t.pwr.tpDen)
        ∧ (low ∧ ¬ alarm → Counts Reg.THERM_FLOW_ALARMS 1 d t)
        ∧ (¬ (low ∧ ¬ alarm) → t.get Reg.THERM_FLOW_ALARMS = d.get Reg.THERM_FLOW_ALARMS)
        ∧ t.mem = d.mem ∧ t.sess = d.sess ∧ t.kv = d.kv ∧ t.run = d.run)
      ∧ thermalR d flow true = 100000
      ∧ (4000 ≤ flow → thermalR d flow false = 30000)
      ∧ (3000 ≤ flow → flow ≤ 4000 → thermalR d flow false + 2 * (flow - 3000) = 32000)
      ∧ (2000 ≤ flow → flow ≤ 3000 → thermalR d flow false + 4 * (flow - 2000) = 36000)
      ∧ (1000 ≤ flow → flow ≤ 2000 → thermalR d flow false + 14 * (flow - 1000) = 50000))
    ∧ (∀ a b,
      let hot := max a b
      let limit := max 85 (min 105 (d.get Reg.THERM_LIMIT_C))
      let force := limit ≤ hot ∨ (d.pwr.limit = true ∧ limit < hot + 5)
      (hot < 115 → Gives (.junctionSample a b) s fun t => (t.pwr.limit = true ↔ force) ∧ t.get Reg.TJ_CD0_C = a ∧ t.get Reg.TJ_CD1_C = b
        ∧ (force → Counts Reg.THERM_LIMIT_TICKS 1 d t)
        ∧ (¬ force → t.get Reg.THERM_LIMIT_TICKS = d.get Reg.THERM_LIMIT_TICKS)
        ∧ Becomes [Reg.TJ_CD0_C, Reg.TJ_CD1_C, Reg.THERM_LIMIT_TICKS] { d with pwr := { d.pwr with limit := t.pwr.limit } } t)
      ∧ (115 ≤ hot → Gives (.junctionSample a b) s fun t => t.get Reg.RAS_FATAL = 1 ∧ (d.get Reg.RAS_FATAL = 0 →
          t.get Reg.RAS_FATAL_CAUSE = 1 ∧ t.tick.running = false ∧ t.host.fatal = true)))
    ∧ (let due := ∃ at_, d.pwr.disagreeAt = some at_ ∧ at_ + 60000000000 ≤ d.clock
      (d.pwr.disagreeAt = none → Gives (.flowAlarm true) s (Becomes [] { d with pwr := { d.pwr with disagree := false } }))
      ∧ (d.pwr.disagreeAt ≠ none → Gives (.flowAlarm true) s (Becomes [] d))
      ∧ ((d.pwr.disagree = true ∨ ¬ due) → Gives (.flowAlarm false) s (Becomes [] d))
      ∧ (d.pwr.disagree = false → due → Gives (.flowAlarm false) s fun t =>
        Becomes [Reg.THERM_FLOW_ALARMS] { d with pwr := { d.pwr with disagree := true } } t
        ∧ (d.pwr.lowFlow = false → Counts Reg.THERM_FLOW_ALARMS 1 d t)
        ∧ (d.pwr.lowFlow = true → t.get Reg.THERM_FLOW_ALARMS = d.get Reg.THERM_FLOW_ALARMS)))
    ∧ (let lost := fun t : Dev => t.get Reg.HOLDUP_STATE = 3 ∧ t.get Reg.FTL_PLP = 2 ∧ Counts Reg.HOLDUP_DISCHARGES 1 d t
        ∧ t.pwr.shed = true ∧ t.tick.running = false ∧ t.run.steps = [] ∧ t.run.carried = []
        ∧ (∀ n, (n < 32 ∨ n = 60 ∨ n = 65 ∨ n = 66) → domForced d n = none → t.get (Reg.DOM_STATE n) = 3)
        ∧ (∀ n, ((56 ≤ n ∧ n < 60) ∨ n = 67) → t.get (Reg.DOM_STATE n) = d.get (Reg.DOM_STATE n))
        ∧ (∀ x ∈ t.srch.indexes, x.build = none)
        ∧ t.mem = d.mem ∧ t.sess = d.sess ∧ t.kv = d.kv
      (∀ v, (44000000 ≤ v ∨ d.get Reg.HOLDUP_STATE = 3) → Gives (.inputLoss v) s (Becomes [] d))
      ∧ (∀ v, v < 44000000 → d.get Reg.HOLDUP_STATE ≠ 3 → (d.srch.indexes.map (·.handle)).Nodup → Gives (.inputLoss v) s lost)
      ∧ (∀ v, (v ≤ 56000 ∨ d.get Reg.HOLDUP_STATE = 3) → Gives (.inputOvervoltage v) s (Becomes [] d))
      ∧ (∀ v, 56000 < v → d.get Reg.HOLDUP_STATE ≠ 3 → (d.srch.indexes.map (·.handle)).Nodup → Gives (.inputOvervoltage v) s lost)
      ∧ (∀ v, Gives (.inputLow v) s fun t => (t.get (Reg.BLK_INT_STATUS 3) / 8 % 2 = 1 ↔ v < 48000)
        ∧ Becomes [] { d with pwr := { d.pwr with inputLow := decide (v < 48000) } } t))
    ∧ (let min_ := max 12 (min 80 (d.get Reg.HOLDUP_MIN_J))
      let due := d.get Reg.HOLDUP_C_MF = 0 ∨ d.pwr.lastMeas + max 1 (d.get Reg.HOLDUP_MEAS_HOURS) * 3600000000000 ≤ d.clock
      let able := d.get Reg.HOLDUP_STATE = 1 ∧ (d.get Reg.HOLDUP_C_MF = 0
        ∨ 10 * min_ ≤ holdupEnergy 15000 (d.get Reg.HOLDUP_C_MF * 1000) (d.get Reg.HOLDUP_ESR_UOHM))
      let starts := fun t : Dev => t.get Reg.HOLDUP_STATE = 2 ∧ Becomes [Reg.HOLDUP_STATE] { d with pwr := { d.pwr with
        measAt := d.clock
        lastMeas := d.clock } } t
      (¬ (due ∧ able) → Gives .holdupMeasureDue s (Becomes [] d))
      ∧ (due ∧ able → Gives .holdupMeasureDue s starts)
      ∧ (∀ via word, (mayWrite d via 3 = false ∨ word % 2 = 0 ∨ ¬ able) → Gives (.holdupMeasNow via word) s (Becomes [] d))
      ∧ (∀ via word, mayWrite d via 3 = true → word % 2 = 1 → able → Gives (.holdupMeasNow via word) s starts)
      ∧ (∀ onset fall, d.get Reg.HOLDUP_STATE ≠ 2 → Gives (.holdupMeasDone onset fall) s (Becomes [] d))
      ∧ (∀ onset fall, d.get Reg.HOLDUP_STATE = 2 → Gives (.holdupMeasDone onset fall) s fun t =>
        let esr := onset / 2
        let veff := 6000000 + 250 * esr / 6
        let energy := if 16000000 ≤ veff then 0
          else 2 * fall * (16000000 * 16000000 - veff * veff) * 10 / (2 * 1000000 * 1000000000000)
        t.get Reg.HOLDUP_C_MF = min 65535 (2 * fall / 1000) ∧ t.get Reg.HOLDUP_ESR_UOHM = esr % 4294967296
        ∧ t.get Reg.HOLDUP_E_DJ = min 65535 energy ∧ t.get Reg.HOLDUP_STATE = 0 ∧ Counts Reg.HOLDUP_MEASUREMENTS 1 d t
        ∧ Becomes [Reg.HOLDUP_C_MF, Reg.HOLDUP_ESR_UOHM, Reg.HOLDUP_E_DJ, Reg.HOLDUP_V_MV, Reg.HOLDUP_STATE, Reg.HOLDUP_MEASUREMENTS] d t)
      ∧ (d.get Reg.HOLDUP_STATE ≠ 0 → Gives .holdupCharged s (Becomes [] d))
      ∧ (d.get Reg.HOLDUP_STATE = 0 → Gives .holdupCharged s fun t => t.get Reg.HOLDUP_STATE = 1 ∧ t.get Reg.HOLDUP_V_MV = 16000
        ∧ Becomes [Reg.HOLDUP_STATE, Reg.HOLDUP_V_MV] d t))

/-- R597-R599, R601-R604, R607, R613-R616. -/
def Obligations.Security : Prop :=
  (∀ (c : HostCmd) (s : State), c.slot < 16 →
    let d := s.dev
    let u := taken c d
    let m := cmdOf d c
    let nothing := Leaves [Reg.HOST_CMDS_ACCEPTED c.slot] d
    let refused := fun (i : Instr) (st : Nat) => Gives i s fun t => nothing t ∧ Answers c st 0 0 d t
    let served := findSq d c.slot c.sq ≠ none
    let extended := fun (n : Nat) (digest : Bytes) => unle (sha256 (le 32 (d.get (Reg.SEC_MR n)) ++ digest)) % 2 ^ 256
    (Passes 0x80 c d →
      let i := d.sec.sigNext
      let report := attestReport (padTo 32 c.dataA) i u
      (c.lenB < 10812 → refused (.attest c) 0x0002)
      ∧ (10812 ≤ c.lenB → 2 ^ 40 ≤ i → refused (.attest c) 0x0807)
      ∧ (10812 ≤ c.lenB → i < 2 ^ 40 → Gives (.attest c) s fun t => Answers c 0 i 0 d t
        ∧ Leaves [Reg.HOST_CMDS_ACCEPTED c.slot, Reg.SEC_ATTEST_LEFT, Reg.SEC_ATTESTS] { d with sec := { d.sec with
            sigNext := i + 1
            sigEnd := t.sec.sigEnd
            lowPosted := t.sec.lowPosted } } t
        ∧ (i < d.sec.sigEnd → t.sec.sigEnd = d.sec.sigEnd) ∧ t.get Reg.SEC_ATTEST_LEFT = 2 ^ 40 - (i + 1) ∧ Counts Reg.SEC_ATTESTS 1 d t
        ∧ (2 ^ 40 - (i + 1) < 2 ^ 30 → t.sec.lowPosted = true)
        ∧ report.length = 608 ∧ fieldAt report 0 4 = 0x54415A53 ∧ (report.drop 384).take 32 = padTo 32 (padTo 32 c.dataA)
        ∧ fieldAt report 424 8 = i
        ∧ (served → ∃ sig : Bytes, sig.length = 10204 ∧ Sent (.hostWrite c.slot c.addrB (report ++ sig)) d t)))
    ∧ (Passes 0x81 c d → Gives (.attestCert c) s fun t => nothing t
        ∧ Answers c 0 (Config.attestCert.take c.lenB).length 0 d t
        ∧ (served → Sent (.hostWrite c.slot c.addrB (Config.attestCert.take c.lenB)) d t))
    ∧ (Passes 0x82 c d → Gives (.measureExtend c) s fun t => Answers c 0 0 0 d t
        ∧ t.get (Reg.SEC_MR 7) = extended 7 (padTo 32 c.dataA) ∧ Leaves [Reg.HOST_CMDS_ACCEPTED c.slot, Reg.SEC_MR 7] d t)
    ∧ (Passes 0x83 c d → ∀ l, Config.imageSet (padTo c.lenA c.dataA) = l →
      let bad := l = [] ∨ ∃ f ∈ l, imageSound f = false
      let old := ∃ f ∈ l, f.svn < (d.sec.rollback[f.kind]?).getD 0
      (bad → Gives (.fwStage c) s fun t => Answers c 0x0800 0 0 d t ∧ Counts Reg.SEC_SIG_FAIL 1 d t
        ∧ Leaves [Reg.HOST_CMDS_ACCEPTED c.slot, Reg.SEC_SIG_FAIL] d t)
      ∧ (¬ bad → old → refused (.fwStage c) 0x0801)
      ∧ (¬ bad → ¬ old → d.sec.staging ≠ none → refused (.fwStage c) 0x0802)
      ∧ (¬ bad → ¬ old → d.sec.staging = none → Gives (.fwStage c) s fun t => t.sec.bankA = d.sec.bankA ∧ t.sec.bankB = d.sec.bankB
        ∧ (∃ at_, d.clock ≤ at_ ∧ t.sec.staging = some (m, l.map (fun f => ⟨f.kind, f.svn, f.digest⟩), at_))
        ∧ t.mem = d.mem ∧ t.sess = d.sess ∧ t.kv = d.kv))
    ∧ (Passes 0x84 c d →
      (2 ≤ argAt c 48 1 → refused (.fwActivate c) 0x0002)
      ∧ (argAt c 48 1 < 2 → Gives (.fwActivate c) s fun t => Answers c 0 0 0 d t
        ∧ Leaves [Reg.HOST_CMDS_ACCEPTED c.slot] { d with sec := { d.sec with active := argAt c 48 1 } } t))
    ∧ (Passes 0x85 c d → Gives (.fwCommit c) s fun t => Answers c 0 0 0 d t ∧ t.sec.rollback.length = d.sec.rollback.length
        ∧ (∀ (k a : Nat), d.sec.rollback[k]? = some a → t.sec.rollback[k]? = some (max a ((assocGet d.sec.running k).getD 0)))
        ∧ t.get (Reg.SEC_MR 6) = extended 6 (sha256 (Config.mr6Record 0x85 d.now))
        ∧ Leaves [Reg.HOST_CMDS_ACCEPTED c.slot, Reg.SEC_MR 6] { d with sec := { d.sec with rollback := t.sec.rollback } } t)
    ∧ (Passes 0x86 c d →
      let ring := argAt c 48 1
      let k := argAt c 49 1
      let present := if ring = 0 then d.get Reg.SEC_TENANT_PRESENT else d.get Reg.SEC_FABRIC_PRESENT
      let retired := if ring = 0 then Reg.SEC_TENANT_RETIRED else Reg.SEC_FABRIC_RETIRED
      let inRange := ring < 2 ∧ k < (if ring = 0 then 64 else 16)
      let named := if ring = 0 then
          (∃ n, n < 16 ∧ (d.get (Reg.SLOT_STATE n) = 1 ∨ d.get (Reg.SLOT_STATE n) = 2) ∧ d.get (Reg.SLOT_KEY n) = k)
          ∨ (∃ p, p < 8 ∧ d.get (Reg.SEC_PART_KEY p) = 64 + k) ∨ ∃ x ∈ d.fab.extents, x.keySlot = k
        else ∃ p, p < 16 ∧ (d.get (Reg.KEY_SLOT p) = k ∨ d.get (Reg.KEY_NEXT p) = k)
      (¬ inRange → refused (.keyRetire c) 0x0002)
      ∧ (inRange → present / 2 ^ k % 2 = 0 → refused (.keyRetire c) 0x0803)
      ∧ (inRange → present / 2 ^ k % 2 = 1 → d.get retired / 2 ^ k % 2 = 1 → refused (.keyRetire c) 0x0804)
      ∧ (inRange → present / 2 ^ k % 2 = 1 → d.get retired / 2 ^ k % 2 = 0 → named → refused (.keyRetire c) 0x0805)
      ∧ (inRange → present / 2 ^ k % 2 = 1 → d.get retired / 2 ^ k % 2 = 0 → ¬ named → d.get retired < 2 ^ retired.width →
        Gives (.keyRetire c) s fun t => Answers c 0 0 0 d t ∧ t.get retired = d.get retired + 2 ^ k
          ∧ (if ring = 0 then t.sec.tenantRetired else t.sec.fabricRetired) = d.get retired + 2 ^ k
          ∧ t.get (Reg.SEC_MR 6) = extended 6 (sha256 (Config.mr6Record 0x86 d.now))
          ∧ t.sec.rollback = d.sec.rollback ∧ t.sec.sigNext = d.sec.sigNext ∧ t.mem = d.mem ∧ t.sess = d.sess ∧ t.kv = d.kv)))
  ∧ (∀ (token : Bytes) (s : State),
    let d := s.dev
    let stage := d.get Reg.GLB_BOOT_STAGE
    ((stage < 3 ∨ stage = 7 ∨ d.sec.nonce = none) → Gives (.debugUnlock token) s (Becomes [] d))
    ∧ (∀ n ok, 3 ≤ stage → stage ≠ 7 → d.sec.nonce = some n →
      Config.tokenOk (d.get Reg.GLB_SERIAL_LO + 2 ^ 64 * d.get Reg.GLB_SERIAL_HI) n token = ok →
      (ok = true → Gives (.debugUnlock token) s fun t => t.sec.keysOff = true ∧ t.sec.nonce = none ∧ t.get Reg.SEC_DEBUG_UNLOCKED = 1
        ∧ t.get (Reg.SEC_MR 6) = unle (sha256 (le 32 (d.get (Reg.SEC_MR 6)) ++ sha256 (Config.mr6Record 0 d.now))) % 2 ^ 256
        ∧ Becomes [Reg.SEC_MR 6, Reg.SEC_DEBUG_UNLOCKED] { d with sec := t.sec } t)
      ∧ (ok = false → Gives (.debugUnlock token) s fun t => Counts Reg.SEC_SIG_FAIL 1 d t ∧ Becomes [Reg.SEC_SIG_FAIL] d t)))
  ∧ (∀ (d : Dev) (m : Cmd) (l : List Image) (at_ : Nat), d.sec.staging = some (m, l, at_) →
    (d.clock < at_ → stageDone d = d)
    ∧ (at_ ≤ d.clock → (stageDone d).sec = (if d.get Reg.SEC_FW_BANK = 0 then { d.sec with
          bankB := l
          staging := none }
        else { d.sec with
          bankA := l
          staging := none }) ∧ Closes m 0 0 0 d (stageDone d)))

/-- R620-R623, R626-R632, R635. -/
def Obligations.Reliability : Prop :=
  (∀ (c : HostCmd) (s : State), c.slot < 16 →
    let d := s.dev
    let m := cmdOf d c
    let nothing := Leaves [Reg.HOST_CMDS_ACCEPTED c.slot] d
    let refused := fun (i : Instr) (st : Nat) => Gives i s fun t => nothing t ∧ Answers c st 0 0 d t
    let served := findSq d c.slot c.sq ≠ none
    (Passes 0x88 c d →
      let k := argAt c 48 1
      let u := argAt c 49 2
      let has := (k = 1 ∧ u < 512) ∨ (k = 2 ∧ u / 16 < 16 ∧ u % 16 < 9) ∨ (k = 3 ∧ u < 32)
      (¬ has → refused (.selftest c) 0x0002)
      ∧ (has → Gives (.selftest c) s fun t => (∃ r, r.kind = k ∧ r.cmd = some m ∧ r.length = (if k = 3 then 175000 else 40000)
          ∧ Leaves [Reg.HOST_CMDS_ACCEPTED c.slot] { d with tick := { d.tick with maint := d.tick.maint ++ [r] } } t)))
    ∧ (Passes 0x89 c d →
      let first := argAt c 48 8
      let seq := d.get Reg.RAS_LOG_SEQ
      let have_ := min d.ras.log.length (if first ≤ seq then seq + 1 - max 1 first else 0)
      let n := min have_ (c.lenA / 64)
      Gives (.errlogRead c) s fun t => nothing t ∧ Answers c 0 n 0 d t
        ∧ (served → ∃ b : Bytes, b.length = 64 * n ∧ Sent (.hostWrite c.slot c.addrA b) d t
          ∧ ∀ i < n, ∀ r, d.ras.log[have_ - 1 - i]? = some r → (b.drop (64 * i)).take 64 = errRecBytes r))
    ∧ (Passes 0x8A c d →
      (d.ras.dump = none → refused (.dumpRead c) 0x0902)
      ∧ (∀ x, d.ras.dump = some x → Gives (.dumpRead c) s fun t => nothing t
        ∧ Answers c 0 (min c.lenA (268435456 - argAt c 48 8)) 0 d t
        ∧ (served → Sent (.hostWrite c.slot c.addrA (((dumpBytes x).drop (argAt c 48 8)).take c.lenA)) d t)))
    ∧ (Passes 0x8B c d →
      (d.ras.dump = none → refused (.dumpClear c) 0x0902)
      ∧ (d.ras.dump ≠ none → Gives (.dumpClear c) s fun t => Answers c 0 0 0 d t ∧ t.get Reg.RAS_DUMP_PRESENT = 0
        ∧ Leaves [Reg.HOST_CMDS_ACCEPTED c.slot, Reg.RAS_DUMP_PRESENT] { d with ras := { d.ras with dump := none } } t))
    ∧ (Passes 0x8C c d →
      let k := argAt c 48 1
      let addr := argAt c 56 8
      let stack := addr / 2 ^ 36 % 8
      (2 < k → refused (.errInject c) 0x0002)
      ∧ (k ≤ 2 → d.get Reg.RAS_INJECT_EN ≠ 1 → refused (.errInject c) 0x0903)
      ∧ (k = 0 → d.get Reg.RAS_INJECT_EN = 1 → Gives (.errInject c) s fun t => Answers c 0 0 0 d t
        ∧ Counts Reg.RAS_CE 1 d t ∧ Counts (Reg.HBM_CE stack) 1 d t
        ∧ (¬ (∃ u ∈ d.ras.ceUnits, u.page = 0x50 + stack ∧ u.unit = argAt c 49 2) → ∃ r, t.ras.log.head? = some r
          ∧ r.code = 0x0910 ∧ r.cls = 0 ∧ r.injected = true ∧ r.page = 0x50 + stack ∧ r.unit = argAt c 49 2 ∧ r.addr = addr ∧ r.time = d.now)
        ∧ t.mem = d.mem ∧ t.sess = d.sess ∧ t.kv = d.kv ∧ t.run = d.run)
      ∧ (k = 1 → d.get Reg.RAS_INJECT_EN = 1 →
        let g := argAt c 49 2 % 128
        let errors := (d.ras.galErrors.countP fun e => decide (e.1 = g ∧ d.clock < e.2 + 86400000000000)) + 1
        let limit := max 1 (d.get Reg.RAS_GAL_UE_LIMIT)
        stepsOn d g = [] → Gives (.errInject c) s fun t => Answers c 0 0 0 d t ∧ Counts Reg.RAS_STEP_ERR 1 d t
          ∧ (errors < limit ∨ g ∈ d.ras.retired → ∃ r, t.ras.log.head? = some r ∧ r.cls = 1 ∧ r.code = 0x0914 ∧ r.injected = true)
          ∧ (limit ≤ errors → g ∈ t.ras.retired)
          ∧ t.mem = d.mem ∧ t.sess = d.sess ∧ t.kv = d.kv ∧ t.run = d.run)
      ∧ (k = 2 → d.get Reg.RAS_INJECT_EN = 1 → inTables d addr = false →
        (∀ p ∈ d.kv.pages, ¬ (p.tier = 1 ∧ p.loc ≤ addr ∧ addr < p.loc + pageSize p)) →
        (∀ g ∈ d.tier.granules, ¬ (g.tier = 1 ∧ g.loc ≤ addr ∧ addr < g.loc + granuleBytes)) →
        Gives (.errInject c) s fun t => Answers c 0 0 0 d t ∧ Counts (Reg.HBM_UE stack) 1 d t
          ∧ (∃ r, t.ras.log.head? = some r ∧ r.cls = 2 ∧ r.code = 0x0911 ∧ r.injected = true ∧ r.addr = addr)
          ∧ t.mem = d.mem ∧ t.sess = d.sess ∧ t.kv = d.kv ∧ t.run = d.run)))
  ∧ (∀ (s : State) (stack line : Nat),
    let d := s.dev
    let addr := stack * 2 ^ 36 + line * 64 % 2 ^ 36
    let row := fun f => Instr.hbmPatrolScrub stack line f
    let pages := d.kv.pages.filter fun p => decide (p.tier = 1 ∧ p.loc ≤ addr ∧ addr < p.loc + pageSize p)
    let grans := d.tier.granules.filter fun g => decide (g.tier = 1 ∧ g.loc ≤ addr ∧ addr < g.loc + granuleBytes)
    let object := fun t : Dev => Counts (Reg.HBM_SCRUB_LINES stack) 1 d t ∧ Counts (Reg.HBM_UE stack) 1 d t
      ∧ t.get (Reg.HBM_RETIRED_KIB stack) = (d.get (Reg.HBM_RETIRED_KIB stack) + 4) % 2 ^ (Reg.HBM_RETIRED_KIB stack).width
      ∧ t.get Reg.RAS_HBM_RETIRED_KIB = (d.get Reg.RAS_HBM_RETIRED_KIB + 4) % 2 ^ 64
    (∀ f, 8 ≤ stack → Gives (row f) s (Becomes [] d))
    ∧ (stack < 8 → Gives (row .clean) s fun t => Counts (Reg.HBM_SCRUB_LINES stack) 1 d t ∧ Becomes [Reg.HBM_SCRUB_LINES stack] d t)
    ∧ (stack < 8 → Gives (row .corrected) s fun t => Counts (Reg.HBM_SCRUB_LINES stack) 1 d t ∧ Counts (Reg.HBM_CE stack) 1 d t
        ∧ Counts Reg.RAS_CE 1 d t
        ∧ Becomes [Reg.HBM_SCRUB_LINES stack, Reg.HBM_CE stack, Reg.RAS_CE, Reg.RAS_LOG_SEQ, Reg.BLK_ERR_LOG (0x50 + stack)]
            { d with
              ras := { d.ras with
                log := t.ras.log
                ceUnits := t.ras.ceUnits }
              free := t.free } t)
    ∧ (stack < 8 → inTables d addr = true → d.get Reg.RAS_FATAL = 0 → Gives (row .uncorrectable) s fun t =>
        t.get Reg.RAS_FATAL = 1 ∧ t.get Reg.RAS_FATAL_CAUSE = 0 ∧ t.tick.running = false ∧ t.host.fatal = true)
    ∧ (stack < 8 → inTables d addr = false →
      (∀ p, pages = [p] → grans = [] → findPage d p.id = some p → p.backTier ≠ 0xFF → p.backTier ≠ 1 → pageReaders d p.id = [] →
        Gives (row .uncorrectable) s fun t => object t ∧ Counts Reg.RAS_OBJ_RECOVERED 1 d t ∧ t.sess = d.sess ∧ t.mem = d.mem
          ∧ ∃ q, findPage t p.id = some q ∧ q.tier = p.backTier ∧ q.loc = p.backLoc ∧ q.backTier = 0xFF)
      ∧ (∀ p v, pages = [p] → grans = [] → findPage d p.id = some p → (p.backTier = 0xFF ∨ p.backTier = 1) →
        objView d (.page p.id) = some v → remoteCopies d v = [] → (∀ x ∈ d.sess.descs, ∀ e ∈ x.table, e.page ≠ p.id) →
        Gives (row .uncorrectable) s fun t => object t ∧ Counts Reg.RAS_OBJ_LOST 1 d t ∧ t.sess = d.sess ∧ t.mem = d.mem)
      ∧ (∀ g v, pages = [] → grans = [g] → g.hostWindow = false → findGranule d g.part g.idx = some g →
        (g.backTier = 0xFF ∨ g.backTier = 1) → objView d (.granule g.part g.idx) = some v → remoteCopies d v = [] →
        Gives (row .uncorrectable) s fun t => object t ∧ Counts Reg.RAS_OBJ_LOST 1 d t ∧ t.sess = d.sess ∧ t.mem = d.mem
          ∧ ∃ q, findGranule t g.part g.idx = some q ∧ q.lost = true)
      ∧ (∀ g, pages = [] → grans = [g] → g.hostWindow = true →
        let a := (g.idx * granuleBytes + (addr - g.loc)) / 64 * 64
        a + 64 ≤ 2 ^ 52 → Gives (row .uncorrectable) s fun t => object t ∧ readRange t g.part a 64 = zeros 64
          ∧ (∀ p b, b < 2 ^ 52 → (p ≠ g.part ∨ b < a ∨ a + 64 ≤ b) → readRange t p b 1 = readRange d p b 1)
          ∧ t.mem.export_ = d.mem.export_ ∧ t.sess = d.sess ∧ t.kv = d.kv)))
  ∧ (∀ (s : State) (stack ch lines retired : Nat),
    let d := s.dev
    let due := stack < 8 ∧ (max 1 (d.get Reg.RAS_HBM_CE_LIMIT) ≤ lines ∨ 64 ≤ retired)
      ∧ ¬ ∃ x ∈ d.ras.spareCopies, x.stack = stack ∧ x.channel = ch
    (¬ due → Gives (.hbmSpareCopy stack ch lines retired) s (Becomes [] d))
    ∧ (due → d.get (Reg.HBM_STATE stack) ≠ 0 → Gives (.hbmSpareCopy stack ch lines retired) s (Becomes [] d))
    ∧ (due → d.get (Reg.HBM_STATE stack) = 0 → Gives (.hbmSpareCopy stack ch lines retired) s fun t => t.get (Reg.HBM_STATE stack) = 1
        ∧ Becomes [Reg.HBM_STATE stack] { d with ras := { d.ras with spareCopies := d.ras.spareCopies ++ [⟨stack, ch, false⟩] } } t)
    ∧ (let copying := ∃ x ∈ d.ras.spareCopies, x.stack = stack ∧ x.done = false
      let guard := d.tick.running = false ∨ d.tick.sealed = true
      (¬ (copying ∧ guard) → Gives (.hbmSpareSwitch stack) s (Becomes [] d))
      ∧ (stack < 8 → copying → guard → Gives (.hbmSpareSwitch stack) s fun t => t.get (Reg.HBM_STATE stack) = 2
        ∧ t.get Reg.RAS_SPARE_HBM_USED / 2 ^ stack % 2 = 1 ∧ Counts Reg.RAS_SPARES_USED 1 d t
        ∧ (∃ r, t.ras.log.head? = some r ∧ r.code = 0x091A ∧ r.cls = 3 ∧ r.page = 0x50 + stack)
        ∧ t.mem = d.mem ∧ t.sess = d.sess ∧ t.kv = d.kv)))
  ∧ (∀ (s : State),
    let d := s.dev
    let h := d.get Reg.RAS_GAL_TEST_HOURS
    let due := h ≠ 0 ∧ d.ras.lastQuadAt + h * 3600000000000 / 32 ≤ d.clock
    (¬ due → Gives .quadSelftestDue s (Becomes [] d))
    ∧ (due → Gives .quadSelftestDue s fun t => ∃ r, r.kind = 3 ∧ r.sub = d.ras.nextQuad ∧ r.length = 175000 ∧ r.cmd = none
        ∧ Becomes [] { d with
            ras := { d.ras with
              nextQuad := (d.ras.nextQuad + 1) % 32
              lastQuadAt := d.clock }
            tick := { d.tick with maint := d.tick.maint ++ [r] } } t))
  ∧ (∀ (s : State),
    let d := s.dev
    let fatal := fun (cause : Nat) (t : Dev) => t.get Reg.RAS_FATAL = 1 ∧ t.get Reg.RAS_FATAL_CAUSE = cause ∧ t.get Reg.GLB_BOOT_STAGE = 9
      ∧ t.tick.running = false ∧ t.tick.plan = none ∧ t.run.steps = [] ∧ t.host.fatal = true ∧ t.pwr.shed = true
      ∧ (∃ x, t.ras.dump = some x ∧ x.cause = cause ∧ x.tick = d.get Reg.TICK_NOW ∧ x.time = d.now ∧ x.sqs = d.host.sqs)
      ∧ (∀ n, n < 32 → domForced d n = none → t.get (Reg.DOM_STATE n) = 3)
      ∧ t.mem = d.mem ∧ t.sess = d.sess ∧ t.kv = d.kv
    (∀ n, (5 ≤ n ∨ d.get Reg.RAS_FATAL = 1) → Gives (.fatalError n) s (Becomes [] d))
    ∧ (∀ n, n < 5 → d.get Reg.RAS_FATAL ≠ 1 → Gives (.fatalError n) s fun t => fatal n t
        ∧ ∃ r, t.ras.log.head? = some r ∧ r.code = 0x091B ∧ r.cls = 4 ∧ r.unit = n)
    ∧ (∀ core,
      let earlier := d.ras.restarts.countP fun r => decide (r.1 = core ∧ d.clock < r.2 + 60000000000)
      (d.get Reg.RAS_FATAL = 1 → Gives (.watchdogExpire core) s (Becomes [] d))
      ∧ (d.get Reg.RAS_FATAL ≠ 1 → earlier < 2 → Gives (.watchdogExpire core) s fun t => Counts Reg.RAS_WATCHDOG_RESTARTS 1 d t
        ∧ (core, d.clock) ∈ t.ras.restarts ∧ Becomes [Reg.RAS_WATCHDOG_RESTARTS, Reg.RAS_LOG_SEQ, Reg.BLK_ERR_LOG 6] { d with ras := t.ras } t)
      ∧ (d.get Reg.RAS_FATAL ≠ 1 → 2 ≤ earlier → Gives (.watchdogExpire core) s fun t => Counts Reg.RAS_WATCHDOG_RESTARTS 1 d t ∧ fatal 3 t)))

/-- R593, R599, R637-R646, R648, R672. -/
def Obligations.StartUp : Prop :=
  (∀ (s : State),
    let d := s.dev
    let emptied := fun t : Dev => t.sess = SessSt.reset ∧ t.kv = KvSt.reset ∧ t.run = RunSt.reset ∧ t.tick = Dev.reset.tick
      ∧ t.host = Dev.reset.host ∧ t.newel = Dev.reset.newel ∧ t.tier = TierSt.reset ∧ t.text = TextSt.reset ∧ t.mem.range = []
      ∧ t.flash.map = d.flash.map ∧ t.flash.runs = d.flash.runs ∧ t.flash.writes = []
      ∧ t.sec.bankA = d.sec.bankA ∧ t.sec.bankB = d.sec.bankB ∧ t.sec.active = d.sec.active ∧ t.sec.rollback = d.sec.rollback
      ∧ t.sec.sigNext = d.sec.sigEnd ∧ t.ras.log = [] ∧ t.boot.retired = d.boot.retired
    let bootFields := [Reg.GLB_BOOT_STAGE, Reg.SEC_FW_BANK, Reg.SEC_TENANT_PRESENT, Reg.SEC_TENANT_RETIRED, Reg.SEC_FABRIC_PRESENT,
      Reg.SEC_FABRIC_RETIRED, Reg.SEC_ATTEST_LEFT, Reg.SEC_MR 0, Reg.HOLDUP_STATE, Reg.HOLDUP_E_DJ]
    let restored := fun (fs : List Field) (t : Dev) => (∀ f, follows f = false → (∀ g ∈ keptFields ++ fs, f.key ≠ g.key) → t.get f = f.reset)
      ∧ ∀ g ∈ keptFields, d.get g < 2 ^ g.width → t.get g = d.get g
    (Gives .coldReset s fun t => emptied t ∧ restored [] t ∧ t.get Reg.GLB_BOOT_STAGE = 0
        ∧ (∀ x, d.ras.dump = some x → t.ras.dump = if x.mirrored then some x else none))
    ∧ (Gives .moduleReset s fun t => emptied t ∧ restored bootFields t ∧ t.get Reg.GLB_BOOT_STAGE = 1 ∧ t.ras.dump = d.ras.dump
        ∧ t.get Reg.SEC_FW_BANK = d.sec.active % 2 ∧ t.get Reg.HOLDUP_E_DJ = d.get Reg.HOLDUP_E_DJ % 2 ^ Reg.HOLDUP_E_DJ.width
        ∧ t.sec.nonce ≠ none ∧ t.boot.rails = 5 ∧ t.get (Reg.SEC_MR 0) = unle (sha256 (zeros 32 ++ Config.romDigest)) % 2 ^ 256)
    ∧ (Gives .hostLinkReset s fun t => t.host.linkUp = false ∧ t.get Reg.GLB_BOOT_STAGE = d.get Reg.GLB_BOOT_STAGE
        ∧ (∀ n, n < 16 → (d.get (Reg.SLOT_STATE n) = 1 ∨ d.get (Reg.SLOT_STATE n) = 2) → t.get (Reg.SLOT_STATE n) = 3)
        ∧ ((∀ n, n < 16 → d.get (Reg.SLOT_STATE n) ≠ 1 ∧ d.get (Reg.SLOT_STATE n) ≠ 2) →
          Becomes [] { d with host := { d.host with linkUp := false } } t)))
  ∧ (∀ (s : State),
    let d := s.dev
    let deadline := fun r => match r with
      | 1 => 5000000
      | 2 => 10000000
      | 3 => 18000000
      | 4 => 24000000
      | _ => 30000000
    let power := d.get Reg.GLB_BOOT_STAGE = 0 ∧ d.boot.rails < 5
    (∀ rail,
      let good := power ∧ rail = d.boot.rails + 1 ∧ d.boot.railsAt ≤ d.clock ∧ d.clock ≤ d.boot.railsAt + deadline rail
      (¬ good → Gives (.railPowerGood rail) s (Becomes [] d))
      ∧ (good → rail < 5 → Gives (.railPowerGood rail) s (Becomes [] { d with boot := { d.boot with rails := rail } }))
      ∧ (good → rail = 5 → Gives (.railPowerGood rail) s fun t => t.boot.rails = 5 ∧ t.get Reg.GLB_BOOT_STAGE = 1 ∧ t.now = 0
        ∧ t.sec.nonce ≠ none ∧ t.get (Reg.SEC_MR 0) = unle (sha256 (le 32 (d.get (Reg.SEC_MR 0)) ++ Config.romDigest)) % 2 ^ 256))
    ∧ (let late := power ∧ d.boot.railsAt + deadline (d.boot.rails + 1) < d.clock
      (¬ late → Gives .powerGoodTimeout s (Becomes [] d))
      ∧ (late → Gives .powerGoodTimeout s (Becomes [] { d with boot := { d.boot with
          rails := 0
          railsAt := d.boot.railsAt + 1000000000 } }))))
  ∧ (∀ (image : Nat) (f : ImageFile) (s : State),
    let d := s.dev
    let order : List Nat := [1, 2, 3, 3, 3, 3, 4]
    let due := (d.get Reg.GLB_BOOT_STAGE = 1 ∨ d.get Reg.GLB_BOOT_STAGE = 2) ∧ d.boot.verified.length < 7
      ∧ order[d.boot.verified.length]? = some image ∧ inBank d f = true
    let sound := imageSound f = true ∧ f.kind = image ∧ (image = 4 → recordOk d f.body = true)
    let old := f.svn < (d.sec.rollback[f.kind]?).getD 0
    let fails := fun (st : Nat) (t : Dev) =>
      (d.boot.fallback = true → t.get Reg.GLB_BOOT_STAGE = 7 ∧ t.boot.failImage = image ∧ t.boot.failStatus = st ∧ t.sec = d.sec)
      ∧ (d.boot.fallback = false → t.get Reg.GLB_BOOT_STAGE = 2 ∧ t.boot.fallback = true ∧ t.boot.verified = []
        ∧ (d.get Reg.SEC_FW_BANK ≤ 1 → t.get Reg.SEC_FW_BANK = 1 - d.get Reg.SEC_FW_BANK) ∧ t.get Reg.SEC_FW_FALLBACK = 1)
      ∧ ∀ i, i < 8 → i ≠ 5 → t.get (Reg.SEC_MR i) = d.get (Reg.SEC_MR i)
    (¬ due → d.boot.verified.length < 7 → Gives (.imageVerified image f) s (Becomes [] d))
    ∧ (due → ¬ sound → Gives (.imageVerified image f) s fun t => fails 0x0800 t ∧ Counts Reg.SEC_SIG_FAIL 1 d t)
    ∧ (due → sound → old → Gives (.imageVerified image f) s fun t => fails 0x0801 t ∧ t.get Reg.SEC_SIG_FAIL = d.get Reg.SEC_SIG_FAIL)
    ∧ (due → sound → ¬ old → Gives (.imageVerified image f) s fun t => t.boot.verified = d.boot.verified ++ [image]
        ∧ t.get (Reg.SEC_MR image) = unle (sha256 (le 32 (d.get (Reg.SEC_MR image)) ++ f.digest)) % 2 ^ 256
        ∧ assocGet t.sec.running image = some f.svn
        ∧ (image < 4 → t.get Reg.GLB_BOOT_STAGE = d.get Reg.GLB_BOOT_STAGE)
        ∧ (image = 4 →
          let b := f.body
          let off := [byteAt b 24, byteAt b 25, byteAt b 26, byteAt b 27]
          t.get Reg.GLB_BOOT_STAGE = 3 ∧ t.get Reg.GLB_VARIANT = byteAt b 6
          ∧ t.get Reg.GLB_SERIAL_LO + 2 ^ 64 * t.get Reg.GLB_SERIAL_HI = fieldAt b 8 16 ∧ t.get Reg.GLB_LOT = fieldAt b 40 8
          ∧ t.boot.mgmtMac = fieldAt b 30 6 ∧ t.get Reg.NT0_POWER_MODE = fieldAt b 28 2 / 32 % 4
          ∧ (d.boot.retired = [] → t.get Reg.RAS_SPARE_GAL_CD0 = 2 ∧ t.get Reg.RAS_SPARE_GAL_CD1 = 2 ∧ t.get Reg.GLB_QUAD_UNAVAIL = 0
            ∧ ∀ g, g < 132 → (t.get (Reg.GLB_GAL_ENABLED (g / 64)) / 2 ^ (g % 64) % 2 = 1 ↔ g ∉ off)
              ∧ (g ∉ off → t.get (Reg.GAL_PHYS g) = g ∧ t.get (Reg.GAL_LOGICAL g) = g - off.countP (fun o => decide (o < g))
                ∧ t.get (Reg.GAL_QUAD g) = (g - off.countP (fun o => decide (o < g))) / 4))
          ∧ t.sess = d.sess ∧ t.mem = d.mem ∧ t.flash = d.flash)))
  ∧ (∀ (failed : List Nat) (trained : Bool) (s : State),
    let d := s.dev
    let bad := fun f => f ∈ failed ∧ f < 512
    let fits := trained = true ∧ ∀ f g, bad f → bad g → f / 64 = g / 64 → f = g
    (d.get Reg.GLB_BOOT_STAGE ≠ 3 → Gives (.hbmTrainingDone failed trained) s (Becomes [] d))
    ∧ (d.get Reg.GLB_BOOT_STAGE = 3 → ¬ fits → Gives (.hbmTrainingDone failed trained) s fun t => t.get Reg.GLB_BOOT_STAGE = 8
        ∧ Becomes [Reg.GLB_BOOT_STAGE] d t)
    ∧ (d.get Reg.GLB_BOOT_STAGE = 3 → fits → Gives (.hbmTrainingDone failed trained) s fun t =>
        t.boot.hbmTrained = true ∧ t.get Reg.GLB_BOOT_STAGE = (if d.isM0 then 6 else 5)
        ∧ (∀ f, bad f → t.get (Reg.HBM_STATE (f / 64)) = 2 ∧ t.get Reg.RAS_SPARE_HBM_USED / 2 ^ (f / 64) % 2 = 1)
        ∧ (∀ i, i < 8 → (∀ f, bad f → f / 64 ≠ i) → t.get (Reg.HBM_STATE i) = d.get (Reg.HBM_STATE i))
        ∧ t.get Reg.STW_T1_POOL = (549755813888 - d.get Reg.STW_T1_FIXED - 1024 * d.get Reg.RAS_HBM_RETIRED_KIB) % 2 ^ Reg.STW_T1_POOL.width
        ∧ t.get Reg.STW_T1_FREE ≤ t.get Reg.STW_T1_POOL
        ∧ t.sess = d.sess ∧ t.mem = d.mem ∧ t.flash = d.flash))
  ∧ (∀ (s : State),
    let d := s.dev
    (d.get Reg.GLB_BOOT_STAGE ≠ 5 → Gives .flashLoadDone s (Becomes [] d))
    ∧ (d.get Reg.GLB_BOOT_STAGE = 5 → Gives .flashLoadDone s fun t => t.get Reg.GLB_BOOT_STAGE = 6 ∧ t.boot.flashLoaded = true
        ∧ t.get Reg.RAS_DUMP_PRESENT = (if d.ras.dump.isSome then 1 else 0)
        ∧ (∀ c, c < 32 → (∀ x ∈ d.flash.donors, x.1 / 32 ≠ c) → t.get (Reg.FLC_SPARE_BLOCKS c) = 512)
        ∧ t.flash = d.flash ∧ t.sess = d.sess ∧ t.mem = d.mem))

/-- R83, R116, R646, R656-R660, R663. -/
def Obligations.RegisterAccesses : Prop :=
  (∀ (d : Dev) (n page : Nat), mayWrite d (.slot n) page = true → d.host.fatal = false ∧ pageAbsent d page = false
    ∧ ((page ∈ [0, 1, 2, 3, 4, 6, 0x42] ∧ d.get (Reg.SLOT_ADMIN n) = 1 ∧ d.get (Reg.SLOT_STATE n) ≠ 0) ∨ page = 0x10 + n
      ∨ (d.get (Reg.SLOT_STATE n) ≠ 0 ∧ page = 8 + d.get (Reg.SLOT_PART n))))
  ∧ (∀ (via : Via) (page : Nat) (s : State),
    let d := s.dev
    let opens := mayWrite d via page = true
    let closed := mayWrite d via page = false
    let bit := fun (t : Dev) (i : Nat) => t.get (Reg.BLK_INT_STATUS page) / 2 ^ i % 2 = 1
    let plain := page ≠ 0 ∧ page ≠ 3 ∧ page ≠ 0x80
    (closed → Gives (.lockWrite via page) s (Becomes [] d))
    ∧ (opens → Gives (.lockWrite via page) s fun t => t.get (Reg.LOCK page) = 1 ∧ Becomes [Reg.LOCK page] d t)
    ∧ (mayWrite d via 0 = false → Gives (.glbLockAll via) s (Becomes [] d))
    ∧ (mayWrite d via 0 = true → Gives (.glbLockAll via) s fun t => (∀ p ∈ pagesInUse, t.get (Reg.LOCK p) = 1)
        ∧ Becomes (pagesInUse.map Reg.LOCK) d t)
    ∧ (closed → Gives (.cntClear via page) s (Becomes [] d))
    ∧ (opens → Gives (.cntClear via page) s fun t =>
        (∀ f ∈ pageFields page, f.acc = .cnt → follows f = false → t.counter f = 0)
        ∧ Becomes ((pageFields page).filter fun f => f.acc == .cnt) d t)
    ∧ (∀ mask, closed → Gives (.blkIntStatusW1c via page mask) s (Becomes [] d) ∧ Gives (.blkIntSet via page mask) s (Becomes [] d))
    ∧ (∀ mask, opens → Gives (.blkIntStatusW1c via page mask) s fun t => Becomes [] d t
        ∧ ∀ i, i < 32 → (bit d i → mask / 2 ^ i % 2 = 0 → bit t i) ∧ (plain → bit t i → bit d i ∧ mask / 2 ^ i % 2 = 0))
    ∧ (∀ mask k n, opens → pageKind page = some (k, n) → Gives (.blkIntSet via page mask) s fun t => Becomes [] d t
        ∧ ∀ i, i < 32 → (bit d i ∨ (mask / 2 ^ i % 2 = 1 ∧ intMask k / 2 ^ i % 2 = 1) → bit t i)
          ∧ (plain → bit t i → bit d i ∨ (mask / 2 ^ i % 2 = 1 ∧ intMask k / 2 ^ i % 2 = 1)))
    ∧ (∀ o, o < 4096 → closed → Gives (.counterWriteClear via (page * 4096 + o)) s (Becomes [] d))
    ∧ (∀ o, o < 4096 → opens → Gives (.counterWriteClear via (page * 4096 + o)) s fun t =>
        (∀ f ∈ fieldsAt page o 1, f.acc = .cnt → follows f = false → t.counter f = 0)
        ∧ Becomes ((fieldsAt page o 1).filter fun f => f.acc == .cnt) d t))
  ∧ (∀ (via : Via) (page o : Nat) (s : State), o < 4096 →
    let d := s.dev
    let offset := page * 4096 + o
    let answered := viaAnswered d via = true
    let v := readBytes d via page o 8
    let same := fun t : Dev => Becomes [Reg.TIME_NOW_FRAC] { d with mbox := t.mbox } t
    (o % 4 ≠ 0 → answered → Gives (.regLowHalfRead via offset) s fun t => Counts Reg.GLB_BAD_ACCESS 1 d t ∧ Sent (.regData via offset 4 0) d t)
    ∧ (o % 4 = 0 → answered → mayRead d via page = false → Gives (.regLowHalfRead via offset) s fun t => same t ∧ Sent (.regData via offset 4 0) d t)
    ∧ (o % 4 = 0 → answered → mayRead d via page = true → isWide page o = true → Gives (.regLowHalfRead via offset) s fun t => same t
        ∧ Sent (.regData via offset 4 (v % 2 ^ 32)) d t ∧ (via, offset, v / 2 ^ 32) ∈ t.regs.latch
        ∧ (offset = 0x1100 → t.get Reg.TIME_NOW_FRAC = d.time.frac % 2 ^ 16))
    ∧ (∀ h, o % 4 = 0 → 4 ≤ o → answered → mayRead d via page = true → isWide page o = false → isWide page (o - 4) = true →
        d.regs.latch.filter (fun l => l.1 == via && l.2.1 + 4 == offset) = [(via, offset - 4, h)] →
        Gives (.regLowHalfRead via offset) s fun t => same t ∧ Sent (.regData via offset 4 h) d t
          ∧ ∀ l ∈ t.regs.latch, ¬ (l.1 = via ∧ l.2.1 + 4 = offset))
    ∧ (o % 4 = 0 → answered → mayRead d via page = true → isWide page o = false → (4 ≤ o → isWide page (o - 4) = false) →
        Gives (.regLowHalfRead via offset) s fun t => same t ∧ Sent (.regData via offset 4 (readBytes d via page o 4)) d t)
    ∧ (∀ x, d.host.fatal = true → Gives (.regLowHalfRead (.slot x) offset) s fun t => t.mem = d.mem ∧ t.sess = d.sess ∧ t.tick = d.tick))
  ∧ (∀ (via : Via) (page o v : Nat) (s : State), o < 4096 →
    let d := s.dev
    let offset := page * 4096 + o
    let opens := mayWrite d via page = true
    let special := page = 7 ∨ o = 0x00C ∨ o = 0x01C ∨ (page = 0 ∧ o = 0x128) ∨ (page = 1 ∧ o = 0x10C) ∨ (page = 2 ∧ o = 0x118)
      ∨ (page = 3 ∧ o = 0x138) ∨ (0x10 ≤ page ∧ page < 0x20 ∧ o = 0x130) ∨ (page = 0x42 ∧ o = 0x110)
      ∨ (page = 0x42 ∧ 0x200 ≤ o ∧ o < 0xA00 ∧ o % 0x80 = 0) ∨ (page = 0x80 ∧ (o = 0x148 ∨ o = 0x100))
    let specialWide := page = 7 ∨ (page = 2 ∧ (o = 0x104 ∨ o = 0x114)) ∨ (page = 0x42 ∧ o = 0x124)
    (∀ size, ¬ ((size = 4 ∨ size = 8) ∧ offset % size = 0) → viaAnswered d via = true →
      Gives (.registerWrite via offset size v) s fun t => Counts Reg.GLB_BAD_ACCESS 1 d t ∧ Becomes [Reg.GLB_BAD_ACCESS] d t)
    ∧ (∀ size, (size = 4 ∨ size = 8) → offset % size = 0 → page ≠ 7 → mayWrite d via page = false →
      Gives (.registerWrite via offset size v) s (Becomes [] d))
    ∧ (∀ f, o % 4 = 0 → opens → ¬ special → isHeld page o = false → (4 ≤ o → isHeld page (o - 4) = false) →
      f ∈ fieldsAt page o 4 → ((fieldsAt page o 4).map Field.key).Nodup → follows f = false →
      8 * o ≤ 8 * f.off + f.lo → 8 * f.off + f.lo + f.width ≤ 8 * o + 32 →
      Gives (.registerWrite via offset 4 v) s fun t =>
        (f.acc = .rw ∨ (f.acc = .rwl ∧ d.get (Reg.LOCK f.page) ≠ 1) → t.get f = v % 2 ^ 32 / 2 ^ (8 * f.off + f.lo - 8 * o) % 2 ^ f.width)
        ∧ (f.acc = .ro ∨ (f.acc = .rwl ∧ d.get (Reg.LOCK f.page) = 1) → t.get f = d.get f)
        ∧ Becomes (fieldsAt page o 4) d t)
    ∧ (∀ f, o % 4 = 0 → opens → ¬ special → isHeld page o = false → (4 ≤ o → isHeld page (o - 4) = false) →
      f ∈ fieldsAt page o 4 → ((fieldsAt page o 4).map Field.key).Nodup → follows f = false → f.acc = .cnt →
      Gives (.registerWrite via offset 4 v) s fun t => t.counter f = 0 ∧ Becomes (fieldsAt page o 4) d t)
    ∧ (o % 4 = 0 → opens → page ≠ 7 → isHeld page o = true → Gives (.registerWrite via offset 4 v) s fun t =>
        (via, offset, v % 2 ^ 32) ∈ t.regs.held ∧ Becomes [] d t)
    ∧ (∀ f h, o % 4 = 0 → 4 ≤ o → opens → ¬ specialWide → isHeld page o = false → isHeld page (o - 4) = true →
      d.regs.held.filter (fun x => x.1 == via && x.2.1 + 4 == offset) = [(via, offset - 4, h)] →
      fieldsAt page (o - 4) 8 = [f] → f.off = o - 4 → f.lo = 0 → f.width = 64 → follows f = false →
      (f.acc = .rw ∨ (f.acc = .rwl ∧ d.get (Reg.LOCK f.page) ≠ 1)) → h < 2 ^ 32 →
      Gives (.registerWrite via offset 4 v) s fun t => t.get f = h + 2 ^ 32 * (v % 2 ^ 32)
        ∧ (∀ x ∈ t.regs.held, ¬ (x.1 = via ∧ x.2.1 + 4 = offset)) ∧ Becomes [f] d t))
/-- R637, R666-R668. -/
def Obligations.Mailbox : Prop :=
  ∀ (via : Via) (s : State),
    let d := s.dev
    let number := match via with
      | .slot _ => 0
      | .sideband => 1
      | .ethernet => 2
    let owner := d.get Reg.MBOX_OWNER
    let runs := d.get Reg.GLB_BOOT_STAGE ≠ 0 ∧ viaAnswered d via = true
    let owns := runs ∧ number ≠ 0 ∧ owner = number
    let denied := fun t : Dev => Counts Reg.MBOX_DENIED 1 d t ∧ Becomes [Reg.MBOX_DENIED] d t
    let touched := { d with mbox := { d.mbox with lastAccess := d.clock } }
    let a0 := d.get (Reg.MBOX_ARG 0)
    let a1 := d.get (Reg.MBOX_ARG 1)
    let results := [Reg.MBOX_OPCODE, Reg.MBOX_STATUS, Reg.MBOX_DONE_TAG, Reg.MBOX_RESULT, Reg.MBOX_COMMANDS]
    let done := fun (st result : Nat) (t : Dev) => t.get Reg.MBOX_STATUS = st ∧ t.get Reg.MBOX_DONE_TAG = d.get Reg.MBOX_TAG % 256
      ∧ t.get Reg.MBOX_RESULT = result % 2 ^ 64 ∧ Counts Reg.MBOX_COMMANDS 1 d t
    let ends := fun (i : Instr) (st result : Nat) => Gives i s fun t => done st result t ∧ Becomes results touched t
    let put := fun (b : Bytes) (t : Dev) => t.get Reg.MBOX_DATA % 2 ^ (8 * b.length) = unle b
    let rows := [Instr.mboxGetStage via, .mboxRegRead via, .mboxRegWrite via, .mboxDumpRead via, .mboxDumpClear via, .mboxErrlogRead via,
      .mboxHealthRead via, .mboxModuleReset via]
    let regBad := ¬ (a0 % 4 = 0 ∧ a1 % 4 = 0 ∧ 4 ≤ a1 ∧ a1 ≤ 2048 ∧ a0 + a1 ≤ 2097152)
    let bytesBad := fun size => ¬ (1 ≤ a1 ∧ a1 ≤ 2048 ∧ a0 + a1 ≤ size)
    let region := d.boot.hbmTrained = true
    let ready := region ∧ (d.isM0 = true ∨ d.boot.flashLoaded = true)
    (¬ runs → ∀ i ∈ Instr.mboxClaim via :: .mboxRelease via :: rows, Gives i s (Becomes [] d))
    ∧ (runs → number = 0 → Gives (.mboxClaim via) s denied)
    ∧ (runs → number ≠ 0 → owner = 0 → Gives (.mboxClaim via) s fun t => t.get Reg.MBOX_OWNER = number
        ∧ Becomes [Reg.MBOX_OWNER] touched t)
    ∧ (runs → number ≠ 0 → owner ≠ 0 → owner ≠ number → Gives (.mboxClaim via) s (Becomes [] d))
    ∧ (owns → Gives (.mboxClaim via) s (Becomes [] touched))
    ∧ (owns → Gives (.mboxRelease via) s fun t => t.get Reg.MBOX_OWNER = 0 ∧ Becomes [Reg.MBOX_OWNER] touched t)
    ∧ (runs → ¬ owns → ∀ i ∈ Instr.mboxRelease via :: rows, Gives i s denied)
    ∧ (let lost := owner ≠ 0 ∧ d.mbox.lastAccess + 1000000000 ≤ d.clock
      (lost → Gives .mboxTimeout s fun t => t.get Reg.MBOX_OWNER = 0 ∧ Counts Reg.MBOX_TIMEOUTS 1 d t
        ∧ Becomes [Reg.MBOX_OWNER, Reg.MBOX_TIMEOUTS] d t)
      ∧ (¬ lost → Gives .mboxTimeout s (Becomes [] d)))
    ∧ (owns → d.get Reg.GLB_BOOT_STAGE ≠ 7 → ends (.mboxGetStage via) 0 (d.get Reg.GLB_BOOT_STAGE))
    ∧ (owns → d.get Reg.GLB_BOOT_STAGE = 7 → ends (.mboxGetStage via) 0 (7 + d.boot.failImage * 256 + d.boot.failStatus * 65536))
    ∧ (owns → regBad → ends (.mboxRegRead via) 0x0002 0 ∧ ends (.mboxRegWrite via) 0x0002 0)
    ∧ (owns → ¬ regBad → ¬ region → ends (.mboxRegRead via) 0x0004 0 ∧ ends (.mboxRegWrite via) 0x0004 0)
    ∧ (owns → region → a0 % 8 = 0 → a1 = 8 → a0 + 8 ≤ 2097152 → a0 / 4096 ≠ 7 → Gives (.mboxRegRead via) s fun t => done 0 0 t
        ∧ (mayRead d via (a0 / 4096) = true → t.get Reg.MBOX_DATA % 2 ^ 64 = readBytes d via (a0 / 4096) (a0 % 4096) 8)
        ∧ (mayRead d via (a0 / 4096) = false → t.get Reg.MBOX_DATA % 2 ^ 64 = 0)
        ∧ Becomes (Reg.MBOX_DATA :: Reg.TIME_NOW_FRAC :: results) touched t)
    ∧ (∀ f o, owns → region → a1 = 4 → o < 4096 → o % 4 = 0 → a0 = f.page * 4096 + o → a0 + 4 ≤ 2097152 → 7 < f.page → f.page < 0x42 →
        ¬ (0x10 ≤ f.page ∧ f.page < 0x20 ∧ o = 0x130) → o ≠ 0x00C → o ≠ 0x01C → mayWrite d via f.page = true →
        isHeld f.page o = false → (4 ≤ o → isHeld f.page (o - 4) = false) →
        fieldsAt f.page o 4 = [f] → f.off = o → f.lo = 0 → f.width = 32 → f.acc = .rw → follows f = false →
        Gives (.mboxRegWrite via) s fun t => done 0 0 t ∧ t.get f = d.get Reg.MBOX_DATA % 2 ^ 32 ∧ Becomes (f :: results) touched t)
    ∧ (owns → bytesBad 268435456 → ends (.mboxDumpRead via) 0x0002 0)
    ∧ (owns → ¬ bytesBad 268435456 → ¬ region → ends (.mboxDumpRead via) 0x0004 0)
    ∧ (owns → ¬ bytesBad 268435456 → region → d.ras.dump = none → ends (.mboxDumpRead via) 0x0902 0)
    ∧ (∀ x, owns → ¬ bytesBad 268435456 → region → d.ras.dump = some x → Gives (.mboxDumpRead via) s fun t => done 0 0 t
        ∧ put (((dumpBytes x).drop a0).take a1) t ∧ Becomes (Reg.MBOX_DATA :: results) touched t)
    ∧ (owns → ¬ region → ends (.mboxDumpClear via) 0x0004 0 ∧ ends (.mboxErrlogRead via) 0x0004 0)
    ∧ (owns → region → d.ras.dump = none → ends (.mboxDumpClear via) 0x0902 0)
    ∧ (owns → region → d.ras.dump ≠ none → Gives (.mboxDumpClear via) s fun t => done 0 0 t ∧ t.get Reg.RAS_DUMP_PRESENT = 0
        ∧ Becomes (Reg.RAS_DUMP_PRESENT :: results) { touched with ras := { d.ras with dump := none } } t)
    ∧ (owns → region →
        let seq := d.get Reg.RAS_LOG_SEQ
        let have_ := min d.ras.log.length (if a0 ≤ seq then seq + 1 - max 1 a0 else 0)
        let n := min have_ 32
        Gives (.mboxErrlogRead via) s fun t => done 0 n t ∧ Becomes (Reg.MBOX_DATA :: results) touched t
          ∧ ∃ b : Bytes, b.length = 64 * n ∧ put b t ∧ ∀ i < n, ∀ r, d.ras.log[have_ - 1 - i]? = some r →
            (b.drop (64 * i)).take 64 = errRecBytes r)
    ∧ (owns → bytesBad 8512 → ends (.mboxHealthRead via) 0x0002 0)
    ∧ (owns → ¬ bytesBad 8512 → ¬ ready → ends (.mboxHealthRead via) 0x0004 0)
    ∧ (owns → ¬ bytesBad 8512 → ready → d.isM0 = true → ends (.mboxHealthRead via) 0x0006 0)
    ∧ (owns → ¬ bytesBad 8512 → ready → d.isM0 = false → Gives (.mboxHealthRead via) s fun t => done 0 0 t
        ∧ put (((padTo 8512 (healthBytes d)).drop a0).take a1) t ∧ Becomes (Reg.MBOX_DATA :: results) touched t)
    ∧ (owns → a0 ≠ 0x5253544D → ends (.mboxModuleReset via) 0x0002 0)
    ∧ (owns → a0 = 0x5253544D → Gives (.mboxModuleReset via) s fun t => done 0 0 t
        ∧ Becomes results { d with mbox := { d.mbox with
            lastAccess := d.clock
            resetAt := some (d.clock + 1000000) } } t)
    ∧ (owns → d.get Reg.MBOX_OPCODE = 0x08 → a0 = 0x5253544D → Gives (.registerWrite via 0x710C 4 1) s fun t => done 0 0 t
        ∧ t.mbox.resetAt = some (d.clock + 1000000))

/-- A step runs the front command; the step of an empty queue is log entry 2's choice. -/
def Obligations.FrontCommand : Prop :=
  (∀ (c : Instr) (rest : List Instr) (s : State), step { s with pending := c :: rest } = exec c { s with pending := rest })
  ∧ (∀ s : State, s.pending = [] → ∃ t, step s = .next t ∧ t.pending = []
    ∧ (s.dev.mbox.resetAt = none → t.dev.time.localNs = s.dev.time.localNs + 1))
/-- R42, R50, R518, R640, R648. -/
def Obligations.ResetState : Prop :=
  let s := State.reset
  let d := s.dev
  s.pending = [] ∧ MemSound s ∧ d.mem.range = [] ∧ d.mem.export_ = []
  ∧ (∀ f : Field, f.key ≠ Reg.FTL_PLP.key → d.get f = f.reset) ∧ d.get Reg.FTL_PLP = 1
  ∧ d.now = 0 ∧ d.get Reg.TIME_SERVO = 0 ∧ d.get Reg.LOCAL_ONLY = 1 ∧ d.get Reg.TICK_NOW = 0 ∧ d.get Reg.TICK_PERIOD_NS = 10000000
  ∧ d.get Reg.GLB_BOOT_STAGE = 0 ∧ d.get Reg.CKPT_EPOCH = 1
  ∧ d.sess.descs = [] ∧ d.kv.pages = [] ∧ d.tier.granules = [] ∧ d.fab.peers = [] ∧ d.part.ctxs = [] ∧ d.srch.indexes = []
  ∧ d.ckpt.shards = [] ∧ d.ras.log = [] ∧ d.host.sqs = [] ∧ d.run.steps = []
/-- R546. -/
def Obligations.PartitionsAtReset : Prop :=
  let holds := fun d : Dev =>
    d.get (Reg.PART_ENABLED 0) = 1 ∧ (∀ q, q < 32 → d.get (Reg.PART_QUADS 0) / 2 ^ q % 2 = 1) ∧ d.get (Reg.PART_CONTEXTS 0) = 4096
    ∧ d.get (Reg.PART_WEIGHT 0) = 1 ∧ d.get (Reg.PART_DESC_QUOTA 0) = 0 ∧ d.get (Reg.PART_T1_QUOTA 0) = 0
    ∧ ∀ p, 1 ≤ p → p ≤ 7 → d.get (Reg.PART_ENABLED p) = 0 ∧ d.get (Reg.PART_QUADS p) = 0 ∧ d.get (Reg.PART_CONTEXTS p) = 0
      ∧ d.get (Reg.PART_DESC_USED p) = 0 ∧ d.get (Reg.PART_T1_USED p) = 0 ∧ (∀ x ∈ d.part.ctxs, x.part ≠ p)
      ∧ (∀ x ∈ d.sess.descs, x.part ≠ p) ∧ (∀ x ∈ d.kv.pages, x.part ≠ p) ∧ ∀ x ∈ d.tier.granules, x.part ≠ p
  holds State.reset.dev ∧ ∀ s : State, Gives .coldReset s holds ∧ Gives .moduleReset s holds
/-- R656. -/
def Obligations.BadAccesses : Prop :=
  ∀ (via : Via) (offset size v : Nat) (s : State), viaAnswered s.dev via = true →
    let d := s.dev
    let good := (size = 4 ∨ size = 8) ∧ offset % size = 0
    (¬ good → (regRead via offset size d).1 = 0 ∧ Counts Reg.GLB_BAD_ACCESS 1 d (regRead via offset size d).2
        ∧ Becomes [Reg.GLB_BAD_ACCESS] d (regRead via offset size d).2)
    ∧ (good → (regRead via offset size d).2.get Reg.GLB_BAD_ACCESS = d.get Reg.GLB_BAD_ACCESS)
    ∧ (offset % 4 ≠ 0 → Gives (.regLowHalfRead via offset) s fun t =>
        Sent (.regData via offset 4 0) d t ∧ Counts Reg.GLB_BAD_ACCESS 1 d t)
    ∧ (¬ good → Gives (.registerWrite via offset size v) s fun t => Counts Reg.GLB_BAD_ACCESS 1 d t ∧ Becomes [Reg.GLB_BAD_ACCESS] d t)
/-- R60, R415, R588, R608, R618, R654, R671: from any state, after any step. -/
def Obligations.DerivedStateAgrees : Prop :=
  ∀ s : State, ∃ t, step s = .next t ∧ t.pending = s.pending.tail ∧ ModesAgree t.dev
    ∧ (t.dev.get Reg.LOCAL_ONLY = 1 ↔ t.dev.get Reg.TIME_SERVO ≠ 2 ∧ t.dev.get Reg.TIME_SERVO ≠ 3)
    ∧ t.dev.get Reg.FTL_PLP = plpValue t.dev
    ∧ t.dev.get Reg.FAB_COPY_DEFICIT = deficit t.dev % 2 ^ Reg.FAB_COPY_DEFICIT.width
    ∧ (∀ p, p < 8 → t.dev.get (Reg.SEC_PART_OBJECTS p) = partLower t.dev p % 2 ^ 64)
    ∧ (∀ p, p < 8 → partLower t.dev p = 0 →
        (∀ n, n < 16 → t.dev.get (Reg.SLOT_STATE n) = 0 ∨ t.dev.get (Reg.SLOT_PART n) ≠ p) → t.dev.get (Reg.SEC_PART_KEY p) = 0)
    ∧ (t.dev.pwr.inputLow = true → t.dev.get (Reg.BLK_INT_STATUS 3) / 8 % 2 = 1)
/-- R10, R14, R15, R97, R103, R646: over all the commands of hosts. -/
def Obligations.RefusedCommands : Prop :=
  ∀ p ∈ hostRows, ∀ (c : HostCmd) (s : State) (st : Nat), c.slot < 16 →
    lowest (isOp p.2 (cmdOf s.dev c) ++ generalChecks s.dev (cmdOf s.dev c)) = some st →
    Gives (p.1 c) s fun t => ∃ code, code ≤ st ∧ Answers c code 0 0 s.dev t ∧ Leaves [Reg.HOST_CMDS_ACCEPTED c.slot] s.dev t
      ∧ t.host.accepted = s.dev.host.accepted.filter fun x => !sameCmd x (cmdOf s.dev c)
end

