-- ==== Sys2Proof/Laws/State.lean ====
section
/-! SUPPORT. One lemma per update of a unit's state: the unit holds what was put, and every other unit what it held. Each is a
conjunction that simp uses as one rewrite rule per unit. -/

namespace Sys2Proof.Machine

open Sys2Proof

@[simp] theorem setTime_units (x : TimeSt) (d : Dev) :
    (setTime x d).time = x ∧ (setTime x d).regs = d.regs ∧ (setTime x d).tick = d.tick ∧
    (setTime x d).host = d.host ∧ (setTime x d).mem = d.mem ∧ (setTime x d).newel = d.newel ∧
    (setTime x d).fab = d.fab ∧ (setTime x d).link = d.link ∧ (setTime x d).ras = d.ras ∧
    (setTime x d).flash = d.flash ∧ (setTime x d).kv = d.kv ∧ (setTime x d).tier = d.tier ∧
    (setTime x d).sess = d.sess ∧ (setTime x d).run = d.run ∧ (setTime x d).samp = d.samp ∧
    (setTime x d).text = d.text ∧ (setTime x d).ckpt = d.ckpt ∧ (setTime x d).part = d.part ∧
    (setTime x d).srch = d.srch ∧ (setTime x d).pwr = d.pwr ∧ (setTime x d).sec = d.sec ∧
    (setTime x d).boot = d.boot ∧ (setTime x d).mbox = d.mbox ∧ (setTime x d).out = d.out ∧
    (setTime x d).free = d.free := by
  simp [setTime]

@[simp] theorem setTick_units (x : TickSt) (d : Dev) :
    (setTick x d).tick = x ∧ (setTick x d).regs = d.regs ∧ (setTick x d).time = d.time ∧
    (setTick x d).host = d.host ∧ (setTick x d).mem = d.mem ∧ (setTick x d).newel = d.newel ∧
    (setTick x d).fab = d.fab ∧ (setTick x d).link = d.link ∧ (setTick x d).ras = d.ras ∧
    (setTick x d).flash = d.flash ∧ (setTick x d).kv = d.kv ∧ (setTick x d).tier = d.tier ∧
    (setTick x d).sess = d.sess ∧ (setTick x d).run = d.run ∧ (setTick x d).samp = d.samp ∧
    (setTick x d).text = d.text ∧ (setTick x d).ckpt = d.ckpt ∧ (setTick x d).part = d.part ∧
    (setTick x d).srch = d.srch ∧ (setTick x d).pwr = d.pwr ∧ (setTick x d).sec = d.sec ∧
    (setTick x d).boot = d.boot ∧ (setTick x d).mbox = d.mbox ∧ (setTick x d).out = d.out ∧
    (setTick x d).free = d.free := by
  simp [setTick]

@[simp] theorem setHost_units (x : HostSt) (d : Dev) :
    (setHost x d).host = x ∧ (setHost x d).regs = d.regs ∧ (setHost x d).time = d.time ∧
    (setHost x d).tick = d.tick ∧ (setHost x d).mem = d.mem ∧ (setHost x d).newel = d.newel ∧
    (setHost x d).fab = d.fab ∧ (setHost x d).link = d.link ∧ (setHost x d).ras = d.ras ∧
    (setHost x d).flash = d.flash ∧ (setHost x d).kv = d.kv ∧ (setHost x d).tier = d.tier ∧
    (setHost x d).sess = d.sess ∧ (setHost x d).run = d.run ∧ (setHost x d).samp = d.samp ∧
    (setHost x d).text = d.text ∧ (setHost x d).ckpt = d.ckpt ∧ (setHost x d).part = d.part ∧
    (setHost x d).srch = d.srch ∧ (setHost x d).pwr = d.pwr ∧ (setHost x d).sec = d.sec ∧
    (setHost x d).boot = d.boot ∧ (setHost x d).mbox = d.mbox ∧ (setHost x d).out = d.out ∧
    (setHost x d).free = d.free := by
  simp [setHost]

@[simp] theorem setNewel_units (x : NewelSt) (d : Dev) :
    (setNewel x d).newel = x ∧ (setNewel x d).regs = d.regs ∧ (setNewel x d).time = d.time ∧
    (setNewel x d).tick = d.tick ∧ (setNewel x d).host = d.host ∧ (setNewel x d).mem = d.mem ∧
    (setNewel x d).fab = d.fab ∧ (setNewel x d).link = d.link ∧ (setNewel x d).ras = d.ras ∧
    (setNewel x d).flash = d.flash ∧ (setNewel x d).kv = d.kv ∧ (setNewel x d).tier = d.tier ∧
    (setNewel x d).sess = d.sess ∧ (setNewel x d).run = d.run ∧ (setNewel x d).samp = d.samp ∧
    (setNewel x d).text = d.text ∧ (setNewel x d).ckpt = d.ckpt ∧ (setNewel x d).part = d.part ∧
    (setNewel x d).srch = d.srch ∧ (setNewel x d).pwr = d.pwr ∧ (setNewel x d).sec = d.sec ∧
    (setNewel x d).boot = d.boot ∧ (setNewel x d).mbox = d.mbox ∧ (setNewel x d).out = d.out ∧
    (setNewel x d).free = d.free := by
  simp [setNewel]

@[simp] theorem setFab_units (x : FabSt) (d : Dev) :
    (setFab x d).fab = x ∧ (setFab x d).regs = d.regs ∧ (setFab x d).time = d.time ∧ (setFab x d).tick = d.tick ∧
    (setFab x d).host = d.host ∧ (setFab x d).mem = d.mem ∧ (setFab x d).newel = d.newel ∧
    (setFab x d).link = d.link ∧ (setFab x d).ras = d.ras ∧ (setFab x d).flash = d.flash ∧ (setFab x d).kv = d.kv ∧
    (setFab x d).tier = d.tier ∧ (setFab x d).sess = d.sess ∧ (setFab x d).run = d.run ∧ (setFab x d).samp = d.samp ∧
    (setFab x d).text = d.text ∧ (setFab x d).ckpt = d.ckpt ∧ (setFab x d).part = d.part ∧
    (setFab x d).srch = d.srch ∧ (setFab x d).pwr = d.pwr ∧ (setFab x d).sec = d.sec ∧ (setFab x d).boot = d.boot ∧
    (setFab x d).mbox = d.mbox ∧ (setFab x d).out = d.out ∧ (setFab x d).free = d.free := by
  simp [setFab]

@[simp] theorem setLink_units (x : LinkSt) (d : Dev) :
    (setLink x d).link = x ∧ (setLink x d).regs = d.regs ∧ (setLink x d).time = d.time ∧
    (setLink x d).tick = d.tick ∧ (setLink x d).host = d.host ∧ (setLink x d).mem = d.mem ∧
    (setLink x d).newel = d.newel ∧ (setLink x d).fab = d.fab ∧ (setLink x d).ras = d.ras ∧
    (setLink x d).flash = d.flash ∧ (setLink x d).kv = d.kv ∧ (setLink x d).tier = d.tier ∧
    (setLink x d).sess = d.sess ∧ (setLink x d).run = d.run ∧ (setLink x d).samp = d.samp ∧
    (setLink x d).text = d.text ∧ (setLink x d).ckpt = d.ckpt ∧ (setLink x d).part = d.part ∧
    (setLink x d).srch = d.srch ∧ (setLink x d).pwr = d.pwr ∧ (setLink x d).sec = d.sec ∧
    (setLink x d).boot = d.boot ∧ (setLink x d).mbox = d.mbox ∧ (setLink x d).out = d.out ∧
    (setLink x d).free = d.free := by
  simp [setLink]

@[simp] theorem setRas_units (x : RasSt) (d : Dev) :
    (setRas x d).ras = x ∧ (setRas x d).regs = d.regs ∧ (setRas x d).time = d.time ∧ (setRas x d).tick = d.tick ∧
    (setRas x d).host = d.host ∧ (setRas x d).mem = d.mem ∧ (setRas x d).newel = d.newel ∧ (setRas x d).fab = d.fab ∧
    (setRas x d).link = d.link ∧ (setRas x d).flash = d.flash ∧ (setRas x d).kv = d.kv ∧ (setRas x d).tier = d.tier ∧
    (setRas x d).sess = d.sess ∧ (setRas x d).run = d.run ∧ (setRas x d).samp = d.samp ∧ (setRas x d).text = d.text ∧
    (setRas x d).ckpt = d.ckpt ∧ (setRas x d).part = d.part ∧ (setRas x d).srch = d.srch ∧ (setRas x d).pwr = d.pwr ∧
    (setRas x d).sec = d.sec ∧ (setRas x d).boot = d.boot ∧ (setRas x d).mbox = d.mbox ∧ (setRas x d).out = d.out ∧
    (setRas x d).free = d.free := by
  simp [setRas]

@[simp] theorem setFlash_units (x : FlashSt) (d : Dev) :
    (setFlash x d).flash = x ∧ (setFlash x d).regs = d.regs ∧ (setFlash x d).time = d.time ∧
    (setFlash x d).tick = d.tick ∧ (setFlash x d).host = d.host ∧ (setFlash x d).mem = d.mem ∧
    (setFlash x d).newel = d.newel ∧ (setFlash x d).fab = d.fab ∧ (setFlash x d).link = d.link ∧
    (setFlash x d).ras = d.ras ∧ (setFlash x d).kv = d.kv ∧ (setFlash x d).tier = d.tier ∧
    (setFlash x d).sess = d.sess ∧ (setFlash x d).run = d.run ∧ (setFlash x d).samp = d.samp ∧
    (setFlash x d).text = d.text ∧ (setFlash x d).ckpt = d.ckpt ∧ (setFlash x d).part = d.part ∧
    (setFlash x d).srch = d.srch ∧ (setFlash x d).pwr = d.pwr ∧ (setFlash x d).sec = d.sec ∧
    (setFlash x d).boot = d.boot ∧ (setFlash x d).mbox = d.mbox ∧ (setFlash x d).out = d.out ∧
    (setFlash x d).free = d.free := by
  simp [setFlash]

@[simp] theorem setKv_units (x : KvSt) (d : Dev) :
    (setKv x d).kv = x ∧ (setKv x d).regs = d.regs ∧ (setKv x d).time = d.time ∧ (setKv x d).tick = d.tick ∧
    (setKv x d).host = d.host ∧ (setKv x d).mem = d.mem ∧ (setKv x d).newel = d.newel ∧ (setKv x d).fab = d.fab ∧
    (setKv x d).link = d.link ∧ (setKv x d).ras = d.ras ∧ (setKv x d).flash = d.flash ∧ (setKv x d).tier = d.tier ∧
    (setKv x d).sess = d.sess ∧ (setKv x d).run = d.run ∧ (setKv x d).samp = d.samp ∧ (setKv x d).text = d.text ∧
    (setKv x d).ckpt = d.ckpt ∧ (setKv x d).part = d.part ∧ (setKv x d).srch = d.srch ∧ (setKv x d).pwr = d.pwr ∧
    (setKv x d).sec = d.sec ∧ (setKv x d).boot = d.boot ∧ (setKv x d).mbox = d.mbox ∧ (setKv x d).out = d.out ∧
    (setKv x d).free = d.free := by
  simp [setKv]

@[simp] theorem setTier_units (x : TierSt) (d : Dev) :
    (setTier x d).tier = x ∧ (setTier x d).regs = d.regs ∧ (setTier x d).time = d.time ∧
    (setTier x d).tick = d.tick ∧ (setTier x d).host = d.host ∧ (setTier x d).mem = d.mem ∧
    (setTier x d).newel = d.newel ∧ (setTier x d).fab = d.fab ∧ (setTier x d).link = d.link ∧
    (setTier x d).ras = d.ras ∧ (setTier x d).flash = d.flash ∧ (setTier x d).kv = d.kv ∧
    (setTier x d).sess = d.sess ∧ (setTier x d).run = d.run ∧ (setTier x d).samp = d.samp ∧
    (setTier x d).text = d.text ∧ (setTier x d).ckpt = d.ckpt ∧ (setTier x d).part = d.part ∧
    (setTier x d).srch = d.srch ∧ (setTier x d).pwr = d.pwr ∧ (setTier x d).sec = d.sec ∧
    (setTier x d).boot = d.boot ∧ (setTier x d).mbox = d.mbox ∧ (setTier x d).out = d.out ∧
    (setTier x d).free = d.free := by
  simp [setTier]

@[simp] theorem setSess_units (x : SessSt) (d : Dev) :
    (setSess x d).sess = x ∧ (setSess x d).regs = d.regs ∧ (setSess x d).time = d.time ∧
    (setSess x d).tick = d.tick ∧ (setSess x d).host = d.host ∧ (setSess x d).mem = d.mem ∧
    (setSess x d).newel = d.newel ∧ (setSess x d).fab = d.fab ∧ (setSess x d).link = d.link ∧
    (setSess x d).ras = d.ras ∧ (setSess x d).flash = d.flash ∧ (setSess x d).kv = d.kv ∧
    (setSess x d).tier = d.tier ∧ (setSess x d).run = d.run ∧ (setSess x d).samp = d.samp ∧
    (setSess x d).text = d.text ∧ (setSess x d).ckpt = d.ckpt ∧ (setSess x d).part = d.part ∧
    (setSess x d).srch = d.srch ∧ (setSess x d).pwr = d.pwr ∧ (setSess x d).sec = d.sec ∧
    (setSess x d).boot = d.boot ∧ (setSess x d).mbox = d.mbox ∧ (setSess x d).out = d.out ∧
    (setSess x d).free = d.free := by
  simp [setSess]

@[simp] theorem setRun_units (x : RunSt) (d : Dev) :
    (setRun x d).run = x ∧ (setRun x d).regs = d.regs ∧ (setRun x d).time = d.time ∧ (setRun x d).tick = d.tick ∧
    (setRun x d).host = d.host ∧ (setRun x d).mem = d.mem ∧ (setRun x d).newel = d.newel ∧ (setRun x d).fab = d.fab ∧
    (setRun x d).link = d.link ∧ (setRun x d).ras = d.ras ∧ (setRun x d).flash = d.flash ∧ (setRun x d).kv = d.kv ∧
    (setRun x d).tier = d.tier ∧ (setRun x d).sess = d.sess ∧ (setRun x d).samp = d.samp ∧
    (setRun x d).text = d.text ∧ (setRun x d).ckpt = d.ckpt ∧ (setRun x d).part = d.part ∧
    (setRun x d).srch = d.srch ∧ (setRun x d).pwr = d.pwr ∧ (setRun x d).sec = d.sec ∧ (setRun x d).boot = d.boot ∧
    (setRun x d).mbox = d.mbox ∧ (setRun x d).out = d.out ∧ (setRun x d).free = d.free := by
  simp [setRun]

@[simp] theorem setSamp_units (x : SampSt) (d : Dev) :
    (setSamp x d).samp = x ∧ (setSamp x d).regs = d.regs ∧ (setSamp x d).time = d.time ∧
    (setSamp x d).tick = d.tick ∧ (setSamp x d).host = d.host ∧ (setSamp x d).mem = d.mem ∧
    (setSamp x d).newel = d.newel ∧ (setSamp x d).fab = d.fab ∧ (setSamp x d).link = d.link ∧
    (setSamp x d).ras = d.ras ∧ (setSamp x d).flash = d.flash ∧ (setSamp x d).kv = d.kv ∧
    (setSamp x d).tier = d.tier ∧ (setSamp x d).sess = d.sess ∧ (setSamp x d).run = d.run ∧
    (setSamp x d).text = d.text ∧ (setSamp x d).ckpt = d.ckpt ∧ (setSamp x d).part = d.part ∧
    (setSamp x d).srch = d.srch ∧ (setSamp x d).pwr = d.pwr ∧ (setSamp x d).sec = d.sec ∧
    (setSamp x d).boot = d.boot ∧ (setSamp x d).mbox = d.mbox ∧ (setSamp x d).out = d.out ∧
    (setSamp x d).free = d.free := by
  simp [setSamp]

@[simp] theorem setText_units (x : TextSt) (d : Dev) :
    (setText x d).text = x ∧ (setText x d).regs = d.regs ∧ (setText x d).time = d.time ∧
    (setText x d).tick = d.tick ∧ (setText x d).host = d.host ∧ (setText x d).mem = d.mem ∧
    (setText x d).newel = d.newel ∧ (setText x d).fab = d.fab ∧ (setText x d).link = d.link ∧
    (setText x d).ras = d.ras ∧ (setText x d).flash = d.flash ∧ (setText x d).kv = d.kv ∧
    (setText x d).tier = d.tier ∧ (setText x d).sess = d.sess ∧ (setText x d).run = d.run ∧
    (setText x d).samp = d.samp ∧ (setText x d).ckpt = d.ckpt ∧ (setText x d).part = d.part ∧
    (setText x d).srch = d.srch ∧ (setText x d).pwr = d.pwr ∧ (setText x d).sec = d.sec ∧
    (setText x d).boot = d.boot ∧ (setText x d).mbox = d.mbox ∧ (setText x d).out = d.out ∧
    (setText x d).free = d.free := by
  simp [setText]

@[simp] theorem setCkpt_units (x : CkptSt) (d : Dev) :
    (setCkpt x d).ckpt = x ∧ (setCkpt x d).regs = d.regs ∧ (setCkpt x d).time = d.time ∧
    (setCkpt x d).tick = d.tick ∧ (setCkpt x d).host = d.host ∧ (setCkpt x d).mem = d.mem ∧
    (setCkpt x d).newel = d.newel ∧ (setCkpt x d).fab = d.fab ∧ (setCkpt x d).link = d.link ∧
    (setCkpt x d).ras = d.ras ∧ (setCkpt x d).flash = d.flash ∧ (setCkpt x d).kv = d.kv ∧
    (setCkpt x d).tier = d.tier ∧ (setCkpt x d).sess = d.sess ∧ (setCkpt x d).run = d.run ∧
    (setCkpt x d).samp = d.samp ∧ (setCkpt x d).text = d.text ∧ (setCkpt x d).part = d.part ∧
    (setCkpt x d).srch = d.srch ∧ (setCkpt x d).pwr = d.pwr ∧ (setCkpt x d).sec = d.sec ∧
    (setCkpt x d).boot = d.boot ∧ (setCkpt x d).mbox = d.mbox ∧ (setCkpt x d).out = d.out ∧
    (setCkpt x d).free = d.free := by
  simp [setCkpt]

@[simp] theorem setPart_units (x : PartSt) (d : Dev) :
    (setPart x d).part = x ∧ (setPart x d).regs = d.regs ∧ (setPart x d).time = d.time ∧
    (setPart x d).tick = d.tick ∧ (setPart x d).host = d.host ∧ (setPart x d).mem = d.mem ∧
    (setPart x d).newel = d.newel ∧ (setPart x d).fab = d.fab ∧ (setPart x d).link = d.link ∧
    (setPart x d).ras = d.ras ∧ (setPart x d).flash = d.flash ∧ (setPart x d).kv = d.kv ∧
    (setPart x d).tier = d.tier ∧ (setPart x d).sess = d.sess ∧ (setPart x d).run = d.run ∧
    (setPart x d).samp = d.samp ∧ (setPart x d).text = d.text ∧ (setPart x d).ckpt = d.ckpt ∧
    (setPart x d).srch = d.srch ∧ (setPart x d).pwr = d.pwr ∧ (setPart x d).sec = d.sec ∧
    (setPart x d).boot = d.boot ∧ (setPart x d).mbox = d.mbox ∧ (setPart x d).out = d.out ∧
    (setPart x d).free = d.free := by
  simp [setPart]

@[simp] theorem setSrch_units (x : SrchSt) (d : Dev) :
    (setSrch x d).srch = x ∧ (setSrch x d).regs = d.regs ∧ (setSrch x d).time = d.time ∧
    (setSrch x d).tick = d.tick ∧ (setSrch x d).host = d.host ∧ (setSrch x d).mem = d.mem ∧
    (setSrch x d).newel = d.newel ∧ (setSrch x d).fab = d.fab ∧ (setSrch x d).link = d.link ∧
    (setSrch x d).ras = d.ras ∧ (setSrch x d).flash = d.flash ∧ (setSrch x d).kv = d.kv ∧
    (setSrch x d).tier = d.tier ∧ (setSrch x d).sess = d.sess ∧ (setSrch x d).run = d.run ∧
    (setSrch x d).samp = d.samp ∧ (setSrch x d).text = d.text ∧ (setSrch x d).ckpt = d.ckpt ∧
    (setSrch x d).part = d.part ∧ (setSrch x d).pwr = d.pwr ∧ (setSrch x d).sec = d.sec ∧
    (setSrch x d).boot = d.boot ∧ (setSrch x d).mbox = d.mbox ∧ (setSrch x d).out = d.out ∧
    (setSrch x d).free = d.free := by
  simp [setSrch]

@[simp] theorem setPwr_units (x : PwrSt) (d : Dev) :
    (setPwr x d).pwr = x ∧ (setPwr x d).regs = d.regs ∧ (setPwr x d).time = d.time ∧ (setPwr x d).tick = d.tick ∧
    (setPwr x d).host = d.host ∧ (setPwr x d).mem = d.mem ∧ (setPwr x d).newel = d.newel ∧ (setPwr x d).fab = d.fab ∧
    (setPwr x d).link = d.link ∧ (setPwr x d).ras = d.ras ∧ (setPwr x d).flash = d.flash ∧ (setPwr x d).kv = d.kv ∧
    (setPwr x d).tier = d.tier ∧ (setPwr x d).sess = d.sess ∧ (setPwr x d).run = d.run ∧ (setPwr x d).samp = d.samp ∧
    (setPwr x d).text = d.text ∧ (setPwr x d).ckpt = d.ckpt ∧ (setPwr x d).part = d.part ∧
    (setPwr x d).srch = d.srch ∧ (setPwr x d).sec = d.sec ∧ (setPwr x d).boot = d.boot ∧ (setPwr x d).mbox = d.mbox ∧
    (setPwr x d).out = d.out ∧ (setPwr x d).free = d.free := by
  simp [setPwr]

@[simp] theorem setSec_units (x : SecSt) (d : Dev) :
    (setSec x d).sec = x ∧ (setSec x d).regs = d.regs ∧ (setSec x d).time = d.time ∧ (setSec x d).tick = d.tick ∧
    (setSec x d).host = d.host ∧ (setSec x d).mem = d.mem ∧ (setSec x d).newel = d.newel ∧ (setSec x d).fab = d.fab ∧
    (setSec x d).link = d.link ∧ (setSec x d).ras = d.ras ∧ (setSec x d).flash = d.flash ∧ (setSec x d).kv = d.kv ∧
    (setSec x d).tier = d.tier ∧ (setSec x d).sess = d.sess ∧ (setSec x d).run = d.run ∧ (setSec x d).samp = d.samp ∧
    (setSec x d).text = d.text ∧ (setSec x d).ckpt = d.ckpt ∧ (setSec x d).part = d.part ∧
    (setSec x d).srch = d.srch ∧ (setSec x d).pwr = d.pwr ∧ (setSec x d).boot = d.boot ∧ (setSec x d).mbox = d.mbox ∧
    (setSec x d).out = d.out ∧ (setSec x d).free = d.free := by
  simp [setSec]

@[simp] theorem setBoot_units (x : BootSt) (d : Dev) :
    (setBoot x d).boot = x ∧ (setBoot x d).regs = d.regs ∧ (setBoot x d).time = d.time ∧
    (setBoot x d).tick = d.tick ∧ (setBoot x d).host = d.host ∧ (setBoot x d).mem = d.mem ∧
    (setBoot x d).newel = d.newel ∧ (setBoot x d).fab = d.fab ∧ (setBoot x d).link = d.link ∧
    (setBoot x d).ras = d.ras ∧ (setBoot x d).flash = d.flash ∧ (setBoot x d).kv = d.kv ∧
    (setBoot x d).tier = d.tier ∧ (setBoot x d).sess = d.sess ∧ (setBoot x d).run = d.run ∧
    (setBoot x d).samp = d.samp ∧ (setBoot x d).text = d.text ∧ (setBoot x d).ckpt = d.ckpt ∧
    (setBoot x d).part = d.part ∧ (setBoot x d).srch = d.srch ∧ (setBoot x d).pwr = d.pwr ∧
    (setBoot x d).sec = d.sec ∧ (setBoot x d).mbox = d.mbox ∧ (setBoot x d).out = d.out ∧ (setBoot x d).free = d.free := by
  simp [setBoot]

end Sys2Proof.Machine
end

