-- ==== Sys2Proof/Laws/Regs.lean ====
section
/-! SUPPORT. Register fields, counters and outputs: what an update changes, and that it changes nothing else. -/

namespace Sys2Proof.Machine

open Sys2Proof

@[simp] theorem set_units (f : Field) (v : Nat) (d : Dev) :
    (d.set f v).time = d.time ∧ (d.set f v).tick = d.tick ∧ (d.set f v).host = d.host ∧ (d.set f v).mem = d.mem ∧
    (d.set f v).newel = d.newel ∧ (d.set f v).fab = d.fab ∧ (d.set f v).link = d.link ∧ (d.set f v).ras = d.ras ∧
    (d.set f v).flash = d.flash ∧ (d.set f v).kv = d.kv ∧ (d.set f v).tier = d.tier ∧ (d.set f v).sess = d.sess ∧
    (d.set f v).run = d.run ∧ (d.set f v).samp = d.samp ∧ (d.set f v).text = d.text ∧ (d.set f v).ckpt = d.ckpt ∧
    (d.set f v).part = d.part ∧ (d.set f v).srch = d.srch ∧ (d.set f v).pwr = d.pwr ∧ (d.set f v).sec = d.sec ∧
    (d.set f v).boot = d.boot ∧ (d.set f v).mbox = d.mbox ∧ (d.set f v).out = d.out ∧ (d.set f v).free = d.free := by
  simp [Dev.set]

@[simp] theorem count_units (f : Field) (n : Nat) (d : Dev) :
    (d.count f n).time = d.time ∧ (d.count f n).tick = d.tick ∧ (d.count f n).host = d.host ∧
    (d.count f n).mem = d.mem ∧ (d.count f n).newel = d.newel ∧ (d.count f n).fab = d.fab ∧
    (d.count f n).link = d.link ∧ (d.count f n).ras = d.ras ∧ (d.count f n).flash = d.flash ∧
    (d.count f n).kv = d.kv ∧ (d.count f n).tier = d.tier ∧ (d.count f n).sess = d.sess ∧ (d.count f n).run = d.run ∧
    (d.count f n).samp = d.samp ∧ (d.count f n).text = d.text ∧ (d.count f n).ckpt = d.ckpt ∧
    (d.count f n).part = d.part ∧ (d.count f n).srch = d.srch ∧ (d.count f n).pwr = d.pwr ∧
    (d.count f n).sec = d.sec ∧ (d.count f n).boot = d.boot ∧ (d.count f n).mbox = d.mbox ∧
    (d.count f n).out = d.out ∧ (d.count f n).free = d.free := by
  unfold Dev.count; split <;> simp

@[simp] theorem countFree_units (f : Field) (d : Dev) :
    (d.countFree f).time = d.time ∧ (d.countFree f).tick = d.tick ∧ (d.countFree f).host = d.host ∧
    (d.countFree f).mem = d.mem ∧ (d.countFree f).newel = d.newel ∧ (d.countFree f).fab = d.fab ∧
    (d.countFree f).link = d.link ∧ (d.countFree f).ras = d.ras ∧ (d.countFree f).flash = d.flash ∧
    (d.countFree f).kv = d.kv ∧ (d.countFree f).tier = d.tier ∧ (d.countFree f).sess = d.sess ∧
    (d.countFree f).run = d.run ∧ (d.countFree f).samp = d.samp ∧ (d.countFree f).text = d.text ∧
    (d.countFree f).ckpt = d.ckpt ∧ (d.countFree f).part = d.part ∧ (d.countFree f).srch = d.srch ∧
    (d.countFree f).pwr = d.pwr ∧ (d.countFree f).sec = d.sec ∧ (d.countFree f).boot = d.boot ∧
    (d.countFree f).mbox = d.mbox ∧ (d.countFree f).out = d.out := by
  unfold Dev.countFree; split <;> simp

@[simp] theorem clear_units (f : Field) (d : Dev) :
    (d.clear f).time = d.time ∧ (d.clear f).tick = d.tick ∧ (d.clear f).host = d.host ∧ (d.clear f).mem = d.mem ∧
    (d.clear f).newel = d.newel ∧ (d.clear f).fab = d.fab ∧ (d.clear f).link = d.link ∧ (d.clear f).ras = d.ras ∧
    (d.clear f).flash = d.flash ∧ (d.clear f).kv = d.kv ∧ (d.clear f).tier = d.tier ∧ (d.clear f).sess = d.sess ∧
    (d.clear f).run = d.run ∧ (d.clear f).samp = d.samp ∧ (d.clear f).text = d.text ∧ (d.clear f).ckpt = d.ckpt ∧
    (d.clear f).part = d.part ∧ (d.clear f).srch = d.srch ∧ (d.clear f).pwr = d.pwr ∧ (d.clear f).sec = d.sec ∧
    (d.clear f).boot = d.boot ∧ (d.clear f).mbox = d.mbox ∧ (d.clear f).out = d.out ∧ (d.clear f).free = d.free := by
  simp [Dev.clear]

@[simp] theorem raise_units (p i : Nat) (d : Dev) :
    (d.raise p i).time = d.time ∧ (d.raise p i).tick = d.tick ∧ (d.raise p i).host = d.host ∧
    (d.raise p i).mem = d.mem ∧ (d.raise p i).newel = d.newel ∧ (d.raise p i).fab = d.fab ∧
    (d.raise p i).link = d.link ∧ (d.raise p i).ras = d.ras ∧ (d.raise p i).flash = d.flash ∧
    (d.raise p i).kv = d.kv ∧ (d.raise p i).tier = d.tier ∧ (d.raise p i).sess = d.sess ∧ (d.raise p i).run = d.run ∧
    (d.raise p i).samp = d.samp ∧ (d.raise p i).text = d.text ∧ (d.raise p i).ckpt = d.ckpt ∧
    (d.raise p i).part = d.part ∧ (d.raise p i).srch = d.srch ∧ (d.raise p i).pwr = d.pwr ∧
    (d.raise p i).sec = d.sec ∧ (d.raise p i).boot = d.boot ∧ (d.raise p i).mbox = d.mbox ∧
    (d.raise p i).out = d.out ∧ (d.raise p i).free = d.free := by
  simp [Dev.raise]

@[simp] theorem emit_units (x : Out) (d : Dev) :
    (d.emit x).regs = d.regs ∧ (d.emit x).time = d.time ∧ (d.emit x).tick = d.tick ∧ (d.emit x).host = d.host ∧
    (d.emit x).mem = d.mem ∧ (d.emit x).newel = d.newel ∧ (d.emit x).fab = d.fab ∧ (d.emit x).link = d.link ∧
    (d.emit x).ras = d.ras ∧ (d.emit x).flash = d.flash ∧ (d.emit x).kv = d.kv ∧ (d.emit x).tier = d.tier ∧
    (d.emit x).sess = d.sess ∧ (d.emit x).run = d.run ∧ (d.emit x).samp = d.samp ∧ (d.emit x).text = d.text ∧
    (d.emit x).ckpt = d.ckpt ∧ (d.emit x).part = d.part ∧ (d.emit x).srch = d.srch ∧ (d.emit x).pwr = d.pwr ∧
    (d.emit x).sec = d.sec ∧ (d.emit x).boot = d.boot ∧ (d.emit x).mbox = d.mbox ∧ (d.emit x).free = d.free := by
  simp [Dev.emit]

@[simp] theorem emits_units (l : List Out) (d : Dev) :
    (d.emits l).regs = d.regs ∧ (d.emits l).time = d.time ∧ (d.emits l).tick = d.tick ∧ (d.emits l).host = d.host ∧
    (d.emits l).mem = d.mem ∧ (d.emits l).newel = d.newel ∧ (d.emits l).fab = d.fab ∧ (d.emits l).link = d.link ∧
    (d.emits l).ras = d.ras ∧ (d.emits l).flash = d.flash ∧ (d.emits l).kv = d.kv ∧ (d.emits l).tier = d.tier ∧
    (d.emits l).sess = d.sess ∧ (d.emits l).run = d.run ∧ (d.emits l).samp = d.samp ∧ (d.emits l).text = d.text ∧
    (d.emits l).ckpt = d.ckpt ∧ (d.emits l).part = d.part ∧ (d.emits l).srch = d.srch ∧ (d.emits l).pwr = d.pwr ∧
    (d.emits l).sec = d.sec ∧ (d.emits l).boot = d.boot ∧ (d.emits l).mbox = d.mbox ∧ (d.emits l).free = d.free := by
  simp [Dev.emits]

@[simp] theorem writeRange_units (p a : Nat) (b : Bytes) (d : Dev) :
    (writeRange p a b d).regs = d.regs ∧ (writeRange p a b d).time = d.time ∧ (writeRange p a b d).tick = d.tick ∧
    (writeRange p a b d).host = d.host ∧ (writeRange p a b d).newel = d.newel ∧ (writeRange p a b d).fab = d.fab ∧
    (writeRange p a b d).link = d.link ∧ (writeRange p a b d).ras = d.ras ∧ (writeRange p a b d).flash = d.flash ∧
    (writeRange p a b d).kv = d.kv ∧ (writeRange p a b d).tier = d.tier ∧ (writeRange p a b d).sess = d.sess ∧
    (writeRange p a b d).run = d.run ∧ (writeRange p a b d).samp = d.samp ∧ (writeRange p a b d).text = d.text ∧
    (writeRange p a b d).ckpt = d.ckpt ∧ (writeRange p a b d).part = d.part ∧ (writeRange p a b d).srch = d.srch ∧
    (writeRange p a b d).pwr = d.pwr ∧ (writeRange p a b d).sec = d.sec ∧ (writeRange p a b d).boot = d.boot ∧
    (writeRange p a b d).mbox = d.mbox ∧ (writeRange p a b d).out = d.out ∧ (writeRange p a b d).free = d.free := by
  simp [writeRange]

@[simp] theorem writeExport_units (a : Nat) (b : Bytes) (d : Dev) :
    (writeExport a b d).regs = d.regs ∧ (writeExport a b d).time = d.time ∧ (writeExport a b d).tick = d.tick ∧
    (writeExport a b d).host = d.host ∧ (writeExport a b d).newel = d.newel ∧ (writeExport a b d).fab = d.fab ∧
    (writeExport a b d).link = d.link ∧ (writeExport a b d).ras = d.ras ∧ (writeExport a b d).flash = d.flash ∧
    (writeExport a b d).kv = d.kv ∧ (writeExport a b d).tier = d.tier ∧ (writeExport a b d).sess = d.sess ∧
    (writeExport a b d).run = d.run ∧ (writeExport a b d).samp = d.samp ∧ (writeExport a b d).text = d.text ∧
    (writeExport a b d).ckpt = d.ckpt ∧ (writeExport a b d).part = d.part ∧ (writeExport a b d).srch = d.srch ∧
    (writeExport a b d).pwr = d.pwr ∧ (writeExport a b d).sec = d.sec ∧ (writeExport a b d).boot = d.boot ∧
    (writeExport a b d).mbox = d.mbox ∧ (writeExport a b d).out = d.out ∧ (writeExport a b d).free = d.free := by
  simp [writeExport]

@[simp] theorem emit_out (x : Out) (d : Dev) : (d.emit x).out = d.out ++ [x] := rfl
@[simp] theorem emits_out (l : List Out) (d : Dev) : (d.emits l).out = d.out ++ l := rfl

/-! ### Lists of keys and values -/

theorem spGet_drop_same {α : Type} (z : α) (l : List (Nat × α)) (k : Nat) : spGet z (spDrop l k) k = z := by
  induction l with
  | nil => rfl
  | cons x r ih => simp only [spDrop]; split <;> simp_all [spGet]

theorem spGet_drop_other {α : Type} (z : α) (l : List (Nat × α)) {j k : Nat} (h : j ≠ k) :
    spGet z (spDrop l k) j = spGet z l j := by
  induction l with
  | nil => rfl
  | cons x r ih =>
    simp only [spDrop]
    split
    · rw [ih]; simp only [spGet]; split <;> simp_all
    · simp only [spGet, ih]

theorem spGet_ins_other {α : Type} (z : α) (l : List (Nat × α)) {j k : Nat} (v : α) (h : j ≠ k) :
    spGet z (spIns l k v) j = spGet z l j := by
  induction l with
  | nil => simp [spIns, spGet, Ne.symm h]
  | cons x r ih => simp only [spIns]; split <;> simp_all [spGet, Ne.symm h]

theorem spGet_ins_same {α : Type} (z : α) (l : List (Nat × α)) (k : Nat) (v : α) (h : ∀ x ∈ l, x.1 ≠ k) :
    spGet z (spIns l k v) k = v := by
  induction l with
  | nil => simp [spIns, spGet]
  | cons x r ih =>
    simp only [spIns]
    split
    · simp [spGet]
    · have h1 : x.1 ≠ k := h x (by simp)
      simp only [spGet, h1, if_false]
      exact ih fun y hy => h y (by simp [hy])

theorem spDrop_ne {α : Type} (l : List (Nat × α)) (k : Nat) : ∀ x ∈ spDrop l k, x.1 ≠ k := by
  induction l with
  | nil => simp [spDrop]
  | cons x r ih =>
    simp only [spDrop]
    split
    · exact ih
    · rename_i hx
      intro y hy
      rcases List.mem_cons.mp hy with rfl | hy
      · exact hx
      · exact ih y hy

/-- A key reads as it was written. -/
theorem spGet_put_same {α : Type} [DecidableEq α] (z : α) (l : List (Nat × α)) (k : Nat) (v : α) :
    spGet z (spPut z l k v) k = v := by
  unfold spPut
  split
  · simp_all [spGet_drop_same]
  · exact spGet_ins_same z _ k v (spDrop_ne l k)

/-- Every other key reads as before. -/
theorem spGet_put_other {α : Type} [DecidableEq α] (z w : α) (l : List (Nat × α)) {j k : Nat} (v : α) (h : j ≠ k) :
    spGet w (spPut z l k v) j = spGet w l j := by
  unfold spPut
  split
  · exact spGet_drop_other w l h
  · rw [spGet_ins_other w _ v h, spGet_drop_other w l h]

/-! ### Register fields -/

/-- A field reads as its low bits were written. -/
@[simp] theorem get_set_same (d : Dev) (f : Field) (v : Nat) : (d.set f v).get f = v % 2 ^ f.width := by
  simp [Dev.get, Dev.set, spGet_put_same]

/-- A field at another place reads as before. -/
theorem get_set_other (d : Dev) {f g : Field} (v : Nat) (h : g.key ≠ f.key) : (d.set f v).get g = d.get g := by
  exact spGet_put_other f.reset g.reset d.regs.file (v % 2 ^ f.width) h

/-- The same, for fields given as closed terms: `decide` settles the premise. -/
theorem get_count_other (d : Dev) {f g : Field} (n : Nat) (h : g.key ≠ f.key) : (d.count f n).get g = d.get g := by
  unfold Dev.count; split
  · rfl
  · exact get_set_other d _ h

theorem get_raise_other (d : Dev) {g : Field} {p : Nat} (i : Nat) (h : g.key ≠ (Reg.BLK_INT_STATUS p).key) :
    (d.raise p i).get g = d.get g := get_set_other d _ h

/-- An update that leaves the register file alone leaves every field alone. -/
theorem get_of_regs {a b : Dev} (h : a.regs = b.regs) (f : Field) : a.get f = b.get f := by simp [Dev.get, h]

@[simp] theorem get_emit (d : Dev) (x : Out) (f : Field) : (d.emit x).get f = d.get f := rfl
@[simp] theorem get_emits (d : Dev) (l : List Out) (f : Field) : (d.emits l).get f = d.get f := rfl
@[simp] theorem get_setTime (x : TimeSt) (d : Dev) (f : Field) : (setTime x d).get f = d.get f := rfl
@[simp] theorem get_setTick (x : TickSt) (d : Dev) (f : Field) : (setTick x d).get f = d.get f := rfl
@[simp] theorem get_setHost (x : HostSt) (d : Dev) (f : Field) : (setHost x d).get f = d.get f := rfl
@[simp] theorem get_setNewel (x : NewelSt) (d : Dev) (f : Field) : (setNewel x d).get f = d.get f := rfl
@[simp] theorem get_setFab (x : FabSt) (d : Dev) (f : Field) : (setFab x d).get f = d.get f := rfl
@[simp] theorem get_setLink (x : LinkSt) (d : Dev) (f : Field) : (setLink x d).get f = d.get f := rfl
@[simp] theorem get_setRas (x : RasSt) (d : Dev) (f : Field) : (setRas x d).get f = d.get f := rfl
@[simp] theorem get_setFlash (x : FlashSt) (d : Dev) (f : Field) : (setFlash x d).get f = d.get f := rfl
@[simp] theorem get_setKv (x : KvSt) (d : Dev) (f : Field) : (setKv x d).get f = d.get f := rfl
@[simp] theorem get_setTier (x : TierSt) (d : Dev) (f : Field) : (setTier x d).get f = d.get f := rfl
@[simp] theorem get_setSess (x : SessSt) (d : Dev) (f : Field) : (setSess x d).get f = d.get f := rfl
@[simp] theorem get_setRun (x : RunSt) (d : Dev) (f : Field) : (setRun x d).get f = d.get f := rfl
@[simp] theorem get_setSamp (x : SampSt) (d : Dev) (f : Field) : (setSamp x d).get f = d.get f := rfl
@[simp] theorem get_setText (x : TextSt) (d : Dev) (f : Field) : (setText x d).get f = d.get f := rfl
@[simp] theorem get_setCkpt (x : CkptSt) (d : Dev) (f : Field) : (setCkpt x d).get f = d.get f := rfl
@[simp] theorem get_setPart (x : PartSt) (d : Dev) (f : Field) : (setPart x d).get f = d.get f := rfl
@[simp] theorem get_setSrch (x : SrchSt) (d : Dev) (f : Field) : (setSrch x d).get f = d.get f := rfl
@[simp] theorem get_setPwr (x : PwrSt) (d : Dev) (f : Field) : (setPwr x d).get f = d.get f := rfl
@[simp] theorem get_setSec (x : SecSt) (d : Dev) (f : Field) : (setSec x d).get f = d.get f := rfl
@[simp] theorem get_setBoot (x : BootSt) (d : Dev) (f : Field) : (setBoot x d).get f = d.get f := rfl

/-! ### Choices and repetitions -/

@[simp] theorem when_true (f : Dev → Dev) (d : Dev) : when true f d = f d := rfl
@[simp] theorem when_false (f : Dev → Dev) (d : Dev) : when false f d = d := rfl

/-- What every round of a repetition keeps, the whole of it keeps. -/
theorem forAll_keeps {α β : Type} (g : Dev → β) (f : α → Dev → Dev) (h : ∀ x d, g (f x d) = g d) (l : List α) (d : Dev) :
    g (forAll l f d) = g d := by
  unfold forAll
  induction l generalizing d with
  | nil => rfl
  | cons x r ih => rw [List.foldl_cons, ih, h]

theorem when_keeps {β : Type} (g : Dev → β) (f : Dev → Dev) (h : ∀ d, g (f d) = g d) (b : Bool) (d : Dev) :
    g (when b f d) = g d := by
  cases b <;> simp [h]

end Sys2Proof.Machine
end

