-- ==== Sys2Proof/Laws/Memory.lean ====
section
/-! SUPPORT. The two memories: every operation keeps their canonical form, a byte reads as it was last written, and every other
byte reads as before. -/

namespace Sys2Proof.Machine

open Sys2Proof

/-! ### Canonical form -/

theorem spWfFrom_mono {α : Type} [DecidableEq α] (z : α) {lo lo' : Nat} (h : lo' ≤ lo) (l : List (Nat × α))
    (w : spWfFrom z lo l = true) : spWfFrom z lo' l = true := by
  cases l with
  | nil => rfl
  | cons x r =>
    simp only [spWfFrom, Bool.and_eq_true, decide_eq_true_eq] at w ⊢
    exact ⟨⟨Nat.le_trans h w.1.1, w.1.2⟩, w.2⟩

theorem spDrop_wfFrom {α : Type} [DecidableEq α] (z : α) (k lo : Nat) (l : List (Nat × α)) (w : spWfFrom z lo l = true) :
    spWfFrom z lo (spDrop l k) = true := by
  induction l generalizing lo with
  | nil => rfl
  | cons x r ih =>
    simp only [spWfFrom, Bool.and_eq_true, decide_eq_true_eq] at w
    simp only [spDrop]
    split
    · exact spWfFrom_mono z (Nat.le_succ_of_le w.1.1) _ (ih _ w.2)
    · simp only [spWfFrom, Bool.and_eq_true, decide_eq_true_eq]
      exact ⟨w.1, ih _ w.2⟩

theorem spIns_wfFrom {α : Type} [DecidableEq α] (z : α) (k lo : Nat) (v : α) (l : List (Nat × α)) (hv : v ≠ z) (hlo : lo ≤ k)
    (hk : ∀ x ∈ l, x.1 ≠ k) (w : spWfFrom z lo l = true) : spWfFrom z lo (spIns l k v) = true := by
  induction l generalizing lo with
  | nil => simp [spIns, spWfFrom, hv, hlo]
  | cons x r ih =>
    simp only [spWfFrom, Bool.and_eq_true, decide_eq_true_eq] at w
    simp only [spIns]
    split
    · rename_i hlt
      simp only [spWfFrom, Bool.and_eq_true, decide_eq_true_eq]
      exact ⟨⟨hlo, hv⟩, ⟨hlt, w.1.2⟩, w.2⟩
    · rename_i hge
      have hne : x.1 ≠ k := hk x (by simp)
      simp only [spWfFrom, Bool.and_eq_true, decide_eq_true_eq]
      exact ⟨w.1, ih _ (by omega) (fun y hy => hk y (by simp [hy])) w.2⟩

/-- Writing keeps the canonical form. -/
theorem spPut_wf {α : Type} [DecidableEq α] (z : α) (l : List (Nat × α)) (k : Nat) (v : α) (w : spWf z l = true) :
    spWf z (spPut z l k v) = true := by
  unfold spPut
  split
  · exact spDrop_wfFrom z k 0 l w
  · rename_i hv
    exact spIns_wfFrom z k 0 v _ hv (Nat.zero_le _) (spDrop_ne l k) (spDrop_wfFrom z k 0 l w)

theorem spWrite_wf (l : List (Nat × Byte)) (k : Nat) (b : Bytes) (w : spWf (0 : Byte) l = true) :
    spWf (0 : Byte) (spWrite l k b) = true := by
  induction b generalizing l k with
  | nil => exact w
  | cons x r ih => exact ih _ _ (spPut_wf 0 l k x w)

/-- Writing a session range keeps both memories in canonical form. -/
theorem writeRange_wf (p a : Nat) (b : Bytes) (d : Dev) (w : Memory.wf d.mem = true) :
    Memory.wf (writeRange p a b d).mem = true := by
  simp only [Memory.wf, Bool.and_eq_true] at w ⊢
  exact ⟨spWrite_wf _ _ b w.1, w.2⟩

/-- Writing the export memory keeps both memories in canonical form. -/
theorem writeExport_wf (a : Nat) (b : Bytes) (d : Dev) (w : Memory.wf d.mem = true) :
    Memory.wf (writeExport a b d).mem = true := by
  simp only [Memory.wf, Bool.and_eq_true] at w ⊢
  exact ⟨w.1, spWrite_wf _ _ b w.2⟩

/-- The memories of the device after reset are in canonical form. -/
theorem reset_wf : Memory.wf Dev.reset.mem = true := rfl

/-! ### Reading what was written -/

/-- A byte outside the bytes written reads as before. -/
theorem spGet_write_other (l : List (Nat × Byte)) (k : Nat) (b : Bytes) {j : Nat} (h : j < k ∨ k + b.length ≤ j) :
    spGet 0 (spWrite l k b) j = spGet 0 l j := by
  induction b generalizing l k with
  | nil => rfl
  | cons x r ih =>
    simp only [List.length_cons] at h
    rw [spWrite, ih _ _ (by omega), spGet_put_other 0 0 l x (by omega)]

/-- A byte written reads as it was written. -/
theorem spGet_write_same (l : List (Nat × Byte)) (k : Nat) (b : Bytes) {i : Nat} (h : i < b.length) :
    spGet 0 (spWrite l k b) (k + i) = b[i] := by
  induction b generalizing l k i with
  | nil => simp at h
  | cons x r ih =>
    cases i with
    | zero => rw [spWrite, spGet_write_other _ _ _ (by omega)]; exact spGet_put_same 0 l k x
    | succ n =>
      have := ih (spPut 0 l k x) (k + 1) (i := n) (by simpa using h)
      simpa [spWrite, Nat.add_comm, Nat.add_left_comm] using this

/-- Bytes written read back. -/
theorem spRead_write_same (l : List (Nat × Byte)) (k : Nat) (b : Bytes) : spRead (spWrite l k b) k b.length = b := by
  apply List.ext_getElem
  · simp [spRead]
  · intro i h1 h2
    simp only [spRead, List.getElem_map, List.getElem_range]
    exact spGet_write_same l k b h2

/-- Bytes that do not meet those written read as before. -/
theorem spRead_write_other (l : List (Nat × Byte)) (k : Nat) (b : Bytes) {j n : Nat} (h : j + n ≤ k ∨ k + b.length ≤ j) :
    spRead (spWrite l k b) j n = spRead l j n := by
  unfold spRead
  apply List.map_congr_left
  intro i hi
  have := List.mem_range.mp hi
  exact spGet_write_other _ _ _ (by omega)

/-- Bytes written to a session range read back. -/
theorem readRange_writeRange (p a : Nat) (b : Bytes) (d : Dev) : readRange (writeRange p a b d) p a b.length = b :=
  spRead_write_same _ _ _

end Sys2Proof.Machine
end

