-- ==== Sys2Proof/Laws/Settle.lean ====
section
/-! SUPPORT. What follows at once from a change of the device (settle): every unit but the registers, the host interface and the
outputs is as the change left it, and so is every register field that follows no other state. -/

namespace Sys2Proof.Machine

open Sys2Proof

/-! ### The device without registers, host interface and outputs -/

@[simp] theorem inner_set (d : Dev) (f : Field) (v : Nat) : Dev.inner (d.set f v) = Dev.inner d := rfl
@[simp] theorem inner_emit (d : Dev) (x : Out) : Dev.inner (d.emit x) = Dev.inner d := rfl
@[simp] theorem inner_emits (d : Dev) (l : List Out) : Dev.inner (d.emits l) = Dev.inner d := rfl
@[simp] theorem inner_raise (d : Dev) (p i : Nat) : Dev.inner (d.raise p i) = Dev.inner d := rfl
@[simp] theorem inner_setHost (d : Dev) (h : HostSt) : Dev.inner (setHost h d) = Dev.inner d := rfl
@[simp] theorem inner_putCq (d : Dev) (q : Cq) : Dev.inner (putCq q d) = Dev.inner d := rfl
@[simp] theorem inner_putSq (d : Dev) (q : Sq) : Dev.inner (putSq q d) = Dev.inner d := rfl
@[simp] theorem inner_putRing (d : Dev) (r : Ring) : Dev.inner (putRing r d) = Dev.inner d := rfl

@[simp] theorem inner_count (d : Dev) (f : Field) (n : Nat) : Dev.inner (d.count f n) = Dev.inner d := by
  unfold Dev.count; split <;> rfl

@[simp] theorem inner_sendMsix (s v : Nat) (d : Dev) : Dev.inner (sendMsix s v d) = Dev.inner d := by
  unfold sendMsix; dsimp only; split
  · split <;> rfl
  · rfl

@[simp] theorem inner_eventWrite (r : Ring) (b : Bytes) (d : Dev) : Dev.inner (eventWrite r b d) = Dev.inner d := by
  simp only [eventWrite]; split <;> simp

@[simp] theorem inner_postEvent (s r c x i n t : Nat) (d : Dev) : Dev.inner (postEvent s r c x i n t d) = Dev.inner d := by
  unfold postEvent; split
  · split <;> simp
  · split <;> simp

@[simp] theorem inner_postAdmins (e : Option Nat) (c x : Nat) (d : Dev) : Dev.inner (postAdmins e c x d) = Dev.inner d := by
  unfold postAdmins; exact forAll_keeps Dev.inner _ (fun n d => by simp) _ d

@[simp] theorem inner_cqWrite (q : Cq) (b : Bytes) (d : Dev) : Dev.inner (cqWrite q b d) = Dev.inner d := by
  simp only [cqWrite]; split <;> simp

@[simp] theorem inner_cqPush (s i : Nat) (b : Bytes) (d : Dev) : Dev.inner (cqPush s i b d) = Dev.inner d := by
  unfold cqPush; split
  · rfl
  · split <;> simp

@[simp] theorem inner_cqDrain (s i n : Nat) (d : Dev) : Dev.inner (cqDrain s i n d) = Dev.inner d := by
  induction n generalizing d with
  | zero => rfl
  | succ k ih =>
    unfold cqDrain; split
    · rfl
    · split
      · rfl
      · split
        · rfl
        · rw [ih]; simp

@[simp] theorem inner_streamDrain (s i n : Nat) (d : Dev) : Dev.inner (streamDrain s i n d) = Dev.inner d := by
  induction n generalizing d with
  | zero => rfl
  | succ k ih =>
    unfold streamDrain; split
    · rfl
    · split
      · rfl
      · split
        · rfl
        · simp only; rw [ih]; simp

@[simp] theorem inner_streamWrite (s i : Nat) (l : List Bytes) (d : Dev) : Dev.inner (streamWrite s i l d) = Dev.inner d := by
  unfold streamWrite; split
  · split <;> simp
  · simp

@[simp] theorem inner_sqDone (s q c : Nat) (d : Dev) : Dev.inner (sqDone s q c d) = Dev.inner d := by
  unfold sqDone; split <;> simp

@[simp] theorem inner_hostData (s : Nat) (l : List (Nat × Bytes)) (d : Dev) : Dev.inner (hostData s l d) = Dev.inner d := by
  simp [hostData]

/-- A completion changes only registers, the host interface and the outputs (R99). -/
@[simp] theorem inner_complete (m : Cmd) (st r n : Nat) (l : List (Nat × Bytes)) (d : Dev) :
    Dev.inner (complete m st r n l d) = Dev.inner d := by
  unfold complete; dsimp only; split
  · rfl
  · split
    · split
      · rfl
      · rw [inner_count]; rfl
    · split
      · rw [inner_sqDone, inner_hostData]; rfl
      · rw [inner_cqPush, inner_sqDone, inner_hostData]; rfl

@[simp] theorem inner_failWith (m : Cmd) (st : Nat) (d : Dev) : Dev.inner (failWith m st d) = Dev.inner d := by
  simp [failWith]

/-! ### Steps of settle -/

@[simp] theorem inner_keyStep (d : Dev) : Dev.inner (keyStep d) = Dev.inner d := by
  unfold keyStep
  exact forAll_keeps Dev.inner _ (fun p e => by dsimp only; split <;> rfl) _ d

@[simp] theorem inner_keyMeasure (o d : Dev) : Dev.inner (keyMeasure o d) = Dev.inner d := by
  unfold keyMeasure extendMr; split
  · rw [inner_count, inner_set]
  · rfl

@[simp] theorem inner_deficitStep (d : Dev) : Dev.inner (deficitStep d) = Dev.inner d := by
  unfold deficitStep; dsimp only; split
  · simp
  · split <;> simp

@[simp] theorem inner_derivedStep (d : Dev) : Dev.inner (derivedStep d) = Dev.inner d := by
  unfold derivedStep; dsimp only
  rw [when_keeps Dev.inner _ (fun e => inner_raise e 3 3), when_keeps Dev.inner _ (fun e => inner_raise e 0x80 2)]
  rfl

@[simp] theorem inner_modeStep (d : Dev) : Dev.inner (modeStep d) = Dev.inner d := by
  unfold modeStep; dsimp only
  rw [when_keeps Dev.inner _ (fun e => inner_raise e 0 0)]
  exact forAll_keeps Dev.inner setCond (fun c e => inner_set e _ _) _ d

@[simp] theorem inner_intStep (o d : Dev) : Dev.inner (intStep o d) = Dev.inner d := by
  unfold intStep; dsimp only
  rw [when_keeps Dev.inner _ (fun e => inner_emit e _)]
  exact forAll_keeps Dev.inner _ (fun _ e => forAll_keeps Dev.inner _ (fun n z => inner_sendMsix _ _ z) _ e) _ d

/-- Settling changes only registers, the host interface and the outputs. -/
@[simp] theorem inner_settle (o d : Dev) : Dev.inner (settle o d) = Dev.inner d := by simp [settle]

/-! ### Register fields that follow nothing -/

/-- A field outside those that settle writes has another place than each of them. -/
theorem plain_cause {f : Field} (h : follows f = false) (p : Nat) : f.key ≠ (Reg.BLK_INT_STATUS p).key := by
  intro e
  have : f.key % 32768 = 160 := by rw [e]; simp only [Field.key, Reg.BLK_INT_STATUS]; omega
  simp [follows, this] at h

theorem plain_place {f : Field} (h : follows f = false) {k : Nat} (hk : followKeys.contains k = true) : f.key ≠ k := by
  intro e
  simp [follows, e] at h
  simp_all

/-- An operation on the device that leaves a field alone. -/
theorem get_sendMsix (s v : Nat) (d : Dev) (f : Field) : (sendMsix s v d).get f = d.get f := by
  unfold sendMsix; dsimp only; split
  · split <;> rfl
  · rfl

theorem get_eventWrite (r : Ring) (b : Bytes) (d : Dev) (f : Field) : (eventWrite r b d).get f = d.get f := by
  simp only [eventWrite]; split
  · rw [get_sendMsix]; rfl
  · rfl

theorem get_postEvent {s : Nat} (hs : s ∈ slotNumbers) (r c x i n t : Nat) (d : Dev) {f : Field} (h : follows f = false) :
    (postEvent s r c x i n t d).get f = d.get f := by
  have hk : ∀ k, k = (Reg.HOST_WRITES_DISCARDED s).key ∨ k = (Reg.HOST_EVENT_DROPPED s).key → f.key ≠ k := by
    intro k hk
    refine plain_place h ?_
    have : ∀ s ∈ slotNumbers, followKeys.contains (Reg.HOST_WRITES_DISCARDED s).key = true
        ∧ followKeys.contains (Reg.HOST_EVENT_DROPPED s).key = true := by decide
    rcases hk with rfl | rfl
    · exact (this s hs).1
    · exact (this s hs).2
  unfold postEvent; split
  · split
    · exact get_count_other _ _ (hk _ (.inl rfl))
    · rfl
  · split
    · rw [get_count_other _ _ (hk _ (.inr rfl))]; rfl
    · exact get_eventWrite _ _ _ _

/-- What every round of a repetition over members of `l` keeps, the whole of it keeps. -/
theorem forAll_keeps_mem {α β : Type} (g : Dev → β) (f : α → Dev → Dev) (l : List α) (h : ∀ x ∈ l, ∀ d, g (f x d) = g d)
    (d : Dev) : g (forAll l f d) = g d := by
  unfold forAll
  induction l generalizing d with
  | nil => rfl
  | cons x r ih =>
    rw [List.foldl_cons, ih fun y hy => h y (by simp [hy]), h x (by simp)]

theorem get_postAdmins (e : Option Nat) (c x : Nat) (d : Dev) {f : Field} (h : follows f = false) :
    (postAdmins e c x d).get f = d.get f :=
  forAll_keeps_mem (fun d => d.get f) _ _ (fun _ hn z => get_postEvent (List.mem_filter.mp hn).1 _ _ _ _ _ _ z h) d

theorem get_keyStep (d : Dev) {f : Field} (h : follows f = false) : (keyStep d).get f = d.get f := by
  unfold keyStep
  refine forAll_keeps_mem (fun d => d.get f) _ _ (fun p hp e => ?_) d
  have : ∀ p ∈ List.range 8, followKeys.contains (Reg.SEC_PART_OBJECTS p).key = true
      ∧ followKeys.contains (Reg.SEC_PART_KEY p).key = true := by decide
  have ho := plain_place h (this p hp).1
  have hk := plain_place h (this p hp).2
  dsimp only; split
  · rw [get_set_other _ _ hk, get_set_other _ _ ho]
  · rw [get_set_other _ _ ho]

theorem get_keyMeasure (o d : Dev) {f : Field} (h : follows f = false) : (keyMeasure o d).get f = d.get f := by
  have h1 : f.key ≠ (Reg.SEC_MR 5).key := plain_place h (by decide)
  have h2 : f.key ≠ Reg.SEC_EXTENDS.key := plain_place h (by decide)
  unfold keyMeasure extendMr; split
  · rw [get_count_other _ _ h2, get_set_other _ _ h1]
  · rfl

theorem get_deficitStep (d : Dev) {f : Field} (h : follows f = false) : (deficitStep d).get f = d.get f := by
  have h1 : f.key ≠ Reg.FAB_COPY_DEFICIT.key := plain_place h (by decide)
  unfold deficitStep; dsimp only; split
  · rw [get_postAdmins _ _ _ _ h, get_set_other _ _ h1]
  · split
    · rw [get_postAdmins _ _ _ _ h, get_set_other _ _ h1]
    · rw [get_set_other _ _ h1]

theorem get_derivedStep (d : Dev) {f : Field} (h : follows f = false) : (derivedStep d).get f = d.get f := by
  have h1 : f.key ≠ Reg.LOCAL_ONLY.key := plain_place h (by decide)
  have h2 : f.key ≠ Reg.FTL_PLP.key := plain_place h (by decide)
  unfold derivedStep; dsimp only
  rw [when_keeps (fun d => d.get f) _ (fun e => get_raise_other e 3 (plain_cause h 3)),
    when_keeps (fun d => d.get f) _ (fun e => get_raise_other e 2 (plain_cause h 0x80)),
    get_set_other _ _ h2, get_set_other _ _ h1]

theorem get_modeStep (d : Dev) {f : Field} (h : follows f = false) : (modeStep d).get f = d.get f := by
  unfold modeStep; dsimp only
  rw [when_keeps (fun d => d.get f) _ (fun e => get_raise_other e 0 (plain_cause h 0))]
  refine forAll_keeps_mem (fun d => d.get f) setCond _ (fun c hc e => get_set_other e _ (plain_place h ?_)) d
  simp only [modeConds, List.mem_cons, List.not_mem_nil, or_false] at hc
  rcases hc with rfl | rfl | rfl | rfl | rfl | rfl | rfl | rfl | rfl | rfl | rfl | rfl <;> (dsimp only; decide)

theorem regs_intStep (o d : Dev) : (intStep o d).regs = d.regs := by
  have hm : ∀ s v (z : Dev), (sendMsix s v z).regs = z.regs := by
    intro s v z; unfold sendMsix; dsimp only; split
    · split <;> rfl
    · rfl
  unfold intStep; dsimp only
  refine (when_keeps (fun d => d.regs) (fun e => e.emit (.alert (alertLevel d))) (fun _ => rfl) _ _).trans ?_
  exact forAll_keeps (fun d => d.regs) _ (fun _ e => forAll_keeps (fun d => d.regs) _ (fun _ z => hm _ _ z) _ e) _ d

theorem get_intStep (o d : Dev) (f : Field) : (intStep o d).get f = d.get f := get_of_regs (regs_intStep o d) f

/-- Settling leaves every field alone that follows nothing. -/
theorem get_settle (o d : Dev) {f : Field} (h : follows f = false) : (settle o d).get f = d.get f := by
  unfold settle
  rw [get_intStep, get_modeStep _ h, get_derivedStep _ h, get_deficitStep _ h, get_keyMeasure _ _ h, get_keyStep _ h]

/-! ### The host interface and the outputs -/

theorem sameHost_refl (d : Dev) : SameHost d d := rfl

theorem sameHost_trans {a b c : Dev} (h : SameHost a b) (k : SameHost b c) : SameHost a c := by
  unfold SameHost at *; rw [k, h]

theorem sameHost_of_eq {a b : Dev} (h : b.host = a.host) : SameHost a b := by unfold SameHost; rw [h]

theorem sameHost_sendMsix (s v : Nat) (d : Dev) : SameHost d (sendMsix s v d) := by
  unfold sendMsix; dsimp only; split
  · split <;> rfl
  · rfl

theorem sameHost_eventWrite (r : Ring) (b : Bytes) (d : Dev) : SameHost d (eventWrite r b d) := by
  simp only [eventWrite]; split
  · exact sameHost_trans rfl (sameHost_sendMsix _ _ _)
  · rfl

theorem sameHost_postEvent (s r c x i n t : Nat) (d : Dev) : SameHost d (postEvent s r c x i n t d) := by
  unfold postEvent; split
  · split
    · exact sameHost_of_eq (by simp)
    · rfl
  · split
    · simp only [SameHost, count_units]; rfl
    · exact sameHost_eventWrite _ _ _

theorem sameHost_forAll {α : Type} (l : List α) (f : α → Dev → Dev) (h : ∀ x d, SameHost d (f x d)) (d : Dev) :
    SameHost d (forAll l f d) := by
  unfold forAll
  induction l generalizing d with
  | nil => rfl
  | cons x r ih => exact sameHost_trans (h x d) (ih _)

theorem sameHost_when (b : Bool) (f : Dev → Dev) (h : ∀ d, SameHost d (f d)) (d : Dev) : SameHost d (when b f d) := by
  cases b
  · rfl
  · exact h d

/-- Settling posts events and sends interrupt messages, and does nothing else to the host interface. -/
theorem sameHost_settle (o d : Dev) : SameHost d (settle o d) := by
  have keys : ∀ d : Dev, SameHost d (keyStep d) := fun d => sameHost_forAll _ _ (fun p e => by dsimp only; split <;> rfl) d
  have measure : ∀ o d : Dev, SameHost d (keyMeasure o d) := fun o d => by
    unfold keyMeasure extendMr; split
    · exact sameHost_of_eq (by simp)
    · rfl
  have admins : ∀ (e : Option Nat) (c x : Nat) (d : Dev), SameHost d (postAdmins e c x d) := fun e c x d =>
    sameHost_forAll _ _ (fun n z => sameHost_postEvent _ _ _ _ _ _ _ z) d
  have copies : ∀ d : Dev, SameHost d (deficitStep d) := fun d => by
    unfold deficitStep; dsimp only; split
    · exact sameHost_trans rfl (admins _ _ _ _)
    · split
      · exact sameHost_trans rfl (admins _ _ _ _)
      · rfl
  have derived : ∀ d : Dev, SameHost d (derivedStep d) := fun d => by
    unfold derivedStep; dsimp only
    refine sameHost_trans (b := (d.set _ _).set _ _) rfl (sameHost_trans (sameHost_when _ _ ?_ _) (sameHost_when _ _ ?_ _))
    · exact fun e => rfl
    · exact fun e => rfl
  have modes : ∀ d : Dev, SameHost d (modeStep d) := fun d => by
    unfold modeStep; dsimp only
    refine sameHost_trans (sameHost_forAll _ setCond ?_ _) (sameHost_when _ _ ?_ _)
    · exact fun c e => rfl
    · exact fun e => rfl
  have ints : ∀ o d : Dev, SameHost d (intStep o d) := fun o d => by
    unfold intStep; dsimp only
    refine sameHost_trans (sameHost_forAll _ _ ?_ _) (sameHost_when _ _ ?_ _)
    · exact fun _ e => sameHost_forAll _ _ (fun n z => sameHost_sendMsix _ _ z) e
    · exact fun e => rfl
  exact sameHost_trans (keys _) (sameHost_trans (measure _ _) (sameHost_trans (copies _) (sameHost_trans (derived _)
    (sameHost_trans (modes _) (ints _ _)))))

/-- What the device has sent is not taken back. -/
def Grows (d t : Dev) : Prop := ∃ l, t.out = d.out ++ l

theorem grows_refl (d : Dev) : Grows d d := ⟨[], by simp⟩
theorem grows_trans {a b c : Dev} : Grows a b → Grows b c → Grows a c := by
  rintro ⟨l, h⟩ ⟨m, k⟩; exact ⟨l ++ m, by rw [k, h, List.append_assoc]⟩
theorem grows_of_eq {a b : Dev} (h : b.out = a.out) : Grows a b := ⟨[], by simp [h]⟩

theorem grows_forAll {α : Type} (l : List α) (f : α → Dev → Dev) (h : ∀ x d, Grows d (f x d)) (d : Dev) :
    Grows d (forAll l f d) := by
  unfold forAll
  induction l generalizing d with
  | nil => exact grows_refl d
  | cons x r ih => exact grows_trans (h x d) (ih _)

theorem grows_when (b : Bool) (f : Dev → Dev) (h : ∀ d, Grows d (f d)) (d : Dev) : Grows d (when b f d) := by
  cases b
  · exact grows_refl d
  · exact h d

theorem grows_emit (x : Out) (d : Dev) : Grows d (d.emit x) := ⟨[x], rfl⟩

theorem grows_sendMsix (s v : Nat) (d : Dev) : Grows d (sendMsix s v d) := by
  unfold sendMsix; dsimp only; split
  · split
    · exact ⟨_, rfl⟩
    · exact grows_of_eq rfl
  · exact ⟨_, rfl⟩

theorem grows_eventWrite (r : Ring) (b : Bytes) (d : Dev) : Grows d (eventWrite r b d) := by
  simp only [eventWrite]; split
  · exact grows_trans ⟨_, rfl⟩ (grows_sendMsix _ _ _)
  · exact ⟨_, rfl⟩

theorem grows_postEvent (s r c x i n t : Nat) (d : Dev) : Grows d (postEvent s r c x i n t d) := by
  unfold postEvent; split
  · split
    · exact grows_of_eq (by simp)
    · exact grows_refl d
  · split
    · exact grows_of_eq (by simp [putRing])
    · exact grows_eventWrite _ _ _

theorem grows_settle (o d : Dev) : Grows d (settle o d) := by
  have keys : ∀ d : Dev, Grows d (keyStep d) := fun d =>
    grows_forAll _ _ (fun p e => by dsimp only; split <;> exact grows_of_eq rfl) d
  have measure : ∀ o d : Dev, Grows d (keyMeasure o d) := fun o d => by
    unfold keyMeasure extendMr; split
    · exact grows_of_eq (by simp)
    · exact grows_refl d
  have admins : ∀ (e : Option Nat) (c x : Nat) (d : Dev), Grows d (postAdmins e c x d) := fun e c x d =>
    grows_forAll _ _ (fun n z => grows_postEvent _ _ _ _ _ _ _ z) d
  have copies : ∀ d : Dev, Grows d (deficitStep d) := fun d => by
    unfold deficitStep; dsimp only; split
    · exact grows_trans (grows_of_eq rfl) (admins _ _ _ _)
    · split
      · exact grows_trans (grows_of_eq rfl) (admins _ _ _ _)
      · exact grows_of_eq rfl
  have derived : ∀ d : Dev, Grows d (derivedStep d) := fun d => by
    unfold derivedStep; dsimp only
    refine grows_trans (b := (d.set _ _).set _ _) (grows_of_eq rfl) (grows_trans (grows_when _ _ ?_ _) (grows_when _ _ ?_ _))
    · exact fun e => grows_of_eq rfl
    · exact fun e => grows_of_eq rfl
  have modes : ∀ d : Dev, Grows d (modeStep d) := fun d => by
    unfold modeStep; dsimp only
    refine grows_trans (grows_forAll _ setCond ?_ _) (grows_when _ _ ?_ _)
    · exact fun c e => grows_of_eq rfl
    · exact fun e => grows_of_eq rfl
  have ints : ∀ o d : Dev, Grows d (intStep o d) := fun o d => by
    unfold intStep; dsimp only
    refine grows_trans (grows_forAll _ _ ?_ _) (grows_when _ _ ?_ _)
    · exact fun _ e => grows_forAll _ _ (fun n z => grows_sendMsix _ _ z) e
    · exact fun e => grows_emit _ e
  exact grows_trans (keys _) (grows_trans (measure _ _) (grows_trans (copies _) (grows_trans (derived _)
    (grows_trans (modes _) (ints _ _)))))

/-- Settling keeps what the change has sent. -/
theorem sent_settle {o : Out} {d u : Dev} (x : Dev) (h : Sent o d u) : Sent o d (settle x u) := by
  obtain ⟨l, h, m⟩ := h
  obtain ⟨k, g⟩ := grows_settle x u
  exact ⟨l ++ k, by rw [g, h, List.append_assoc], by simp [m]⟩

/-! ### Units -/

/-- Two devices with equal inner parts agree on every unit but the registers, the host interface and the outputs. -/
theorem units_of_inner {a b : Dev} (h : Dev.inner a = Dev.inner b) :
    a.time = b.time ∧ a.tick = b.tick ∧ a.mem = b.mem ∧ a.newel = b.newel ∧ a.fab = b.fab ∧ a.link = b.link ∧ a.ras = b.ras
    ∧ a.flash = b.flash ∧ a.kv = b.kv ∧ a.tier = b.tier ∧ a.sess = b.sess ∧ a.run = b.run ∧ a.samp = b.samp ∧ a.text = b.text
    ∧ a.ckpt = b.ckpt ∧ a.part = b.part ∧ a.srch = b.srch ∧ a.pwr = b.pwr ∧ a.sec = b.sec ∧ a.boot = b.boot ∧ a.mbox = b.mbox
    ∧ a.free = b.free := by
  simp only [Dev.inner, Dev.mk.injEq, true_and] at h
  exact h

/-- Every unit but the registers, the host interface and the outputs is as the change left it. -/
@[simp] theorem settle_units (o d : Dev) :
    (settle o d).time = d.time ∧ (settle o d).tick = d.tick ∧ (settle o d).mem = d.mem ∧ (settle o d).newel = d.newel
    ∧ (settle o d).fab = d.fab ∧ (settle o d).link = d.link ∧ (settle o d).ras = d.ras ∧ (settle o d).flash = d.flash
    ∧ (settle o d).kv = d.kv ∧ (settle o d).tier = d.tier ∧ (settle o d).sess = d.sess ∧ (settle o d).run = d.run
    ∧ (settle o d).samp = d.samp ∧ (settle o d).text = d.text ∧ (settle o d).ckpt = d.ckpt ∧ (settle o d).part = d.part
    ∧ (settle o d).srch = d.srch ∧ (settle o d).pwr = d.pwr ∧ (settle o d).sec = d.sec ∧ (settle o d).boot = d.boot
    ∧ (settle o d).mbox = d.mbox ∧ (settle o d).free = d.free := units_of_inner (inner_settle o d)

/-- Settling leaves alone what `Leaves` speaks of. -/
theorem leaves_settle {fs : List Field} {u v : Dev} (o : Dev) (h : Leaves fs u v) : Leaves fs u (settle o v) :=
  ⟨(inner_settle o v).trans h.1, fun f hf hg => (get_settle o v hf).trans (h.2 f hf hg)⟩

theorem becomes_settle {fs : List Field} {u v : Dev} (o : Dev) (h : Becomes fs u v) : Becomes fs u (settle o v) :=
  ⟨leaves_settle o h.1, sameHost_trans h.2 (sameHost_settle o v)⟩

/-! ### Keeping fields -/

theorem keeps_refl (fs : List Field) (d : Dev) : Keeps fs d d := fun _ _ _ => rfl

theorem keeps_of_regs {fs : List Field} {u v w : Dev} (h : Keeps fs u v) (e : w.regs = v.regs) : Keeps fs u w :=
  fun f hf hg => (get_of_regs e f).trans (h f hf hg)

theorem keeps_trans {fs : List Field} {u v w : Dev} (h : Keeps fs u v) (k : Keeps fs v w) : Keeps fs u w :=
  fun f hf hg => (k f hf hg).trans (h f hf hg)

theorem keeps_mono {fs gs : List Field} {u v : Dev} (h : Keeps fs u v) (k : ∀ f ∈ fs, f ∈ gs) : Keeps gs u v :=
  fun f hf hg => h f hf fun g m => hg g (k g m)

theorem keeps_set {fs : List Field} {u v : Dev} {f : Field} (n : Nat) (h : Keeps fs u v) (m : f ∈ fs) :
    Keeps fs u (v.set f n) := fun g hg k => (get_set_other v n (k f m)).trans (h g hg k)

theorem keeps_count {fs : List Field} {u v : Dev} {f : Field} (n : Nat) (h : Keeps fs u v) (m : f ∈ fs) :
    Keeps fs u (v.count f n) := fun g hg k => (get_count_other v n (k f m)).trans (h g hg k)

theorem keeps_raise {fs : List Field} {u v : Dev} (p i : Nat) (h : Keeps fs u v) : Keeps fs u (v.raise p i) :=
  fun g hg k => (get_raise_other v i (plain_cause hg p)).trans (h g hg k)

theorem keeps_forAll {α : Type} {fs : List Field} (l : List α) (f : α → Dev → Dev) (h : ∀ x ∈ l, ∀ d, Keeps fs d (f x d))
    (d : Dev) : Keeps fs d (forAll l f d) :=
  fun g hg k => forAll_keeps_mem (fun d => d.get g) f l (fun x hx e => h x hx e g hg k) d

theorem keeps_discarded {fs : List Field} {u v : Dev} {s : Nat} (hs : s ∈ slotNumbers) (n : Nat) (h : Keeps fs u v) :
    Keeps fs u (v.count (Reg.HOST_WRITES_DISCARDED s) n) := fun g hg k => by
  have : ∀ s ∈ slotNumbers, followKeys.contains (Reg.HOST_WRITES_DISCARDED s).key = true := by decide
  exact (get_count_other v n (plain_place hg (this s hs))).trans (h g hg k)

theorem regs_sendMsix (s v : Nat) (d : Dev) : (sendMsix s v d).regs = d.regs := by
  unfold sendMsix; dsimp only; split
  · split <;> rfl
  · rfl

theorem regs_cqWrite (q : Cq) (b : Bytes) (d : Dev) : (cqWrite q b d).regs = d.regs := by
  simp only [cqWrite]; split
  · exact regs_sendMsix _ _ _
  · rfl

theorem regs_cqPush (s i : Nat) (b : Bytes) (d : Dev) : (cqPush s i b d).regs = d.regs := by
  unfold cqPush; split
  · rfl
  · split
    · rfl
    · exact regs_cqWrite _ _ _

theorem regs_sqDone (s q c : Nat) (d : Dev) : (sqDone s q c d).regs = d.regs := by
  unfold sqDone; split <;> rfl

/-- A completion of a command of this module's slots changes no field that follows nothing. -/
theorem keeps_complete {fs : List Field} {u v : Dev} (m : Cmd) (st r n : Nat) (l : List (Nat × Bytes))
    (hs : ∀ s q c i, m.origin = .host s q c i → s ∈ slotNumbers) (h : Keeps fs u v) : Keeps fs u (complete m st r n l v) := by
  refine keeps_trans h ?_
  unfold complete; dsimp only; split
  · exact keeps_of_regs (keeps_refl _ _) rfl
  · rename_i s q c i ho
    split
    · split
      · exact keeps_of_regs (keeps_refl _ _) rfl
      · exact keeps_discarded (hs _ _ _ _ ho) 1 (keeps_of_regs (keeps_refl _ _) rfl)
    · split
      · exact keeps_of_regs (keeps_refl _ _) (by rw [regs_sqDone]; rfl)
      · exact keeps_of_regs (keeps_refl _ _) (by rw [regs_cqPush, regs_sqDone]; rfl)

/-! ### Answers -/

/-- A meaning that runs an operation answers a next state, settled, with the queue as it was. -/
theorem run_next (f : Dev → Dev) (s : State) : s.run f = .next { s with dev := settle s.dev (f s.dev) } := rfl

/-- A command whose meaning runs `f` gives `P` when `P` holds of the settled device. -/
theorem gives_of_run {i : Instr} {s : State} {f : Dev → Dev} {P : Dev → Prop} (h : exec i s = s.run f)
    (hp : P (settle s.dev (f s.dev))) : Gives i s P := ⟨_, h.trans (run_next f s), rfl, hp⟩

/-- A guarded operation whose checks give no code runs. -/
theorem guarded_clean {l : List (Bool × Nat)} (h : Clean l) (m : Cmd) (f : Dev → Dev) (d : Dev) : guarded m l f d = f d := by
  unfold guarded; rw [show lowest l = none from h]

/-- A guarded operation with a check that applies completes with the lowest code, and runs nothing (R15). -/
theorem guarded_code {l : List (Bool × Nat)} {st : Nat} (h : lowest l = some st) (m : Cmd) (f : Dev → Dev) (d : Dev) :
    guarded m l f d = failWith m st d := by
  unfold guarded; rw [h]

/-- No code applies exactly when no check of the list does. -/
theorem clean_iff (l : List (Bool × Nat)) : Clean l ↔ ∀ c ∈ l, c.1 = false := by
  unfold Clean lowest
  rw [List.min?_eq_none_iff, List.map_eq_nil_iff, List.filter_eq_nil_iff]
  simp

theorem clean_append (a b : List (Bool × Nat)) : Clean (a ++ b) ↔ Clean a ∧ Clean b := by
  simp only [clean_iff, List.mem_append]
  exact ⟨fun h => ⟨fun c hc => h c (.inl hc), fun c hc => h c (.inr hc)⟩, fun h c hc => hc.elim (h.1 c) (h.2 c)⟩

/-- A host row that passes every check takes its effect on the device that has counted it (R103). -/
theorem hostRow_clean {op : Nat} {checks : Dev → Cmd → List (Bool × Nat)} {c : HostCmd} {d : Dev} (h : Passes op c d)
    (hc : Clean (checks d (cmdOf d c))) (apply : Cmd → Dev → Dev) :
    hostRow op checks apply c d = apply (cmdOf d c)
      ({ d with host := { d.host with nextOrder := d.host.nextOrder + 1 } }.count (Reg.HOST_CMDS_ACCEPTED c.slot) 1) := by
  unfold hostRow
  exact guarded_clean ((clean_append _ _).mpr ⟨h, hc⟩) _ _ _

end Sys2Proof.Machine
end

