-- ==== Sys2Proof/Tests/Slice0.lean ====
section
/-! SUPPORT. Tests: small checks of the model and witnesses for the statements. -/

namespace Sys2Proof.Tests

open Sys2Proof Sys2Proof.Machine

theorem test_reset_queue : State.reset.pending = [] := by decide

end Sys2Proof.Tests
end

