-- ==== Sys2Proof/WellFormed.lean ====
section
/-! DEFINITION. Which commands are well formed: every operand in the range that the manual gives the field it stands for
(R5, R7, R79, R95, R402, R432, R437). The meanings answer for every term; these are the terms that something outside the
device can send. -/

namespace Sys2Proof

/-- A value of `w` bits. -/
def bitsOk (w v : Nat) : Bool := decide (v < 2 ^ w)

/-- An interface that exists: slots are H0 to H15 (R78). -/
def viaOk (v : Via) : Bool :=
  match v with
  | .slot n => bitsOk 4 n
  | .sideband => true
  | .ethernet => true

/-- A session key: NAMESPACE of 16 bits, SID of 64 (R95, R120). -/
def keyOk (k : SessKey) : Bool := bitsOk 16 k.ns && bitsOk 64 k.sid

/-- A submission entry (R95) of a slot and one of its queues (R93). -/
def cmdOk (c : HostCmd) : Bool :=
  bitsOk 4 c.slot && bitsOk 14 c.sq && bitsOk 8 c.opcode && bitsOk 8 c.flags && bitsOk 16 c.cid && bitsOk 16 c.ns
  && bitsOk 16 c.resv && bitsOk 64 c.sid && bitsOk 48 c.step && bitsOk 16 c.stepHi && bitsOk 64 c.addrA
  && bitsOk 64 c.addrB && bitsOk 32 c.lenA && bitsOk 32 c.lenB && c.arg.length == 16

/-- A plan entry (R65). -/
def entryOk (e : PlanEntry) : Bool :=
  bitsOk 32 e.offset && bitsOk 8 e.action && bitsOk 8 e.unitClass && bitsOk 8 e.first && bitsOk 8 e.last
  && decide (e.first ≤ e.last) && bitsOk 64 e.arg

/-- A module number (R391). -/
def moduleOk (m : Nat) : Bool := bitsOk 10 m

/-- A fabric transaction (R402). -/
def txnOk (t : FabTxn) : Bool :=
  bitsOk 8 t.op && bitsOk 3 t.tc && bitsOk 8 t.hops && moduleOk t.src && moduleOk t.dst && bitsOk 8 t.keySlot
  && bitsOk 8 t.status && bitsOk 32 t.tag && bitsOk 32 t.len && bitsOk 64 t.addr && bitsOk 64 t.arg
  && t.payload.length == t.len

/-- A port (R431) and a lane (R431). -/
def portOk (p : Nat) : Bool := bitsOk 4 p
def laneOk (l : Nat) : Bool := decide (l < 9)

/-- A flit (R432). -/
def flitOk (f : Flit) : Bool :=
  bitsOk 12 f.seq && bitsOk 12 f.ack && bitsOk 3 f.tc && bitsOk 4 f.keySlot && decide (f.bytes.length ≤ 242)
  && decide (f.lastBytes ≤ 242)

/-- An object reference (R168, R352). -/
def objOk (o : ObjRef) : Bool :=
  match o with
  | .page id => bitsOk 64 id
  | .granule part idx => bitsOk 3 part && bitsOk 31 idx

/-- A command that something outside the device can send. -/
def Instr.wellFormed (i : Instr) : Bool :=
  match i with
  | .timeNowNsRead via => viaOk via
  | .timeSrcWrite via word => viaOk via && bitsOk 32 word
  | .ptpSyncRx m => bitsOk 8 m.domain
  | .tickEpochWrite via v | .tickChangeAtWrite via v => viaOk via && bitsOk 64 v
  | .tickGuardNsWrite via v => viaOk via && bitsOk 32 v
  | .timeSet c | .nop c | .createSq c | .deleteSq c | .createCq c | .deleteCq c | .createStreamRing c
  | .deleteStreamRing c | .createEventRing c | .deleteEventRing c | .abort c | .create c | .append c | .wait c
  | .park c | .stop c | .rewind c | .fork c | .migrate c | .destroy c | .query c | .modify c | .publish c
  | .biasLoad c | .biasFree c | .querySample c | .vocabLoad c | .vocabFree c | .grammarLoad c | .grammarFree c
  | .stopsetLoad c | .stopsetFree c | .tokenize c | .detokenize c | .rangeMap c | .rangeUnmap c | .rangePlace c
  | .rangeCopyIn c | .rangeCopyOut c | .modelLoad c | .modelUnload c | .parkPolicySet c | .t3Add c | .t3Remove c
  | .partitionPull c | .routeLoad c | .exportSet c | .extentPut c | .extentFree c | .nmOp c | .peerDeclareLost c
  | .indexCreate c | .indexLoad c | .indexCommit c | .sideAppend c | .search c | .mergeBack c | .indexDestroy c
  | .ckptStoreSet c | .ckptBegin c | .ckptAbort c | .ckptRestore c | .ckptDrop c | .ckptList c | .ckptExport c
  | .ckptImport c | .partConfig c | .ctxSet c | .ctxQuery c | .attest c | .attestCert c | .measureExtend c
  | .fwStage c | .fwActivate c | .fwCommit c | .keyRetire c | .selftest c | .errlogRead c | .dumpRead c
  | .dumpClear c | .errInject c => cmdOk c
  | .batchStart e | .layerStart e | .collectiveWindow e | .ckptWindow e | .gateListSwitch e | .promoteBatch e
  | .maintGate e | .calibrate e | .powerState e => entryOk e
  | .tickBeaconRx src _ period epoch => moduleOk src && bitsOk 32 period && bitsOk 64 epoch
  | .stepAnnounceRx src k step _ => moduleOk src && keyOk k && bitsOk 48 step
  | .commitVoteRx src k step => moduleOk src && keyOk k && bitsOk 48 step
  | .stepCommit k => keyOk k
  | .bindSlot slot part key size base _ =>
    bitsOk 4 slot && bitsOk 3 part && bitsOk 6 key && bitsOk 37 size && bitsOk 64 base
  | .unbindSlot slot _ | .unbindComplete slot | .unbindFlushTimeout slot | .hostViral slot | .hostLossComplete slot =>
    bitsOk 4 slot
  | .hostMemRead slot addr _ => bitsOk 4 slot && bitsOk 64 addr && addr % 64 == 0
  | .hostMemWrite slot addr data => bitsOk 4 slot && bitsOk 64 addr && addr % 64 == 0 && data.length == 64
  | .biResponseRx slot line _ | .biTimeout slot line | .snapshotBiTimeout slot line => bitsOk 4 slot && bitsOk 64 line
  | .sqTailDoorbell slot off size v | .cqHeadDoorbell slot off size v =>
    bitsOk 4 slot && bitsOk 17 off && bitsOk 4 size && bitsOk 64 v
  | .watchedLineInvalidate slot q _ => bitsOk 4 slot && bitsOk 14 q.id
  | .commandFetch reads _ => reads.all cmdOk
  | .msixHoldoffEnd slot v => bitsOk 4 slot && bitsOk 11 v
  | .q0EnableWrite via slot word => viaOk via && bitsOk 4 slot && bitsOk 32 word
  | .forwardedCommandRx f => moduleOk f.src && bitsOk 3 f.part && cmdOk f.cmd
  | .forwardedCompletionRx src tag status _ step _ => moduleOk src && bitsOk 32 tag && bitsOk 16 status && bitsOk 48 step
  | .migrationComplete k | .sessionParkTimer k | .sessionTtlExpire k | .sessionGraceExpire k | .wakeHintDue k
  | .compactionDone k _ => keyOk k
  | .regionPinRx src name version _ => moduleOk src && bitsOk 64 name && bitsOk 64 version
  | .pattnRequestRx src tag ks _ => moduleOk src && bitsOk 32 tag && bitsOk 8 ks
  | .pattnResponseRx src _ => moduleOk src
  | .allreducePartialRx src k step _ half _ | .allgatherShardRx src k step _ half _ =>
    moduleOk src && keyOk k && bitsOk 48 step && bitsOk 1 half
  | .peerListRx src k step _ => moduleOk src && keyOk k && bitsOk 48 step
  | .remainderMsgRx src ns _ => moduleOk src && bitsOk 16 ns
  | .tokenizationPassDone unit _ => bitsOk 2 unit
  | .tokenIdsRx src k _ => moduleOk src && keyOk k
  | .loadedDataRx src _ _ model _ | .loadedDataConfirmRx src _ _ model => moduleOk src && bitsOk 64 model
  | .backingLookupDone t key => bitsOk 1 t && bitsOk 80 key
  | .promotionComplete o | .demotionConfirmed o => objOk o
  | .weightWindowFill _ layer => bitsOk 16 layer
  | .frameRx port f => portOk port && bitsOk 4 f.keySlot && txnOk f.txn
  | .fabReadRx t | .allocRx t | .placeRx t | .sealRx t | .freeRx t | .pushOpenRx t | .pushDataRx t | .pushCloseRx t
  | .nmOpRx t | .probeRx t | .fabCompletionRx t => txnOk t
  | .fabTxnTimeout tag => bitsOk 32 tag
  | .peerTimeout m => moduleOk m
  | .repairCopy o => objOk o
  | .frameTxSelect p | .saltRoll p | .trainingStepTimeout p _ _ | .trainingComplete p _ | .portDownRetry p
  | .keySwitch p | .keyPrevExpire p => portOk p
  | .dataFlitRx p f | .idleFlitRx p f | .creditFlitRx p f | .nakFlitRx p f | .saltFlitRx p f | .trainFlitRx p f _ =>
    portOk p && flitOk f
  | .portEnWrite via p word => viaOk via && portOk p && bitsOk 32 word
  | .portRetrain via p => viaOk via && portOk p
  | .laneLossOfSignal p l | .laneSerLimit p l _ | .laneCalibration p l | .laneCalibrationDone p l => portOk p && laneOk l
  | .glLoadIdWrite via v => viaOk via && bitsOk 4 v
  | .glSwitchAtWrite via v => viaOk via && bitsOk 64 v
  | .flashReadDone unit _ => bitsOk 30 unit
  | .flashEraseDone sb _ | .patrolRead sb _ _ => bitsOk 16 sb
  | .channelFail ch _ _ | .rebuildComplete ch => bitsOk 5 ch
  | .ftlHealthGet via word _ => viaOk via && bitsOk 32 word
  | .captureAnnounceRx src _ | .shardVoteRx src _ _ | .restoreRx src _ => moduleOk src
  | .contextRestoreDone part ctx gal => bitsOk 3 part && bitsOk 12 ctx && bitsOk 7 gal
  | .engineDispatch gal _ _ => bitsOk 7 gal
  | .unplannedWake dom | .domUnplannedExpire dom => decide (dom < 68)
  | .holdupMeasNow via word => viaOk via && bitsOk 32 word
  | .hbmSpareCopy stack ch _ _ => bitsOk 3 stack && bitsOk 5 ch
  | .hbmSpareSwitch stack => bitsOk 3 stack
  | .hbmPatrolScrub stack line _ => bitsOk 3 stack && bitsOk 64 line
  | .fatalError cause => decide (cause < 5)
  | .railPowerGood rail => decide (1 ≤ rail ∧ rail ≤ 5)
  | .imageVerified image _ => decide (1 ≤ image ∧ image ≤ 4)
  | .lockWrite via page | .cntClear via page => viaOk via && bitsOk 9 page
  | .blkIntStatusW1c via page mask | .blkIntSet via page mask => viaOk via && bitsOk 9 page && bitsOk 32 mask
  | .counterWriteClear via off | .regLowHalfRead via off => viaOk via && bitsOk 21 off
  | .registerWrite via off size v => viaOk via && bitsOk 21 off && bitsOk 4 size && bitsOk 64 v
  | .glbLockAll via | .mboxClaim via | .mboxRelease via | .mboxGetStage via | .mboxRegRead via | .mboxRegWrite via
  | .mboxDumpRead via | .mboxDumpClear via | .mboxErrlogRead via | .mboxHealthRead via | .mboxModuleReset via =>
    viaOk via
  | .newelShadowScrub row _ => bitsOk 20 row
  | .ptpDelayRespRx _ _ | .syncTimeout | .holdoverExpire | .ppsInEdge _ | .clk10mValidityChange _ | .ppsOutEdge
  | .periodChange | .tickFire | .stepDeadline | .gateEntryStart | .hostLinkDown | .inboxSnapshotDone _
  | .stairwellCopyDone _ | .probeTimer | .tokenBucketRefill | .glLoadDone _ | .flashProgramDone _ _ | .foldStart
  | .gcStart | .mapSnapshot | .healthLogUpdate _ | .searchPassDone _ | .mergeBackBuildDone _ | .captureChunkDone _ _ _
  | .shardCommit _ _ | .restoreBuildDone _ _ | .coolantSample _ _ _ _ | .junctionSample _ _ | .flowAlarm _
  | .inputLoss _ | .inputLow _ | .inputOvervoltage _ | .holdupMeasureDue | .holdupMeasDone _ _ | .holdupCharged
  | .debugUnlock _ | .quadSelftestDue | .watchdogExpire _ | .coldReset | .moduleReset | .hostLinkReset
  | .powerGoodTimeout | .hbmTrainingDone _ _ | .flashLoadDone | .mboxTimeout | .hostLinkUp => true

end Sys2Proof
end

section
/-! PROOFS. The time and tick unit: what its operations change and leave, and the statements of spec/02 about them. -/

namespace Sys2Proof.Machine

open Sys2Proof

/-! ### What a command changes, one update at a time -/

theorem becomes_refl (fs : List Field) (d : Dev) : Becomes fs d d := ⟨⟨rfl, keeps_refl _ _⟩, sameHost_refl d⟩

/-- A command that changes nothing leaves the device as it was. -/
theorem becomes_settle_self (d : Dev) : Becomes [] d (settle d d) := becomes_settle d (becomes_refl _ d)

theorem becomes_set {fs : List Field} {u v : Dev} {f : Field} (n : Nat) (h : Becomes fs u v) (m : f ∈ fs) :
    Becomes fs u (v.set f n) := ⟨⟨h.1.1, keeps_set n h.1.2 m⟩, h.2⟩

theorem becomes_count {fs : List Field} {u v : Dev} {f : Field} (n : Nat) (h : Becomes fs u v) (m : f ∈ fs) :
    Becomes fs u (v.count f n) :=
  ⟨⟨(inner_count v f n).trans h.1.1, keeps_count n h.1.2 m⟩, sameHost_trans h.2 (sameHost_of_eq (by simp))⟩

theorem becomes_raise {fs : List Field} {u v : Dev} (p i : Nat) (h : Becomes fs u v) : Becomes fs u (v.raise p i) :=
  ⟨⟨h.1.1, keeps_raise p i h.1.2⟩, h.2⟩

theorem becomes_setTick {fs : List Field} {u v : Dev} (x : TickSt) (h : Becomes fs u v) :
    Becomes fs { u with tick := x } (setTick x v) :=
  ⟨⟨congrArg (setTick x) h.1.1, keeps_of_regs h.1.2 rfl⟩, h.2⟩

theorem becomes_setTime {fs : List Field} {u v : Dev} (x : TimeSt) (h : Becomes fs u v) :
    Becomes fs { u with time := x } (setTime x v) :=
  ⟨⟨congrArg (setTime x) h.1.1, keeps_of_regs h.1.2 rfl⟩, h.2⟩

/-! ### Register writes (R8, R83, R659) -/

/-- A write from an interface that may write the page takes its effect; any other changes nothing. -/
theorem gives_of_regGate {i : Instr} {s : State} {via : Via} {page : Nat} {f : Dev → Dev} {P : Dev → Prop}
    (h : exec i s = s.run (regGate via page f)) (shut : mayWrite s.dev via page = false → P (settle s.dev s.dev))
    (free : mayWrite s.dev via page = true → P (settle s.dev (f s.dev))) : Gives i s P := by
  refine gives_of_run h ?_
  unfold regGate
  cases hm : mayWrite s.dev via page
  · exact shut hm
  · exact free hm

theorem locked_iff (d : Dev) (page : Nat) : locked d page = true ↔ d.get (Reg.LOCK page) = 1 := by simp [locked]

/-! ### Writes of the TICK page (R50, R52, R55, R57) -/

/-- A refused write sets TICK_WRITE_STATUS and an interrupt cause, and nothing else. -/
theorem settle_tickRefuse (o d : Dev) {st : Nat} (h : st < 8) :
    (settle o (tickRefuse st d)).get Reg.TICK_WRITE_STATUS = st
    ∧ Becomes [Reg.TICK_WRITE_STATUS] d (settle o (tickRefuse st d)) := by
  refine ⟨?_, becomes_settle _ (becomes_raise 2 4 (becomes_set st (becomes_refl _ d) (by simp)))⟩
  simp (disch := decide) only [tickRefuse, get_settle, get_raise_other, get_set_same]
  exact Nat.mod_eq_of_lt h

/-- An epoch that is taken cancels a pending change when ticks run, and leaves the plans alone. -/
theorem tickEpochWrite_taken {v : Nat} {d : Dev} (hl : ¬ d.get (Reg.LOCK 2) = 1) (hv : v % 1000 = 0) (hw : v < 2 ^ 64) :
    let t := tickEpochWrite v d
    t.get Reg.TICK_EPOCH = v ∧ t.get Reg.TICK_WRITE_STATUS = 0
    ∧ (d.tick.running = true → t.get Reg.TICK_CHANGE_AT = 0 ∧ t.tick.corrected = true)
    ∧ (d.tick.running = false → t.get Reg.TICK_CHANGE_AT = d.get Reg.TICK_CHANGE_AT)
    ∧ t.tick.plan = d.tick.plan ∧ t.tick.next = d.tick.next := by
  have hm : v % 2 ^ Reg.TICK_EPOCH.width = v := Nat.mod_eq_of_lt hw
  unfold tickEpochWrite
  simp only [locked_iff, hl, hv, if_false, ne_eq, not_true]
  cases hr : d.tick.running <;>
    simp (disch := decide) [get_raise_other, get_set_other, hm, hr]

theorem becomes_tickEpochWrite {v : Nat} {d : Dev} (hl : ¬ d.get (Reg.LOCK 2) = 1) (hv : v % 1000 = 0) :
    Becomes [Reg.TICK_EPOCH, Reg.TICK_WRITE_STATUS, Reg.TICK_CHANGE_AT] { d with tick := (tickEpochWrite v d).tick }
      (tickEpochWrite v d) := by
  have base : Becomes [Reg.TICK_EPOCH, Reg.TICK_WRITE_STATUS, Reg.TICK_CHANGE_AT] d
      ((d.set Reg.TICK_EPOCH v).set Reg.TICK_WRITE_STATUS 0) :=
    becomes_set 0 (becomes_set v (becomes_refl _ d) (by simp)) (by simp)
  unfold tickEpochWrite
  simp only [locked_iff, hl, hv, if_false, ne_eq, not_true]
  split
  · exact becomes_raise 2 3 (becomes_setTick _ (becomes_set 0 base (by simp)))
  · exact becomes_setTick _ base

/-- A checked register takes a value, and TICK_WRITE_STATUS reads 0. -/
theorem settle_checked (o d : Dev) {f : Field} {v : Nat} (hf : follows f = false)
    (hk : f.key ≠ Reg.TICK_WRITE_STATUS.key) (hv : v < 2 ^ f.width) :
    let t := settle o ((d.set f v).set Reg.TICK_WRITE_STATUS 0)
    t.get f = v ∧ t.get Reg.TICK_WRITE_STATUS = 0 ∧ Becomes [f, Reg.TICK_WRITE_STATUS] d t := by
  refine ⟨?_, ?_, becomes_settle _ (becomes_set 0 (becomes_set v (becomes_refl _ d) (by simp)) (by simp))⟩
  · rw [get_settle _ _ hf, get_set_other _ _ hk, get_set_same, Nat.mod_eq_of_lt hv]
  · rw [get_settle _ _ (by decide), get_set_same]; rfl

theorem guardRefused_iff (v : Nat) (d : Dev) :
    (v < 50000 ∨ d.get Reg.TICK_PERIOD_NS / 8 < v ∨ (d.get Reg.TICK_CHANGE_AT ≠ 0 ∧ d.get Reg.TICK_PERIOD_NEXT / 8 < v)) ↔
    (v < 50000 ∨ d.get Reg.TICK_PERIOD_NS < 8 * v
      ∨ (d.get Reg.TICK_CHANGE_AT ≠ 0 ∧ d.get Reg.TICK_PERIOD_NEXT < 8 * v)) := by
  have h : ∀ n, n / 8 < v ↔ n < 8 * v := fun n => by omega
  rw [h, h]

/-- Settles O6: each write is gated, then refused or taken. -/
theorem tickPageWrites : Obligations.TickPageWrites := by
  refine fun via v s hv => ⟨?_, fun hw => ?_, ?_⟩
  · refine gives_of_regGate (f := tickEpochWrite v) rfl (fun hm => ?_) (fun hm => ?_)
    · simpa only [hm, true_or, if_true] using becomes_settle_self s.dev
    by_cases hl : s.dev.get (Reg.LOCK 2) = 1
    · simpa [hl, tickEpochWrite, locked_iff] using becomes_settle_self s.dev
    by_cases hk : v % 1000 = 0
    · obtain ⟨he, hs, hrun, hstop, hplan, hnext⟩ := tickEpochWrite_taken (d := s.dev) hl hk hv
      simp (disch := decide) only [hm, hl, hk, settle_units, get_settle, Bool.true_eq_false, or_self, if_false, ne_eq, not_true]
      exact ⟨he, hs, hrun, hstop, becomes_settle _ (becomes_tickEpochWrite hl hk), hplan, hnext⟩
    · simpa [hm, hl, hk, tickEpochWrite, locked_iff] using settle_tickRefuse s.dev s.dev (st := 4) (by decide)
  · refine gives_of_regGate (f := tickGuardWrite v) rfl (fun hm => ?_) (fun hm => ?_)
    · simpa only [hm, true_or, if_true] using becomes_settle_self s.dev
    by_cases hl : s.dev.get (Reg.LOCK 2) = 1
    · simpa [hl, tickGuardWrite, locked_iff] using becomes_settle_self s.dev
    simp only [hm, hl, tickGuardWrite, locked_iff, guardRefused_iff, Bool.true_eq_false, or_self, if_false]
    split
    · exact settle_tickRefuse s.dev s.dev (by decide)
    · exact settle_checked s.dev s.dev (by decide) (by decide) hw
  · refine gives_of_regGate (f := tickChangeWrite v) rfl (fun hm => ?_) (fun hm => ?_)
    · simpa only [hm, if_true] using becomes_settle_self s.dev
    simp only [hm, tickChangeWrite, Bool.not_eq_true, Bool.true_eq_false, if_false]
    split
    · exact settle_checked s.dev s.dev (by decide) (by decide) (by decide)
    · split
      · exact settle_tickRefuse s.dev s.dev (by decide)
      · split
        · exact settle_tickRefuse s.dev s.dev (by decide)
        · exact settle_checked s.dev s.dev (by decide) (by decide) hv

/-! ### The time and tick unit changes, and no other

`InTimeUnit fs d t`: nothing but the time and tick unit, the fields of `fs` and the host interface has changed. The servo, the
counter's correction and a completion each have this form, and the form composes. -/

/-- Outside the time and tick unit only the fields of `fs` and the host interface have changed. -/
def InTimeUnit (fs : List Field) (d t : Dev) : Prop := Leaves fs { d with time := t.time, tick := t.tick, free := t.free } t

theorem inTimeUnit_refl (fs : List Field) (d : Dev) : InTimeUnit fs d d := ⟨rfl, keeps_refl _ _⟩

theorem inTimeUnit_trans {fs : List Field} {a b c : Dev} (h : InTimeUnit fs a b) (k : InTimeUnit fs b c) :
    InTimeUnit fs a c :=
  ⟨k.1.trans (congrArg (fun x : Dev => { x with time := c.time, tick := c.tick, free := c.free }) h.1),
    keeps_trans h.2 k.2⟩

theorem inTimeUnit_mono {fs gs : List Field} {d t : Dev} (h : InTimeUnit fs d t) (k : ∀ f ∈ fs, f ∈ gs) :
    InTimeUnit gs d t := ⟨h.1, keeps_mono h.2 k⟩

theorem inTimeUnit_settle {fs : List Field} {d t : Dev} (o : Dev) (h : InTimeUnit fs d t) : InTimeUnit fs d (settle o t) := by
  simpa only [InTimeUnit, settle_units] using leaves_settle o h

/-- A field that follows nothing and is not among `fs` reads as before. -/
theorem get_of_inTimeUnit {fs : List Field} {d t : Dev} (h : InTimeUnit fs d t) {f : Field} (hf : follows f = false)
    (hk : ∀ g ∈ fs, f.key ≠ g.key) : t.get f = d.get f := h.2 f hf hk

theorem inTimeUnit_set (d : Dev) {fs : List Field} {f : Field} (n : Nat) (m : f ∈ fs) : InTimeUnit fs d (d.set f n) :=
  ⟨rfl, keeps_set n (keeps_refl _ _) m⟩

theorem inTimeUnit_count (d : Dev) {fs : List Field} {f : Field} (n : Nat) (m : f ∈ fs) : InTimeUnit fs d (d.count f n) :=
  ⟨by simp, keeps_count n (keeps_refl _ _) m⟩

theorem inTimeUnit_raise (fs : List Field) (d : Dev) (p i : Nat) : InTimeUnit fs d (d.raise p i) :=
  ⟨rfl, keeps_raise p i (keeps_refl _ _)⟩

theorem inTimeUnit_setTime (fs : List Field) (x : TimeSt) (d : Dev) : InTimeUnit fs d (setTime x d) :=
  ⟨rfl, keeps_of_regs (keeps_refl _ _) rfl⟩

theorem inTimeUnit_setTick (fs : List Field) (x : TickSt) (d : Dev) : InTimeUnit fs d (setTick x d) :=
  ⟨rfl, keeps_of_regs (keeps_refl _ _) rfl⟩

theorem inTimeUnit_fresh (fs : List Field) (d : Dev) : InTimeUnit fs d d.fresh.2 :=
  ⟨rfl, keeps_of_regs (keeps_refl _ _) rfl⟩

/-- A host's command was taken from one of the sixteen slots (R78). -/
def FromSlot (m : Cmd) : Prop := ∃ k q c i, m.origin = .host k q c i ∧ k < 16

theorem slot_of_fromSlot {m : Cmd} (h : FromSlot m) : ∀ s q c i, m.origin = .host s q c i → s ∈ slotNumbers := by
  obtain ⟨k, q, c, i, ho, hk⟩ := h
  intro s q' c' i' ho'
  obtain ⟨rfl, -, -, -⟩ := Origin.host.inj (ho.symm.trans ho')
  exact List.mem_range.mpr hk

/-- A completion changes only registers, the host interface and the outputs (R99). -/
@[simp] theorem complete_units (m : Cmd) (st r n : Nat) (l : List (Nat × Bytes)) (d : Dev) :
    let t := complete m st r n l d
    t.time = d.time ∧ t.tick = d.tick ∧ t.mem = d.mem ∧ t.newel = d.newel ∧ t.fab = d.fab ∧ t.link = d.link ∧ t.ras = d.ras
    ∧ t.flash = d.flash ∧ t.kv = d.kv ∧ t.tier = d.tier ∧ t.sess = d.sess ∧ t.run = d.run ∧ t.samp = d.samp ∧ t.text = d.text
    ∧ t.ckpt = d.ckpt ∧ t.part = d.part ∧ t.srch = d.srch ∧ t.pwr = d.pwr ∧ t.sec = d.sec ∧ t.boot = d.boot ∧ t.mbox = d.mbox
    ∧ t.free = d.free := units_of_inner (inner_complete m st r n l d)

theorem inTimeUnit_complete (fs : List Field) {m : Cmd} (st r n : Nat) (l : List (Nat × Bytes)) (hm : FromSlot m) (d : Dev) :
    InTimeUnit fs d (complete m st r n l d) :=
  ⟨by simp, keeps_complete m st r n l (slot_of_fromSlot hm) (keeps_refl _ _)⟩

/-! ### The servo (R47) -/

/-- The fields that the servo's own transitions write. -/
def servoFields : List Field := [Reg.TIME_SERVO, Reg.TIME_SERVO_CHANGES]

theorem inTimeUnit_setServo (v : Nat) (d : Dev) : InTimeUnit servoFields d (setServo v d) := by
  have raised : ∀ (b : Bool) (i : Nat) (e : Dev), InTimeUnit servoFields e (when b (fun z => z.raise 1 i) e) := fun b i e => by
    cases b
    · exact inTimeUnit_refl _ _
    · exact inTimeUnit_raise _ _ _ _
  unfold setServo
  split
  · exact inTimeUnit_refl _ _
  · refine inTimeUnit_trans ?_ (inTimeUnit_trans (inTimeUnit_setTime _ _ _) (inTimeUnit_trans (raised _ 1 _) (raised _ 2 _)))
    exact inTimeUnit_trans (inTimeUnit_set d v (by simp [servoFields]))
      (inTimeUnit_trans (inTimeUnit_count _ 1 (by simp [servoFields])) (inTimeUnit_raise _ _ _ _))

/-- The servo's transition leaves the tick, the host interface and the free values alone. -/
@[simp] theorem setServo_units (v : Nat) (d : Dev) :
    (setServo v d).tick = d.tick ∧ (setServo v d).host = d.host ∧ (setServo v d).free = d.free := by
  unfold setServo
  split
  · simp
  · cases (v == servoHoldover) <;> cases (v == servoExpired) <;> simp

@[simp] theorem setServo_servo {v : Nat} (hv : v < 8) (d : Dev) : (setServo v d).get Reg.TIME_SERVO = v := by
  unfold setServo
  split
  · assumption
  · have hm : v % 2 ^ Reg.TIME_SERVO.width = v := Nat.mod_eq_of_lt hv
    cases (v == servoHoldover) <;> cases (v == servoExpired) <;>
      simp (disch := decide) [get_raise_other, get_count_other, hm]

/-- What a change of state does to the servo's own data. -/
theorem setServo_time {v : Nat} {d : Dev} (h : d.get Reg.TIME_SERVO ≠ v) :
    (setServo v d).time = { d.time with
      good := 0
      stepped := if v = servoAcquiring then false else d.time.stepped
      slew := if v = servoFreeRun then 0 else d.time.slew
      holdAt := if v = servoHoldover then d.time.localNs else d.time.holdAt
      holdBase := if v = servoHoldover then 5000000000000 else d.time.holdBase } := by
  unfold setServo
  rw [if_neg h]
  cases (v == servoHoldover) <;> cases (v == servoExpired) <;> simp [Dev.clock]

/-- A TIME_SET that waits, and whether one has taken effect, are no concern of the servo. -/
@[simp] theorem setServo_edge (v : Nat) (d : Dev) :
    (setServo v d).time.edgeCmd = d.time.edgeCmd ∧ (setServo v d).time.edgeSet = d.time.edgeSet := by
  by_cases h : d.get Reg.TIME_SERVO = v
  · simp [setServo, h]
  · simp [setServo_time h]

/-- Only the servo, its registers and the time data change. -/
theorem becomes_setServo {fs : List Field} {u v : Dev} (n : Nat) (h : Becomes fs u v) (hs : ∀ f ∈ servoFields, f ∈ fs) :
    Becomes fs { u with time := (setServo n v).time } (setServo n v) := by
  obtain ⟨htick, hhost, hfree⟩ := setServo_units n v
  have k := inTimeUnit_mono (inTimeUnit_setServo n v) hs
  rw [InTimeUnit, htick, hfree] at k
  exact ⟨⟨k.1.trans (congrArg (setTime (setServo n v).time) h.1.1), keeps_trans h.1.2 k.2⟩,
    sameHost_trans h.2 (sameHost_of_eq hhost)⟩

/-! ### Losing the source (R44, R47, R48, R674, R679) -/

/-- Three missed syncs of a selected source. -/
theorem becomes_syncTimeout {d : Dev} (h : d.get Reg.TIME_SRC ≠ 0) :
    Becomes [Reg.TIME_SERVO, Reg.TIME_SYNC_MISSED, Reg.TIME_SERVO_CHANGES] { d with time := (syncTimeoutEffect d).time }
      (syncTimeoutEffect d) := by
  let missed := { d with time := { d.time with good := 0 } }
  have base : Becomes [Reg.TIME_SERVO, Reg.TIME_SYNC_MISSED, Reg.TIME_SERVO_CHANGES] missed
      (setTime { d.time with good := 0 } (d.count Reg.TIME_SYNC_MISSED 3)) :=
    becomes_setTime _ (becomes_count 3 (becomes_refl _ d) (by simp))
  unfold syncTimeoutEffect
  rw [if_neg h]
  dsimp only
  split
  · exact becomes_setServo (u := missed) _ base (by simp [servoFields])
  · exact base

/-- LOCKED moves to HOLDOVER with a bound of 50 ns that runs from now; every other state stays. -/
theorem syncTimeout_servo {d : Dev} (h : d.get Reg.TIME_SRC ≠ 0) :
    (syncTimeoutEffect d).get Reg.TIME_SERVO
        = (if d.get Reg.TIME_SERVO = servoLocked then servoHoldover else d.get Reg.TIME_SERVO)
    ∧ (d.get Reg.TIME_SERVO = servoLocked →
        (syncTimeoutEffect d).time.holdBase = 5000000000000 ∧ (syncTimeoutEffect d).time.holdAt = d.time.localNs) := by
  have kept : (d.count Reg.TIME_SYNC_MISSED 3).get Reg.TIME_SERVO = d.get Reg.TIME_SERVO := get_count_other _ _ (by decide)
  unfold syncTimeoutEffect
  rw [if_neg h]
  dsimp only
  by_cases hl : d.get Reg.TIME_SERVO = servoLocked
  · have hne : (setTime { d.time with good := 0 } (d.count Reg.TIME_SYNC_MISSED 3)).get Reg.TIME_SERVO ≠ servoHoldover := by
      rw [get_setTime, kept, hl]; decide
    rw [if_pos hl, if_pos hl, setServo_time hne]
    exact ⟨setServo_servo (by decide) _, fun _ => by simp⟩
  · rw [if_neg hl, if_neg hl]
    exact ⟨by rw [get_setTime, kept], fun k => absurd k hl⟩

/-- A change of the 10 MHz input keeps the bound reached so far. -/
theorem holdBound_clk10mChange {valid : Bool} {d : Dev} (h : d.get Reg.TIME_SERVO = servoHoldover) :
    holdBound (clk10mChange valid d) = holdBound d := by
  simp [clk10mChange, h, holdBound, Dev.clock]

/-- Settles O3, one command at a time. -/
theorem sourceLost : Obligations.SourceLost := by
  refine ⟨fun s hsrc => ?_, fun s => ?_, fun valid s => ?_, fun src delay s => ?_⟩
  · obtain ⟨hservo, hbound⟩ := syncTimeout_servo hsrc
    refine gives_of_run (f := syncTimeoutEffect) rfl ?_
    simp (disch := decide) only [settle_units, get_settle]
    exact ⟨hservo, hbound, becomes_settle _ (becomes_syncTimeout hsrc)⟩
  · refine gives_of_run (f := holdoverExpireEffect) rfl ?_
    unfold holdoverExpireEffect
    split
    · simp (disch := decide) only [settle_units, get_settle]
      exact ⟨setServo_servo (by decide) _, becomes_settle _ (becomes_setServo _ (becomes_refl _ _) (by simp [servoFields]))⟩
    · exact becomes_settle_self _
  · refine gives_of_run (f := clk10mChange valid) rfl ?_
    simp only [settle_units]
    refine ⟨by simp [clk10mChange], becomes_settle _ (becomes_setTime _ (becomes_refl _ _)), fun h => ?_⟩
    simpa only [holdBound, holdRate, Dev.clock, settle_units] using holdBound_clk10mChange (valid := valid) h
  · refine gives_of_run (f := ptpDelay src delay) rfl ?_
    simp only [settle_units]
    refine ⟨by simp [ptpDelay], fun x hx => ?_, becomes_settle _ (becomes_setTime _ (becomes_refl _ _))⟩
    have : x ≠ (src, delay) := fun e => hx (by rw [e])
    simp [ptpDelay, this, hx]

/-! ### A write of the word that holds TIME_SRC (R43, R47, R75) -/

/-- A reserved source is refused; the domain and the port are taken all the same. -/
theorem timeSrcWrite_reserved {w : Nat} {d : Dev} (hl : ¬ d.get (Reg.LOCK 1) = 1) (hw : 4 ≤ w % 8) :
    timeSrcWrite w d = (((d.set Reg.TIME_PTP_DOMAIN (bitsOf w 3 7)).set Reg.TIME_UP_PORT (bitsOf w 10 4)).set
      Reg.TIME_WRITE_STATUS 1).raise 1 3 := by
  simp [timeSrcWrite, locked_iff, hl, hw]

/-- The device once a source is taken: the servo is in FREE_RUN and no TIME_SET waits. -/
def sourceTaken (w : Nat) (d : Dev) : Dev :=
  let e := setServo servoFreeRun ((((d.set Reg.TIME_PTP_DOMAIN (bitsOf w 3 7)).set Reg.TIME_UP_PORT (bitsOf w 10 4)).set
    Reg.TIME_SRC (w % 8)).set Reg.TIME_WRITE_STATUS 0)
  setTime { e.time with
    good := 0
    edgeSet := false
    edgeCmd := none } e

/-- A source that is taken ends a TIME_SET that waits. -/
theorem timeSrcWrite_taken {w : Nat} {d : Dev} (hl : ¬ d.get (Reg.LOCK 1) = 1) (hw : ¬ 4 ≤ w % 8) :
    timeSrcWrite w d = match d.time.edgeCmd with
      | some (m, _) => failWith m stInvalidField (sourceTaken w d)
      | none => sourceTaken w d := by
  simp only [timeSrcWrite, locked_iff, hl, hw, if_false]
  rfl

/-- The fields that a write of the word can change. -/
def sourceFields : List Field :=
  [Reg.TIME_PTP_DOMAIN, Reg.TIME_UP_PORT, Reg.TIME_WRITE_STATUS, Reg.TIME_SRC, Reg.TIME_SERVO, Reg.TIME_SERVO_CHANGES]

theorem inTimeUnit_sourceTaken (w : Nat) (d : Dev) : InTimeUnit sourceFields d (sourceTaken w d) := by
  refine inTimeUnit_trans ?_ (inTimeUnit_setTime _ _ _)
  refine inTimeUnit_trans ?_ (inTimeUnit_mono (inTimeUnit_setServo _ _) (by simp [servoFields, sourceFields]))
  exact ⟨rfl, keeps_set _ (keeps_set _ (keeps_set _ (keeps_set _ (keeps_refl _ _) (by simp [sourceFields]))
    (by simp [sourceFields])) (by simp [sourceFields])) (by simp [sourceFields])⟩

theorem sourceTaken_units (w : Nat) (d : Dev) :
    (sourceTaken w d).tick = d.tick ∧ (sourceTaken w d).host = d.host ∧ (sourceTaken w d).free = d.free
    ∧ (sourceTaken w d).time.edgeCmd = none := by
  simp [sourceTaken]

theorem sourceTaken_fields (w : Nat) (d : Dev) :
    let t := sourceTaken w d
    t.get Reg.TIME_PTP_DOMAIN = w / 8 % 128 ∧ t.get Reg.TIME_UP_PORT = w / 1024 % 16 ∧ t.get Reg.TIME_SRC = w % 8
    ∧ t.get Reg.TIME_SERVO = servoFreeRun ∧ t.get Reg.TIME_WRITE_STATUS = 0 := by
  have kept : ∀ (e : Dev) {f : Field}, follows f = false → (∀ g ∈ servoFields, f.key ≠ g.key) →
      (setServo servoFreeRun e).get f = e.get f := fun e _ => get_of_inTimeUnit (inTimeUnit_setServo _ e)
  simp only [sourceTaken, get_setTime]
  refine ⟨?_, ?_, ?_, setServo_servo (by decide) _, ?_⟩ <;> rw [kept _ (by decide) (by decide)] <;>
    simp (disch := decide) [get_set_other, bitsOf, Reg.TIME_PTP_DOMAIN, Reg.TIME_UP_PORT, Reg.TIME_SRC]

/-- A TIME_SET that waits and is ended leaves the fields, the time and tick unit and what is in force as they are. -/
theorem timeSrcWrite_of_taken {w : Nat} {d : Dev} (hl : ¬ d.get (Reg.LOCK 1) = 1) (hw : ¬ 4 ≤ w % 8)
    (he : ∀ m v, d.time.edgeCmd = some (m, v) → FromSlot m) :
    InTimeUnit [] (sourceTaken w d) (timeSrcWrite w d) ∧ (timeSrcWrite w d).time = (sourceTaken w d).time
    ∧ (timeSrcWrite w d).tick = d.tick ∧ (timeSrcWrite w d).free = d.free
    ∧ (d.time.edgeCmd = none → (timeSrcWrite w d).host = d.host) := by
  obtain ⟨htick, hhost, hfree, -⟩ := sourceTaken_units w d
  rw [timeSrcWrite_taken hl hw]
  cases hc : d.time.edgeCmd with
  | none => exact ⟨inTimeUnit_refl _ _, rfl, htick, hfree, fun _ => hhost⟩
  | some c =>
    exact ⟨inTimeUnit_complete _ _ _ _ _ (he _ _ hc) _, by simp [failWith], by simp [failWith, htick],
      by simp [failWith, hfree], nofun⟩

/-- Settles O4: the write is gated, then the source is refused or taken. -/
theorem timeSourceWrite : Obligations.TimeSourceWrite := by
  refine fun via w s he => gives_of_regGate (f := timeSrcWrite w) rfl (fun hm => ?_) (fun hm => ?_)
  · simpa only [hm, true_or, if_true] using becomes_settle_self s.dev
  by_cases hl : s.dev.get (Reg.LOCK 1) = 1
  · simpa [hl, timeSrcWrite, locked_iff] using becomes_settle_self s.dev
  by_cases hw : 4 ≤ w % 8
  · simp (disch := decide) only [hm, hl, hw, timeSrcWrite_reserved hl hw, get_settle, get_raise_other, get_set_other,
      get_set_same, Bool.true_eq_false, or_self, if_false, if_true]
    refine ⟨by simp [bitsOf, Reg.TIME_PTP_DOMAIN], by simp [bitsOf, Reg.TIME_UP_PORT], rfl, becomes_settle _ ?_⟩
    exact becomes_raise _ _ (becomes_set _ (becomes_set _ (becomes_set _ (becomes_refl _ _) (by simp)) (by simp)) (by simp))
  · obtain ⟨hin, htime, htick, hfree, hhost⟩ := timeSrcWrite_of_taken hl hw he
    obtain ⟨hdom, hport, hsrc, hservo, hstatus⟩ := sourceTaken_fields w s.dev
    obtain ⟨-, -, -, hedge⟩ := sourceTaken_units w s.dev
    have kept : ∀ {f : Field}, follows f = false → (timeSrcWrite w s.dev).get f = (sourceTaken w s.dev).get f :=
      fun hf => get_of_inTimeUnit hin hf (by simp)
    have all := inTimeUnit_trans (inTimeUnit_sourceTaken w s.dev) (inTimeUnit_mono hin (by simp))
    simp (disch := decide) only [hm, hl, hw, Dev.now, get_settle, settle_units, kept, htime, Bool.true_eq_false, or_self,
      if_false]
    refine ⟨hdom, hport, hsrc, hservo, hstatus, hedge, ?_, fun hn => ?_, leaves_settle _ ?_⟩
    · exact get_of_inTimeUnit (inTimeUnit_sourceTaken w s.dev) (by decide) (by decide)
    · exact sameHost_trans (sameHost_of_eq (hhost hn)) (sameHost_settle _ _)
    · rw [InTimeUnit, htick, hfree, htime] at all
      exact all

/-! ### Corrections of the counter (R40, R47, R56) -/

/-- The fields that the servo and a correction of the counter write. -/
def clockFields : List Field := servoFields ++ [Reg.TIME_NOW_NS, Reg.TIME_STEP_CORRECTIONS]

theorem inTimeUnit_stepCorrection (v n : Nat) (d : Dev) :
    InTimeUnit [Reg.TIME_NOW_NS, Reg.TIME_STEP_CORRECTIONS] d (stepCorrection v n d) :=
  inTimeUnit_trans (inTimeUnit_set d v (by simp)) (inTimeUnit_trans (inTimeUnit_setTime _ _ _)
    (inTimeUnit_trans (inTimeUnit_setTick _ _ _) (inTimeUnit_trans (inTimeUnit_count _ 1 (by simp)) (inTimeUnit_raise _ _ _ _))))

/-- The counter takes the value given, and the next boundary is looked for anew; the plans stay. -/
@[simp] theorem stepCorrection_units (v n : Nat) (d : Dev) :
    (stepCorrection v n d).host = d.host ∧ (stepCorrection v n d).free = d.free
    ∧ (stepCorrection v n d).time = { d.time with frac := n % 65536, sub := 0 }
    ∧ (stepCorrection v n d).tick.corrected = true ∧ (stepCorrection v n d).tick.plan = d.tick.plan
    ∧ (stepCorrection v n d).tick.next = d.tick.next := by
  simp [stepCorrection]

@[simp] theorem stepCorrection_now (v n : Nat) (d : Dev) : (stepCorrection v n d).now = v % 2 ^ 64 := by
  simp (disch := decide) [stepCorrection, Dev.now, get_raise_other, get_count_other, Reg.TIME_NOW_NS]

theorem inTimeUnit_freeSlew (fs : List Field) (d : Dev) : InTimeUnit fs d (freeSlew d) :=
  inTimeUnit_trans (inTimeUnit_fresh fs d) (inTimeUnit_setTime fs _ _)

/-- A rate correction is a free choice: nothing else of the time unit changes. -/
@[simp] theorem freeSlew_units (d : Dev) :
    (freeSlew d).host = d.host ∧ (freeSlew d).tick = d.tick ∧ (freeSlew d).time.edgeCmd = d.time.edgeCmd
    ∧ (freeSlew d).time.edgeSet = d.time.edgeSet := by
  simp [freeSlew, Dev.fresh]

@[simp] theorem freeSlew_get (d : Dev) (f : Field) : (freeSlew d).get f = d.get f := rfl

/-! ### A valid sync (R47) -/

/-- The measured offset is recorded and the sync is counted. -/
def syncNoted (o : Int) (d : Dev) : Dev := (d.set Reg.TIME_OFFSET (twos 32 o)).count Reg.TIME_SYNC_RX 1

/-- The counter's correction at a sync in ACQUIRING: its one step, or a rate. -/
def acquireMove (o : Int) (d : Dev) : Dev :=
  let e := d.fresh.2
  if !e.time.stepped ∧ Config.freeNat d.free % 2 = 1 then
    stepCorrection ((e.now : Int) - o).toNat e.time.frac (setTime { e.time with stepped := true } e)
  else freeSlew e

/-- The count of good syncs goes on. -/
def noteGood (g : Nat) (d : Dev) : Dev := setTime { d.time with good := g } d

theorem syncServo_start {d : Dev} (h : d.get Reg.TIME_SERVO = servoFreeRun ∨ d.get Reg.TIME_SERVO = servoExpired) (o : Int) :
    syncServo o d = setServo servoAcquiring (syncNoted o d) := by
  unfold syncServo; rw [if_pos h]; rfl

theorem syncServo_acquiring {d : Dev} (h : d.get Reg.TIME_SERVO = servoAcquiring) (o : Int) :
    syncServo o d = if 16 ≤ goodCount d o ∧ (d.get Reg.TIME_SRC ≠ 3 ∨ d.time.edgeSet) then
        setServo servoLocked (acquireMove o (syncNoted o d))
      else noteGood (goodCount d o) (acquireMove o (syncNoted o d)) := by
  unfold syncServo; rw [h]; rfl

theorem syncServo_locked {d : Dev} (h : d.get Reg.TIME_SERVO = servoLocked) (o : Int) :
    syncServo o d = if 1000 < o.natAbs then setServo servoHoldover (syncNoted o d) else freeSlew (syncNoted o d) := by
  unfold syncServo; rw [h]; rfl

/-- A servo state that is never reported (R73) is treated as HOLDOVER. -/
theorem syncServo_holdover {d : Dev} (h : d.get Reg.TIME_SERVO = servoHoldover ∨ servoExpired < d.get Reg.TIME_SERVO)
    (o : Int) :
    syncServo o d = if 16 ≤ goodCount d o then setServo servoLocked (freeSlew (syncNoted o d))
      else freeSlew (noteGood (goodCount d o) (syncNoted o d)) := by
  simp only [servoHoldover, servoExpired] at h
  have h0 : ¬ (d.get Reg.TIME_SERVO = servoFreeRun ∨ d.get Reg.TIME_SERVO = servoExpired) := by
    simp only [servoFreeRun, servoExpired]; omega
  have h1 : d.get Reg.TIME_SERVO ≠ servoAcquiring := by simp only [servoAcquiring]; omega
  have h2 : d.get Reg.TIME_SERVO ≠ servoLocked := by simp only [servoLocked]; omega
  unfold syncServo; rw [if_neg h0, if_neg h1, if_neg h2]; rfl

theorem sixteenGood_iff (d : Dev) (o : Int) : sixteenGood d o = true ↔ 16 ≤ goodCount d o := by
  rw [sixteenGood, decide_eq_true_eq, goodCount]
  split <;> omega

/-- What the servo does to the device at a sync, once the sync is noted: it corrects the counter and may change its own state. A
TIME_SET that waits goes on waiting, and a boundary that is looked for anew goes on being looked for. -/
structure ServoMove (d t : Dev) : Prop where
  frame : InTimeUnit clockFields d t
  host : t.host = d.host
  edgeCmd : t.time.edgeCmd = d.time.edgeCmd
  edgeSet : t.time.edgeSet = d.time.edgeSet
  corrected : d.tick.corrected = true → t.tick.corrected = true

theorem ServoMove.trans {a b c : Dev} (h : ServoMove a b) (k : ServoMove b c) : ServoMove a c :=
  ⟨inTimeUnit_trans h.frame k.frame, k.host.trans h.host, k.edgeCmd.trans h.edgeCmd, k.edgeSet.trans h.edgeSet,
    fun hc => k.corrected (h.corrected hc)⟩

theorem servoMove_setServo (v : Nat) (d : Dev) : ServoMove d (setServo v d) :=
  ⟨inTimeUnit_mono (inTimeUnit_setServo v d) (by simp [servoFields, clockFields]), by simp, by simp, by simp, by simp⟩

theorem servoMove_freeSlew (d : Dev) : ServoMove d (freeSlew d) :=
  ⟨inTimeUnit_freeSlew _ d, by simp, by simp, by simp, by simp⟩

theorem servoMove_noteGood (g : Nat) (d : Dev) : ServoMove d (noteGood g d) :=
  ⟨inTimeUnit_setTime _ _ d, rfl, rfl, rfl, id⟩

theorem servoMove_acquireMove (o : Int) (d : Dev) : ServoMove d (acquireMove o d) := by
  have fresh : ServoMove d d.fresh.2 := ⟨inTimeUnit_fresh _ d, rfl, rfl, rfl, id⟩
  unfold acquireMove
  dsimp only
  split
  · refine ⟨inTimeUnit_trans fresh.frame (inTimeUnit_trans (inTimeUnit_setTime _ _ _) (inTimeUnit_mono
      (inTimeUnit_stepCorrection _ _ _) (by simp [clockFields]))), ?_, ?_, ?_, ?_⟩ <;> simp [Dev.fresh]
  · exact fresh.trans (servoMove_freeSlew _)

/-- The five rows of R47's table. -/
theorem servo_cases (d : Dev) : (d.get Reg.TIME_SERVO = servoFreeRun ∨ d.get Reg.TIME_SERVO = servoExpired)
    ∨ d.get Reg.TIME_SERVO = servoAcquiring ∨ d.get Reg.TIME_SERVO = servoLocked
    ∨ (d.get Reg.TIME_SERVO = servoHoldover ∨ servoExpired < d.get Reg.TIME_SERVO) := by
  simp only [servoFreeRun, servoAcquiring, servoLocked, servoHoldover, servoExpired]
  omega

theorem servoMove_syncServo (o : Int) (d : Dev) : ServoMove (syncNoted o d) (syncServo o d) := by
  obtain h | h | h | h := servo_cases d
  · rw [syncServo_start h]
    exact servoMove_setServo _ _
  · rw [syncServo_acquiring h]
    split
    · exact (servoMove_acquireMove _ _).trans (servoMove_setServo _ _)
    · exact (servoMove_acquireMove _ _).trans (servoMove_noteGood _ _)
  · rw [syncServo_locked h]
    split
    · exact servoMove_setServo _ _
    · exact servoMove_freeSlew _
  · rw [syncServo_holdover h]
    split
    · exact (servoMove_freeSlew _).trans (servoMove_setServo _ _)
    · exact (servoMove_noteGood _ _).trans (servoMove_freeSlew _)

/-- The fields of the time unit that a sync can change. -/
def syncFields : List Field := Reg.TIME_OFFSET :: Reg.TIME_SYNC_RX :: clockFields

theorem inTimeUnit_syncNoted (o : Int) (d : Dev) : InTimeUnit [Reg.TIME_OFFSET, Reg.TIME_SYNC_RX] d (syncNoted o d) :=
  inTimeUnit_trans (inTimeUnit_set d _ (by simp)) (inTimeUnit_count _ _ (by simp))

theorem inTimeUnit_syncServo (o : Int) (d : Dev) : InTimeUnit syncFields d (syncServo o d) :=
  inTimeUnit_trans (inTimeUnit_mono (inTimeUnit_syncNoted o d) (by simp [syncFields]))
    (inTimeUnit_mono (servoMove_syncServo o d).frame (by simp +contextual [syncFields]))

@[simp] theorem syncNoted_units (o : Int) (d : Dev) :
    (syncNoted o d).time = d.time ∧ (syncNoted o d).tick = d.tick ∧ (syncNoted o d).host = d.host
    ∧ (syncNoted o d).free = d.free := by
  simp [syncNoted]

/-- A counter of a device reads and counts as in another that agrees on it and on its page's freeze. -/
theorem get_count_congr {a b : Dev} {f : Field} (n : Nat) (hf : a.get f = b.get f)
    (hz : a.get (Reg.CNT_FREEZE f.page) = b.get (Reg.CNT_FREEZE f.page)) : (a.count f n).get f = (b.count f n).get f := by
  unfold Dev.count
  rw [hz, hf]
  split
  · exact hf
  · simp

/-- The offset is recorded and the sync is counted, whatever the servo does. -/
theorem syncServo_noted (o : Int) (d : Dev) :
    (syncServo o d).get Reg.TIME_OFFSET = twos 32 o % 2 ^ 32
    ∧ (syncServo o d).get Reg.TIME_SYNC_RX = (d.count Reg.TIME_SYNC_RX 1).get Reg.TIME_SYNC_RX := by
  have kept := fun {f : Field} => get_of_inTimeUnit (servoMove_syncServo o d).frame (f := f)
  constructor
  · rw [kept (by decide) (by decide), syncNoted, get_count_other _ _ (by decide), get_set_same]; rfl
  · rw [kept (by decide) (by decide)]
    exact get_count_congr 1 (get_set_other _ _ (by decide)) (get_set_other _ _ (by decide))

/-- Outside ACQUIRING no sync steps the counter or moves the grid (R40). -/
theorem syncServo_steady {d : Dev} (h : d.get Reg.TIME_SERVO ≠ servoAcquiring) (o : Int) :
    (syncServo o d).now = d.now ∧ (syncServo o d).tick = d.tick := by
  have noted : (syncNoted o d).now = d.now := get_of_inTimeUnit (inTimeUnit_syncNoted o d) (by decide) (by decide)
  have moved : ∀ (v : Nat) (e : Dev), (setServo v e).now = e.now := fun v e =>
    get_of_inTimeUnit (inTimeUnit_setServo v e) (by decide) (by decide)
  have slewed : ∀ e : Dev, (freeSlew e).now = e.now := fun _ => rfl
  obtain k | k | k | k := servo_cases d
  · rw [syncServo_start k]; simp [moved, noted]
  · exact absurd k h
  · rw [syncServo_locked k]; split <;> simp [moved, slewed, noted]
  · rw [syncServo_holdover k]
    split
    · simp [moved, slewed, noted]
    · exact ⟨noted, by simp [noteGood]⟩

/-- The servo state after a sync is that of R47's table. -/
theorem syncServo_servo {d : Dev} (h : d.get Reg.TIME_SERVO ≤ 4) (o : Int) :
    (syncServo o d).get Reg.TIME_SERVO = servoAfter d o := by
  have noted : (syncNoted o d).get Reg.TIME_SERVO = d.get Reg.TIME_SERVO :=
    get_of_inTimeUnit (inTimeUnit_syncNoted o d) (by decide) (by decide)
  have acquired : (acquireMove o (syncNoted o d)).get Reg.TIME_SERVO = d.get Reg.TIME_SERVO := by
    rw [← noted]; unfold acquireMove; dsimp only; split
    · exact get_of_inTimeUnit (inTimeUnit_stepCorrection _ _ _) (by decide) (by decide)
    · rfl
  have servo : ∀ {v : Nat}, v < 8 → ∀ e : Dev, (setServo v e).get Reg.TIME_SERVO = v := setServo_servo
  obtain (k | k) | k | k | k | k := servo_cases d
  · rw [syncServo_start (.inl k), servo (by decide)]; simp [servoAfter, k, servoFreeRun, servoAcquiring]
  · rw [syncServo_start (.inr k), servo (by decide)]; simp [servoAfter, k, servoExpired, servoAcquiring]
  · rw [syncServo_acquiring k]
    simp only [servoAfter, k, servoAcquiring, sixteenGood_iff]
    split
    · exact servo (by decide) _
    · exact acquired.trans k
  · rw [syncServo_locked k]
    simp only [servoAfter, k, servoLocked]
    split
    · exact servo (by decide) _
    · exact noted.trans k
  · rw [syncServo_holdover (.inl k)]
    simp only [servoAfter, k, servoHoldover, sixteenGood_iff]
    split
    · exact servo (by decide) _
    · exact noted.trans k
  · exact absurd h (Nat.not_le.mpr k)

/-- A valid sync of either kind reaches the servo with its offset. -/
theorem exec_of_validSync {i : Instr} {o : Int} {s : State} (h : ValidSync s.dev i o) :
    exec i s = s.run (syncServo o) := by
  cases i with
  | ptpSyncRx m =>
    obtain ⟨ho, hman, htlv, hdom, hsrc⟩ := h
    refine congrArg (fun t => Host.Outcome.next { s with dev := settle s.dev t }) ?_
    simp [ptpSync, hman, htlv, hdom, hsrc, ho]
  | ppsInEdge x =>
    obtain ⟨ho, hsrc, hedge⟩ := h
    refine congrArg (fun t => Host.Outcome.next { s with dev := settle s.dev t }) ?_
    simp [ppsEdge, hsrc, hedge, ho]
  | _ => exact h.elim

/-- Settles O2: the servo's step at a valid sync, row by row of R47's table. -/
theorem validSyncMovesServo : Obligations.ValidSyncMovesServo := by
  intro i o s h h4
  obtain ⟨hoffset, hcount⟩ := syncServo_noted o s.dev
  have frame := inTimeUnit_settle s.dev (inTimeUnit_syncServo o s.dev)
  have host : (syncServo o s.dev).host = s.dev.host := (servoMove_syncServo o s.dev).host.trans (by simp)
  refine gives_of_run (exec_of_validSync h) ⟨?_, ?_, ?_, ?_, frame.1, ?_, fun hne => ?_⟩
  · rw [get_settle _ _ (by decide), syncServo_servo h4]
  · rw [get_settle _ _ (by decide), hoffset]
  · rw [get_settle _ _ (by decide), hcount]
  · exact keeps_mono frame.2 (by simp [syncFields, clockFields, servoFields])
  · exact sameHost_trans (sameHost_of_eq host) (sameHost_settle _ _)
  · obtain ⟨hnow, htick⟩ := syncServo_steady hne o
    exact ⟨(get_settle _ _ (by decide)).trans hnow, by rw [(settle_units _ _).2.1, htick]⟩

/-! ### TIME_SET (R42, R75) -/

/-- With an offset of 0 the step of ACQUIRING gives the counter the value that it has. -/
theorem syncServo_zero_now {d : Dev} (h : d.now < 2 ^ 64) : (syncServo 0 d).now = d.now := by
  have noted : (syncNoted 0 d).now = d.now := get_of_inTimeUnit (inTimeUnit_syncNoted 0 d) (by decide) (by decide)
  have acquired : (acquireMove 0 (syncNoted 0 d)).now = d.now := by
    rw [← noted] at h ⊢
    unfold acquireMove; dsimp only; split
    · simp only [stepCorrection_now, Int.sub_zero, Int.toNat_natCast]
      exact Nat.mod_eq_of_lt h
    · rfl
  by_cases hs : d.get Reg.TIME_SERVO = servoAcquiring
  · rw [syncServo_acquiring hs]
    split
    · exact (get_of_inTimeUnit (inTimeUnit_setServo _ _) (by decide) (by decide)).trans acquired
    · exact acquired
  · exact (syncServo_steady hs 0).1

theorem fromSlot_cmdOf (d : Dev) {c : HostCmd} (h : c.slot < 16) : FromSlot (cmdOf d c) := ⟨_, _, _, _, rfl, h⟩

theorem inTimeUnit_taken (c : HostCmd) (d : Dev) : InTimeUnit [Reg.HOST_CMDS_ACCEPTED c.slot] d (taken c d) :=
  ⟨by simp [taken, Dev.inner], keeps_count 1 (keeps_of_regs (keeps_refl _ _) rfl) (by simp)⟩

@[simp] theorem taken_timeUnit (c : HostCmd) (d : Dev) :
    (taken c d).time = d.time ∧ (taken c d).tick = d.tick ∧ (taken c d).free = d.free := by
  simp [taken]

/-- A TIME_SET that passes every check takes its effect once it is counted. -/
theorem exec_timeSet {c : HostCmd} {s : State} (h : Passes 0x98 c s.dev) (hc : Clean (timeSetChecks s.dev (cmdOf s.dev c))) :
    exec (.timeSet c) s = .next { s with dev := settle s.dev (timeSetApply (cmdOf s.dev c) (taken c s.dev)) } := by
  refine congrArg (fun t => Host.Outcome.next { s with dev := settle s.dev t }) ?_
  exact hostRow_clean h hc timeSetApply

/-- A step correction that completes a command: the device but for the completion is the corrected one. -/
theorem complete_stepCorrection {m : Cmd} (hm : FromSlot m) (v n : Nat) (d : Dev) :
    let t := complete m stSuccess 0 0 [] (stepCorrection v n d)
    InTimeUnit [Reg.TIME_NOW_NS, Reg.TIME_STEP_CORRECTIONS] d t ∧ t.now = v % 2 ^ 64
    ∧ t.time = { d.time with frac := n % 65536, sub := 0 } ∧ t.tick.corrected = true ∧ t.tick.plan = d.tick.plan
    ∧ t.tick.next = d.tick.next ∧ t.free = d.free := by
  have hin := fun fs => inTimeUnit_complete fs stSuccess 0 0 [] hm (stepCorrection v n d)
  refine ⟨inTimeUnit_trans (inTimeUnit_stepCorrection v n d) (hin _), ?_, ?_⟩
  · exact (get_of_inTimeUnit (hin []) (by decide) (by simp)).trans (stepCorrection_now v n d)
  · simp

/-- The device once the TIME_SET that waited for an edge has taken effect and completed. -/
def edgeTaken (m : Cmd) (v : Nat) (d : Dev) : Dev :=
  complete m stSuccess 0 0 [] (stepCorrection v 0 (setTime { d.time with
    edgeCmd := none
    edgeSet := true } d))

/-- The counter has the value that the TIME_SET gave, and no TIME_SET waits. -/
theorem edgeTaken_state {m : Cmd} (hm : FromSlot m) (v : Nat) (d : Dev) :
    InTimeUnit [Reg.TIME_NOW_NS, Reg.TIME_STEP_CORRECTIONS] d (edgeTaken m v d) ∧ (edgeTaken m v d).now = v % 2 ^ 64
    ∧ (edgeTaken m v d).time.edgeCmd = none ∧ (edgeTaken m v d).time.edgeSet = true
    ∧ (edgeTaken m v d).tick.corrected = true := by
  obtain ⟨hin, hnow, htime, hcorr, -, -, -⟩ := complete_stepCorrection hm v 0 (setTime { d.time with
    edgeCmd := none
    edgeSet := true } d)
  exact ⟨inTimeUnit_trans (inTimeUnit_setTime _ _ d) hin, hnow, by rw [edgeTaken, htime]; rfl,
    by rw [edgeTaken, htime]; rfl, hcorr⟩

/-- An edge of PPS_IN with source 3 that a TIME_SET waits for. -/
theorem ppsEdge_waiting {d : Dev} {m : Cmd} {v : Nat} (hsrc : d.get Reg.TIME_SRC = 3) (he : d.time.edgeCmd = some (m, v))
    (o : Int) : ppsEdge o d = syncServo 0 (edgeTaken m v d) := by
  simp [ppsEdge, hsrc, he, edgeTaken]

/-- Settles O5: at once, or armed, and then at the edge. -/
theorem timeSetTakesEffect : Obligations.TimeSetTakesEffect := by
  refine ⟨fun c s hslot hpass hclean => ?_, fun o s m v hsrc hedge hm => ?_⟩
  · refine ⟨_, exec_timeSet hpass hclean, rfl, ?_⟩
    simp only [timeSetApply, show (cmdOf s.dev c).c = c from rfl]
    have htaken := inTimeUnit_taken c s.dev
    split
    · refine ⟨by simp, leaves_settle _ ?_⟩
      have hin := inTimeUnit_trans htaken (inTimeUnit_setTime _ { s.dev.time with
        edgeCmd := some (cmdOf s.dev c, timeSetValue c) } _)
      simpa [InTimeUnit] using hin
    · obtain ⟨hin, hnow, htime, hcorr, hplan, hnext, hfree⟩ :=
        complete_stepCorrection (fromSlot_cmdOf s.dev hslot) (timeSetValue c) (timeSetFrac c) (taken c s.dev)
      have hall := inTimeUnit_trans (fs := [Reg.HOST_CMDS_ACCEPTED c.slot, Reg.TIME_NOW_NS, Reg.TIME_STEP_CORRECTIONS])
        (inTimeUnit_mono htaken (by simp)) (inTimeUnit_mono hin (by simp +contextual))
      rw [InTimeUnit, hfree, (taken_timeUnit c s.dev).2.2] at hall
      simp (disch := decide) only [settle_units, Dev.now, get_settle]
      exact ⟨hnow, by rw [htime], hcorr, by rw [hplan]; simp, by rw [hnext]; simp, leaves_settle _ hall⟩
  · refine gives_of_run (f := ppsEdge o) rfl ?_
    rw [ppsEdge_waiting hsrc hedge]
    obtain ⟨hin, hnow, hcmd, hset, hcorr⟩ := edgeTaken_state hm v s.dev
    have hmove := servoMove_syncServo 0 (edgeTaken m v s.dev)
    have hkept : (syncServo 0 (edgeTaken m v s.dev)).now = (edgeTaken m v s.dev).now :=
      syncServo_zero_now (hnow ▸ Nat.mod_lt _ (by decide))
    have hall := inTimeUnit_trans (fs := [Reg.TIME_NOW_NS, Reg.TIME_STEP_CORRECTIONS, Reg.TIME_OFFSET, Reg.TIME_SYNC_RX,
        Reg.TIME_SERVO, Reg.TIME_SERVO_CHANGES]) (inTimeUnit_mono hin (by simp))
      (inTimeUnit_mono (inTimeUnit_syncServo 0 _) (by simp [syncFields, clockFields, servoFields]))
    simp (disch := decide) only [settle_units, Dev.now, get_settle]
    refine ⟨hkept.trans hnow, ?_, ?_, hmove.corrected ?_, leaves_settle _ hall⟩
    · rw [hmove.edgeCmd, (syncNoted_units _ _).1, hcmd]
    · rw [hmove.edgeSet, (syncNoted_units _ _).1, hset]
    · rw [(syncNoted_units _ _).2.1, hcorr]

/-! ### A nanosecond passes (R39) -/

/-- The time data and the mailbox: what a nanosecond does to other units leaves them alone. -/
def Dev.clockwork (d : Dev) : TimeSt × MboxSt := (d.time, d.mbox)

theorem clockwork_chargeCtx (p n u : Nat) (d : Dev) : (chargeCtx p n u d).clockwork = d.clockwork := by
  simp [Dev.clockwork, chargeCtx, putCtx]

theorem clockwork_chargeStep (k : SessKey) (u : Nat) (d : Dev) : (chargeStep k u d).clockwork = d.clockwork := rfl

theorem clockwork_chargeClock (d : Dev) : (chargeClock d).clockwork = d.clockwork := by
  unfold chargeClock; dsimp only
  rw [forAll_keeps Dev.clockwork _ fun s e => ?_, forAll_keeps Dev.clockwork _ fun g e => ?_]
  · rfl
  · exact forAll_keeps Dev.clockwork _ (fun c e2 => by rw [clockwork_chargeStep, clockwork_chargeCtx]) _ e
  · simpa [Dev.clockwork, putCtx] using clockwork_chargeCtx s.part s.ctx (6 * s.galleries) e

theorem clockwork_domSet (n st : Nat) (d : Dev) : (domSet n st d).clockwork = d.clockwork := by
  unfold domSet; split <;> simp [Dev.clockwork]

theorem clockwork_wakesDue (d : Dev) : (wakesDue d).clockwork = d.clockwork := by
  unfold wakesDue; dsimp only; split
  · rfl
  · exact forAll_keeps Dev.clockwork _ (fun w e => clockwork_domSet _ _ e) _ _

theorem clockwork_stageDone (d : Dev) : (stageDone d).clockwork = d.clockwork := by
  unfold stageDone; split
  · rfl
  · split <;> simp [Dev.clockwork]

theorem clk10mSecond_clock (d : Dev) : (clk10mSecond d).time.localNs = d.time.localNs ∧ (clk10mSecond d).mbox = d.mbox := by
  unfold clk10mSecond; dsimp only
  split
  · split <;> simp
  · simp

/-- Elapsed time advances by one nanosecond, unless a module reset is due. -/
theorem nanosecond_localNs {d : Dev} (h : d.mbox.resetAt = none) : (nanosecond d).time.localNs = d.time.localNs + 1 := by
  let e := clk10mSecond (counterTick d)
  obtain ⟨hlocal, hmbox⟩ : e.time.localNs = (counterTick d).time.localNs ∧ e.mbox = (counterTick d).mbox :=
    clk10mSecond_clock _
  have same : (stageDone (wakesDue (chargeClock e))).clockwork = e.clockwork := by
    rw [clockwork_stageDone, clockwork_wakesDue, clockwork_chargeClock]
  obtain ⟨htime, hm⟩ := Prod.mk.inj same
  have undue : nanosecond d = stageDone (wakesDue (chargeClock e)) := by
    have hr : (stageDone (wakesDue (chargeClock e))).mbox.resetAt = none := by rw [hm, hmbox]; exact h
    unfold nanosecond resetDue
    rw [hr]
  rw [undue, htime, hlocal]
  rfl

/-- Settles O55: the front command by the definition of a step, an empty queue by the nanosecond. -/
theorem frontCommand : Obligations.FrontCommand := by
  refine ⟨fun _ _ _ => rfl, fun s hs => ⟨{ s with dev := settle s.dev (nanosecond s.dev) }, ?_, hs, fun hm => ?_⟩⟩
  · simp only [step, hs, idle, run_next]
  · simpa only [settle_units] using nanosecond_localNs hm

end Sys2Proof.Machine
end

section
/-! PROOFS. What the work of a tick and of a seal leaves alone: the time data, the registers of R73, and the tick but for the three
lists that the work itself keeps. One lemma per operation, in the order of the definitions. -/

namespace Sys2Proof.Machine

open Sys2Proof

/-! ### The grid -/

/-- The block-specific registers of the TIME and TICK pages (R73): offsets 0x100 to 0xFFF of pages 1 and 2. -/
def gridField (f : Field) : Bool := decide (34816 ≤ f.key ∧ f.key < 65536 ∨ 67584 ≤ f.key ∧ f.key < 98304)

/-- What says which tick runs, when the next begins, and with which plan: the time data, the tick without its maintenance
requests, its publication batch and its record of weight-late carries, and the registers of R73. -/
def Dev.grid (d : Dev) : TimeSt × TickSt × (Field → Nat) :=
  (d.time, { d.tick with maint := [], pubBatch := [], lastWeightLate := none }, fun f => if gridField f then d.get f else 0)

/-- A register of R73 reads the same where the grid is the same. -/
theorem get_of_grid {a b : Dev} (h : a.grid = b.grid) {f : Field} (hf : gridField f = true) : a.get f = b.get f := by
  have := congrFun (congrArg (·.2.2) h) f
  simpa [Dev.grid, hf] using this

/-- The tick is the same where the grid is, but for its three lists. -/
theorem tick_of_grid {a b : Dev} (h : a.grid = b.grid) :
    ({ a.tick with maint := [], pubBatch := [], lastWeightLate := none } : TickSt)
      = { b.tick with maint := [], pubBatch := [], lastWeightLate := none } := congrArg (·.2.1) h

theorem gridField_congr {f g : Field} (h : g.key = f.key) : gridField g = gridField f := by rw [gridField, gridField, h]

/-- A field of another page is none of R73. -/
theorem gridField_of_page {f : Field} (h : 3 ≤ f.page) : gridField f = false :=
  decide_eq_false (by simp only [Field.key]; omega)

/-- The fields outside R73 that the work of a tick writes. -/
@[simp] theorem gridField_other :
    gridField Reg.TICK_CARRIED_STEPS = false ∧ gridField Reg.TICK_SYNC_CARRY = false ∧ gridField Reg.TICK_MAINT_CARRY = false
    ∧ gridField Reg.TICK_EMPTY_PLAN = false
    ∧ gridField Reg.FAB_COPY_T2 = false ∧ gridField Reg.FAB_COPY_T4 = false ∧ gridField Reg.FAB_EXPORT_USED = false
    ∧ gridField Reg.FAB_EXTENTS = false ∧ gridField Reg.FAB_MODULES = false ∧ gridField Reg.FAB_PEERS_LOST = false
    ∧ gridField Reg.FAB_PUSH_BASE = false ∧ gridField Reg.FAB_ROUTED = false ∧ gridField Reg.FAB_ROUTE_GEN = false
    ∧ gridField Reg.FAB_SELF = false ∧ gridField Reg.FAB_TXN_SENT = false
    ∧ gridField Reg.FTL_FREE_SLC = false ∧ gridField Reg.FTL_FREE_TLC = false ∧ gridField Reg.FTL_SLC_BYPASS = false
    ∧ gridField Reg.FTL_STATE = false ∧ gridField Reg.FTL_WRITE_BYTES = false
    ∧ gridField Reg.NEWEL_DIR_ENTRIES = false ∧ gridField Reg.NEWEL_PREFIX_DROP = false
    ∧ gridField Reg.NEWEL_PREFIX_EVICT = false ∧ gridField Reg.NEWEL_ROWS_VALID = false ∧ gridField Reg.NEWEL_STASH_USED = false
    ∧ gridField Reg.POWER_MEAS_W = false ∧ gridField Reg.RAS_STEP_ERR = false
    ∧ gridField Reg.SESS_EVENTS_DISCARDED = false ∧ gridField Reg.SESS_EXPIRED = false
    ∧ gridField Reg.SESS_PUBLISH_CONFLICTS = false ∧ gridField Reg.SESS_REWINDS = false
    ∧ gridField Reg.STW_CLEAN_DEMOTIONS = false ∧ gridField Reg.STW_DEMOTE_NOROOM = false ∧ gridField Reg.STW_T1_FREE = false
    ∧ gridField Reg.STW_T4_FREE = false ∧ gridField Reg.STW_T4_LARGEST = false
    ∧ gridField Reg.GL_ACTIVE = false ∧ gridField Reg.GL_ARMED = false
    ∧ gridField Reg.STALL_FABRIC_LOST = false ∧ gridField Reg.STALL_WEIGHT_LATE = false ∧ gridField Reg.STALL_T4_LATE = false
    ∧ gridField Reg.STALL_T3_LATE = false ∧ gridField Reg.STALL_T2_LATE = false ∧ gridField Reg.STALL_COPY_BW = false
    ∧ gridField Reg.FRET_LATE_CARRY = false := by decide

/-- The same, for the fields of a slot, a partition, a port and a map of modules. -/
@[simp] theorem gridField_indexed (n : Nat) :
    gridField (Reg.HOST_EVENT_DROPPED n) = false ∧ gridField (Reg.HOST_WRITES_DISCARDED n) = false
    ∧ gridField (Reg.PART_T1_USED n) = false ∧ gridField (Reg.FAB_CAL_SKIPPED n) = false ∧ gridField (Reg.KEY_SLOT n) = false
    ∧ gridField (Reg.KEY_SWITCH_AT n) = false ∧ gridField (Reg.LANE_ACTIVE n) = false
    ∧ gridField (Reg.FAB_LOST_MAP n) = false ∧ gridField (Reg.FAB_SUSPECT_MAP n) = false
    ∧ gridField (Reg.TXU_VCACHE_CARRY n) = false := by
  refine ⟨?_, ?_, ?_, ?_, ?_, ?_, ?_, ?_, ?_, ?_⟩ <;> refine gridField_of_page ?_
  · exact Nat.le_add_right_of_le (by decide)
  · exact Nat.le_add_right_of_le (by decide)
  · exact Nat.le_add_right_of_le (by decide)
  · exact Nat.le_add_right_of_le (by decide)
  · exact Nat.le_of_ble_eq_true rfl
  · exact Nat.le_of_ble_eq_true rfl
  · exact Nat.le_of_ble_eq_true rfl
  · exact Nat.le_of_ble_eq_true rfl
  · exact Nat.le_of_ble_eq_true rfl
  · exact Nat.le_add_right_of_le (by decide)

/-! ### Single updates -/

@[simp] theorem grid_setNewel (x : NewelSt) (d : Dev) : (setNewel x d).grid = d.grid := rfl
@[simp] theorem grid_setFab (x : FabSt) (d : Dev) : (setFab x d).grid = d.grid := rfl
@[simp] theorem grid_setLink (x : LinkSt) (d : Dev) : (setLink x d).grid = d.grid := rfl
@[simp] theorem grid_setFlash (x : FlashSt) (d : Dev) : (setFlash x d).grid = d.grid := rfl
@[simp] theorem grid_setKv (x : KvSt) (d : Dev) : (setKv x d).grid = d.grid := rfl
@[simp] theorem grid_setTier (x : TierSt) (d : Dev) : (setTier x d).grid = d.grid := rfl
@[simp] theorem grid_setSess (x : SessSt) (d : Dev) : (setSess x d).grid = d.grid := rfl
@[simp] theorem grid_setRun (x : RunSt) (d : Dev) : (setRun x d).grid = d.grid := rfl
@[simp] theorem grid_setText (x : TextSt) (d : Dev) : (setText x d).grid = d.grid := rfl
@[simp] theorem grid_setCkpt (x : CkptSt) (d : Dev) : (setCkpt x d).grid = d.grid := rfl
@[simp] theorem grid_setPart (x : PartSt) (d : Dev) : (setPart x d).grid = d.grid := rfl
@[simp] theorem grid_setPwr (x : PwrSt) (d : Dev) : (setPwr x d).grid = d.grid := rfl
@[simp] theorem grid_emit (x : Out) (d : Dev) : (d.emit x).grid = d.grid := rfl
@[simp] theorem grid_emits (l : List Out) (d : Dev) : (d.emits l).grid = d.grid := rfl
@[simp] theorem grid_fresh (d : Dev) : d.fresh.2.grid = d.grid := rfl
@[simp] theorem grid_writeExport (a : Nat) (b : Bytes) (d : Dev) : (writeExport a b d).grid = d.grid := rfl

/-- A register outside R73. -/
@[simp] theorem grid_set {f : Field} (h : gridField f = false) (v : Nat) (d : Dev) : (d.set f v).grid = d.grid := by
  refine congrArg (fun g => (d.time, ({ d.tick with maint := [], pubBatch := [], lastWeightLate := none } : TickSt), g))
    (funext fun g => ?_)
  split
  · next hg =>
      exact get_set_other d v fun e => absurd (hg.symm.trans ((gridField_congr e).trans h)) (by decide)
  · rfl

@[simp] theorem grid_count {f : Field} (h : gridField f = false) (n : Nat) (d : Dev) : (d.count f n).grid = d.grid := by
  unfold Dev.count; split <;> simp [h]

@[simp] theorem grid_raise (p i : Nat) (d : Dev) : (d.raise p i).grid = d.grid :=
  grid_set (decide_eq_false (by simp only [Field.key, Reg.BLK_INT_STATUS]; omega)) _ d

/-- What every round of a repetition leaves alone, the whole of it does. -/
@[simp] theorem grid_forAll {α : Type} {f : α → Dev → Dev} (h : ∀ x d, (f x d).grid = d.grid) (l : List α) (d : Dev) :
    (forAll l f d).grid = d.grid := forAll_keeps Dev.grid f h l d

@[simp] theorem grid_when {f : Dev → Dev} (h : ∀ d, (f d).grid = d.grid) (b : Bool) (d : Dev) : (when b f d).grid = d.grid :=
  when_keeps Dev.grid f h b d

/-- The same, for a repetition that gathers results beside the device. -/
theorem foldl_keeps {α σ β : Type} (g : σ → β) (f : σ → α → σ) (h : ∀ s x, g (f s x) = g s) (l : List α) (s : σ) :
    g (l.foldl f s) = g s := by
  induction l generalizing s with
  | nil => rfl
  | cons x r ih => rw [List.foldl_cons, ih, h]

/-! ### The host interface: completions, events and streams -/

@[simp] theorem grid_sendMsix (s v : Nat) (d : Dev) : (sendMsix s v d).grid = d.grid := by
  unfold sendMsix; dsimp only; split
  · split <;> rfl
  · rfl

@[simp] theorem grid_cqWrite (q : Cq) (b : Bytes) (d : Dev) : (cqWrite q b d).grid = d.grid := by
  simp only [cqWrite]; split
  · rw [grid_sendMsix]; rfl
  · rfl

@[simp] theorem grid_cqPush (s i : Nat) (b : Bytes) (d : Dev) : (cqPush s i b d).grid = d.grid := by
  unfold cqPush; split
  · rfl
  · split
    · rfl
    · exact grid_cqWrite _ _ _

@[simp] theorem grid_sqDone (s q c : Nat) (d : Dev) : (sqDone s q c d).grid = d.grid := by
  unfold sqDone; split <;> rfl

@[simp] theorem grid_complete (m : Cmd) (st r n : Nat) (l : List (Nat × Bytes)) (d : Dev) :
    (complete m st r n l d).grid = d.grid := by
  unfold complete; dsimp only; split
  · rfl
  · split
    · split
      · rfl
      · rw [grid_count (by simp)]; rfl
    · split
      · rw [grid_sqDone]; rfl
      · rw [grid_cqPush, grid_sqDone]; rfl

@[simp] theorem grid_failWith (m : Cmd) (st : Nat) (d : Dev) : (failWith m st d).grid = d.grid := grid_complete _ _ _ _ _ _

@[simp] theorem grid_putRing (r : Ring) (d : Dev) : (putRing r d).grid = d.grid := rfl

@[simp] theorem grid_eventWrite (r : Ring) (b : Bytes) (d : Dev) : (eventWrite r b d).grid = d.grid := by
  simp only [eventWrite]; split
  · rw [grid_sendMsix]; rfl
  · rfl

@[simp] theorem grid_postEvent (s r c x i n t : Nat) (d : Dev) : (postEvent s r c x i n t d).grid = d.grid := by
  unfold postEvent; split
  · split <;> simp
  · split <;> simp

@[simp] theorem grid_postAdmins (e : Option Nat) (c x : Nat) (d : Dev) : (postAdmins e c x d).grid = d.grid := by
  simp [postAdmins]

@[simp] theorem grid_postPartition (p c x i n t : Nat) (d : Dev) : (postPartition p c x i n t d).2.grid = d.grid := by
  simp [postPartition]

@[simp] theorem grid_streamDrain (s i n : Nat) (d : Dev) : (streamDrain s i n d).grid = d.grid := by
  induction n generalizing d with
  | zero => rfl
  | succ k ih =>
    unfold streamDrain; split
    · rfl
    · split
      · rfl
      · split
        · rfl
        · simp only; rw [ih]; simp

@[simp] theorem grid_streamWrite (s i : Nat) (l : List Bytes) (d : Dev) : (streamWrite s i l d).grid = d.grid := by
  unfold streamWrite; split
  · split <;> simp
  · simp

/-! ### Pools, pages, sessions -/

theorem grid_of_pair {α : Type} {p : α × Dev} {a : α} {e : Dev} (h : p = (a, e)) : e.grid = p.2.grid := by rw [h]

@[simp] theorem grid_poolGive (p n : Nat) (d : Dev) : (poolGive p n d).grid = d.grid := by
  unfold poolGive; dsimp only; split <;> simp

@[simp] theorem grid_poolTake (p n : Nat) (d : Dev) : (poolTake p n d).grid = d.grid := by
  unfold poolTake; dsimp only; split <;> simp

@[simp] theorem grid_poolAlloc (p n : Nat) (d : Dev) : (poolAlloc p n d).2.grid = d.grid := by
  simp only [poolAlloc, grid_poolTake]; rfl

@[simp] theorem grid_putDesc (x : Desc) (d : Dev) : (putDesc x d).grid = d.grid := rfl

@[simp] theorem grid_onDesc (k : SessKey) (f : Desc → Desc) (d : Dev) : (onDesc k f d).grid = d.grid := by
  unfold onDesc; split <;> simp

@[simp] theorem grid_enterState (k : SessKey) (st r : Nat) (d : Dev) : (enterState k st r d).grid = d.grid := grid_onDesc _ _ _

@[simp] theorem grid_sessEvent (x : Desc) (c i n : Nat) (d : Dev) : (sessEvent x c i n d).grid = d.grid := by
  unfold sessEvent; dsimp only; split
  · simp
  · split
    · simp
    · split <;> simp

@[simp] theorem grid_pinRegion (n v : Nat) (b : Bool) (d : Dev) : (pinRegion n v b d).grid = d.grid := by
  simp [pinRegion]

@[simp] theorem grid_putPage (p : Page) (d : Dev) : (putPage p d).grid = d.grid := rfl

@[simp] theorem grid_onPage (i : Nat) (f : Page → Page) (d : Dev) : (onPage i f d).grid = d.grid := by
  unfold onPage; split <;> simp

@[simp] theorem grid_unrefPage (i : Nat) (d : Dev) : (unrefPage i d).grid = d.grid := grid_onPage _ _ _

@[simp] theorem grid_unrefAll (l : List PageEnt) (d : Dev) : (unrefAll l d).grid = d.grid := by simp [unrefAll]

@[simp] theorem grid_prefixUndo (k : SessKey) (d : Dev) : (prefixUndo k d).grid = d.grid := by
  unfold prefixUndo; split
  · rfl
  · split <;> simp

@[simp] theorem grid_dropStep (k : SessKey) (d : Dev) : (dropStep k d).grid = d.grid := by simp [dropStep]

@[simp] theorem grid_compactAbandon (k : SessKey) (p : KvBuild → Bool) (d : Dev) : (compactAbandon k p d).grid = d.grid := rfl

@[simp] theorem grid_newPage (x : Desc) (c n : Nat) (l k : List Nat) (d : Dev) : (newPage x c n l k d).2.grid = d.grid := by
  simp only [newPage, grid_setKv, grid_poolAlloc]

/-! ### The Newel directory -/

@[simp] theorem grid_newelSync (d : Dev) : (newelSync d).grid = d.grid := by simp [newelSync]

@[simp] theorem grid_newelDelete (t k : Nat) (d : Dev) : (newelDelete t k d).grid = d.grid := by simp [newelDelete, newelDrop]

@[simp] theorem grid_newelInstall (t k r : Nat) (d : Dev) : (newelInstall t k r d).grid = d.grid := by
  unfold newelInstall; dsimp only; split <;> simp

@[simp] theorem grid_newelRewrite (t k r : Nat) (d : Dev) : (newelRewrite t k r d).grid = d.grid := rfl

@[simp] theorem grid_newelInsert (t k r : Nat) (d : Dev) : (newelInsert t k r d).grid = d.grid := by
  unfold newelInsert; split
  · split <;> simp
  · dsimp only; split
    · simp
    · simp
    · split
      · simp
      · split
        · simp
        · split <;> simp

@[simp] theorem grid_dropPrefix (i k : Nat) (d : Dev) : (dropPrefix i k d).grid = d.grid := by simp [dropPrefix]

@[simp] theorem grid_dropBlocks (x : Desc) (n : Nat) (d : Dev) : (dropBlocks x n d).2.grid = d.grid := by simp [dropBlocks]

@[simp] theorem grid_rewindPages (x : Desc) (n : Nat) (d : Dev) : (rewindPages x n d).2.grid = d.grid := by simp [rewindPages]

@[simp] theorem grid_recordBlocks (x : Desc) (n : Nat) (d : Dev) : (recordBlocks x n d).2.grid = d.grid := by
  unfold recordBlocks
  refine foldl_keeps (fun a : Desc × Dev => a.2.grid) _ (fun a b => ?_) _ _
  dsimp only; split
  · rfl
  · split <;> simp

/-- A rewind of a session's own data (R144). -/
@[simp] theorem grid_rewindTo (k : SessKey) (n : Nat) (d : Dev) : (rewindTo k n d).grid = d.grid := by
  unfold rewindTo; split
  · rfl
  · split
    · rfl
    · simp

/-! ### Flash units, extents and the fabric's ports -/

@[simp] theorem grid_t4Sync (d : Dev) : (t4Sync d).grid = d.grid := by simp [t4Sync]

@[simp] theorem grid_journal (n : Nat) (d : Dev) : (journal n d).grid = d.grid := rfl

@[simp] theorem grid_t4Free (u : Nat) (d : Dev) : (t4Free u d).grid = d.grid := by
  unfold t4Free; split <;> simp

@[simp] theorem grid_t4Alloc (n : Nat) (d : Dev) : (t4Alloc n d).2.grid = d.grid := by
  unfold t4Alloc; split <;> simp

@[simp] theorem grid_t4Backing (u : Nat) (b : Bool) (d : Dev) : (t4Backing u b d).grid = d.grid := by
  unfold t4Backing; split <;> simp

@[simp] theorem grid_extentSync (d : Dev) : (extentSync d).grid = d.grid := by simp [extentSync]

@[simp] theorem grid_extentFree (x : Extent) (d : Dev) : (extentFree x d).grid = d.grid := by
  unfold extentFree; dsimp only; rw [grid_extentSync]; split
  · rw [grid_t4Free]; rfl
  · rfl

@[simp] theorem grid_extentAlloc (b : Bool) (a k : Nat) (u v : Bool) (t n : Nat) (d : Dev) :
    (extentAlloc b a k u v t n d).2.grid = d.grid := by
  unfold extentAlloc; dsimp only; split
  · rfl
  · split
    · rfl
    · next h =>
      simp only [grid_extentSync, grid_setFab, grid_of_pair h]
      split
      · split
        · split <;> next k => simpa [k] using grid_t4Alloc (roundUp 4096 n) d
        · rfl
      · rfl

@[simp] theorem grid_extentPut (k : Nat) (a b : Bool) (t : Nat) (l : Bytes) (d : Dev) :
    (extentPut k a b t l d).2.grid = d.grid := by
  unfold extentPut; split
  · rfl
  · next h =>
    split
    · rfl
    · exact (grid_of_pair h).trans (by simp)

@[simp] theorem grid_setPort (p : Nat) (x : LinkPort) (d : Dev) : (setPort p x d).grid = d.grid := rfl
@[simp] theorem grid_onPort (p : Nat) (f : LinkPort → LinkPort) (d : Dev) : (onPort p f d).grid = d.grid := rfl
@[simp] theorem grid_enqueue (p : Nat) (t : FabTxn) (d : Dev) : (enqueue p t d).grid = d.grid := rfl

@[simp] theorem grid_admitTc0 (n p : Nat) (d : Dev) : (admitTc0 n p d).grid = d.grid := by
  induction n generalizing d with
  | zero => rfl
  | succ k ih =>
    unfold admitTc0; dsimp only; split
    · split
      · rw [ih]; simp
      · rfl
    · split
      · rw [ih]; simp
      · rfl
    · rfl

@[simp] theorem grid_portSend (p : Nat) (t : FabTxn) (d : Dev) : (portSend p t d).grid = d.grid := by
  unfold portSend; split <;> simp [admitAll]

@[simp] theorem grid_launchTxn (t : FabTxn) (d : Dev) : (launchTxn t d).grid = d.grid := by
  unfold launchTxn; split <;> simp

@[simp] theorem grid_sendReq (u : TxnUse) (t : FabTxn) (d : Dev) : (sendReq u t d).grid = d.grid := by
  unfold sendReq; dsimp only; split <;> simp

@[simp] theorem grid_request (u : TxnUse) (a b c e f : Nat) (l : Bytes) (d : Dev) : (request u a b c e f l d).grid = d.grid := by
  simp [request]

@[simp] theorem grid_sendFree (a k : Nat) (d : Dev) : (sendFree a k d).grid = d.grid := grid_request _ _ _ _ _ _ _ _

@[simp] theorem grid_sendMsg (n : Nat) (m : Msg) (d : Dev) : (sendMsg n m d).grid = d.grid := by
  unfold sendMsg; dsimp only; split
  · simp
  · simp
  · split <;> simp

@[simp] theorem grid_sendAll (l : List Nat) (m : Msg) (d : Dev) : (sendAll l m d).grid = d.grid := by simp [sendAll]

/-! ### Turns, expiry and lost pages -/

@[simp] theorem grid_unshare (i : Nat) (d : Dev) : (unshare i d).grid = d.grid := by
  unfold unshare; dsimp only; split
  · simp
  · split <;> simp

@[simp] theorem grid_sweepRegions (d : Dev) : (sweepRegions d).grid = d.grid := by simp [sweepRegions]

@[simp] theorem grid_endTurn (k : SessKey) (r : Nat) (d : Dev) : (endTurn k r d).grid = d.grid := by
  unfold endTurn; dsimp only; split
  · simp
  · split
    · simp
    · rw [grid_sweepRegions]; split <;> simp

@[simp] theorem grid_releaseSession (k : SessKey) (r : Nat) (d : Dev) : (releaseSession k r d).grid = d.grid := by
  unfold releaseSession; dsimp only; split
  · rfl
  · split <;> simp

@[simp] theorem grid_expireSession (k : SessKey) (d : Dev) : (expireSession k d).grid = d.grid := by
  unfold expireSession; split <;> simp

@[simp] theorem grid_pagesLost (l : List Nat) (d : Dev) : (pagesLost l d).grid = d.grid := by
  unfold pagesLost
  refine grid_forAll (fun x e => ?_) _ _
  dsimp only; split
  · rfl
  · split <;> simp

/-! ### Copies of objects and their tiers -/

@[simp] theorem grid_putGranule (g : Granule) (d : Dev) : (putGranule g d).grid = d.grid := rfl
@[simp] theorem grid_endPlacing (i : Nat) (d : Dev) : (endPlacing i d).grid = d.grid := by simp [endPlacing]
@[simp] theorem grid_putPlacing (p : Placing) (d : Dev) : (putPlacing p d).grid = d.grid := rfl

@[simp] theorem grid_setObj (o : ObjRef) (v : ObjView) (d : Dev) : (setObj o v d).grid = d.grid := by
  unfold setObj; split <;> split <;> simp

@[simp] theorem grid_promoteDrop (o : ObjRef) (d : Dev) : (promoteDrop o d).grid = d.grid := by
  unfold promoteDrop; split <;> simp

@[simp] theorem grid_objLost (o : ObjRef) (d : Dev) : (objLost o d).grid = d.grid := by
  unfold objLost; split
  · rfl
  · split
    · simp
    · split
      · simp
      · split <;> simp

@[simp] theorem grid_recordCopies (l : List (Nat × Nat)) (d : Dev) : (recordCopies l d).2.2.2.grid = d.grid := by
  unfold recordCopies; dsimp only; split <;> rfl

@[simp] theorem grid_putCopies (o : ObjRef) (l : List (Nat × Nat)) (d : Dev) : (putCopies o l d).grid = d.grid := by
  unfold putCopies; split
  · rfl
  · simp only [grid_setObj, grid_recordCopies]; split <;> simp

@[simp] theorem grid_trimCopies (o : ObjRef) (d : Dev) : (trimCopies o d).grid = d.grid := by
  unfold trimCopies; dsimp only; split
  · rfl
  · split <;> split <;> simp

@[simp] theorem grid_freeCopy (t l c i : Nat) (v : ObjView) (d : Dev) : (freeCopy t l c i v d).grid = d.grid := by
  unfold freeCopy; dsimp only; split
  · simp
  · simp
  · split
    · split <;> simp
    · simp
  · rfl

@[simp] theorem grid_dropBacking (o : ObjRef) (d : Dev) : (dropBacking o d).grid = d.grid := by
  unfold dropBacking; split
  · rfl
  · split <;> simp

@[simp] theorem grid_demoteAbandon (o : ObjRef) (d : Dev) : (demoteAbandon o d).grid = d.grid := by
  unfold demoteAbandon; dsimp only; split
  · rfl
  · split
    · simp
    · split
      · simp
      · rw [grid_forAll (fun p e => by simp)]; split <;> simp

@[simp] theorem grid_freePage (i : Nat) (d : Dev) : (freePage i d).grid = d.grid := by
  unfold freePage; dsimp only; split <;> simp

@[simp] theorem grid_sweepPages (d : Dev) : (sweepPages d).grid = d.grid := by simp [sweepPages]

@[simp] theorem grid_demoteSwitch (o : ObjRef) (t l c i : Nat) (b : Bool) (d : Dev) :
    (demoteSwitch o t l c i b d).grid = d.grid := by
  unfold demoteSwitch; split
  · rfl
  · extract_lets back d1 d2 d3
    have h1 : d1.grid = d.grid := by
      unfold d1; rw [grid_setObj]; split <;> simp
    have h3 : d3.grid = d.grid := by
      unfold d3; split <;> simp [d2, h1]
    clear_value d3
    split
    · split <;> simp [h3]
    · exact h3

/-! ### Placing copies on other modules, and on flash -/

@[simp] theorem grid_placeNext (i : Nat) (d : Dev) : (placeNext i d).2.grid = d.grid := by
  unfold placeNext; split
  · rfl
  · split <;> simp

@[simp] theorem grid_placeFailed (i : Nat) (d : Dev) : (placeFailed i d).2.grid = d.grid := by
  unfold placeFailed; split
  · rfl
  · split <;> simp

@[simp] theorem grid_placeStart (w : PlaceWhat) (n : Nat) (b : Bool) (t k : Nat) (u v : Bool) (l : Bytes) (f : Option Nat)
    (d : Dev) : (placeStart w n b t k u v l f d).2.grid = d.grid := by
  unfold placeStart; dsimp only; split <;> simp

@[simp] theorem grid_ftlSync (d : Dev) : (ftlSync d).grid = d.grid := by
  unfold ftlSync; dsimp only; split <;> simp

@[simp] theorem grid_putSb (x : Superblock) (d : Dev) : (putSb x d).grid = d.grid := rfl

@[simp] theorem grid_openSb (a b : Bool) (d : Dev) : (openSb a b d).2.grid = d.grid := by
  unfold openSb; dsimp only; split
  · rfl
  · split <;> simp

@[simp] theorem grid_placeChunk (u : Nat) (a b : Bool) (n : Nat) (d : Dev) : (placeChunk u a b n d).2.grid = d.grid := by
  induction n generalizing d with
  | zero => rfl
  | succ k ih =>
    unfold placeChunk; dsimp only; split
    · next h => simp [grid_of_pair h]
    · next h =>
      split
      · simp [grid_of_pair h]
      · simp [ih, grid_of_pair h]

@[simp] theorem grid_placeChunks (f n : Nat) (b : Bool) (d : Dev) : (placeChunks f n b d).2.grid = d.grid := by
  unfold placeChunks
  refine foldl_keeps (fun a : List MapEnt × Dev => a.2.grid) _ (fun a i => ?_) _ _
  split <;> next h => simp [grid_of_pair h]

@[simp] theorem grid_flashWrite (u : FlashUse) (f n b : Nat) (d : Dev) : (flashWrite u f n b d).grid = d.grid := by
  unfold flashWrite; split
  · rfl
  · simp

/-- A demotion tries the tiers of its order in turn (R366). -/
@[simp] theorem grid_demoteTry (o : ObjRef) (v : ObjView) (m : Option Cmd) (p : Option SessKey) (l : List Nat) (d : Dev) :
    (demoteTry o v m p l d).2.grid = d.grid := by
  induction l with
  | nil => rfl
  | cons t r ih =>
    unfold demoteTry; dsimp only; split
    · exact ih
    · split
      · split
        · simp
        · exact ih
      · split
        · split
          · simp
          · exact ih
        · split
          · split
            · next h =>
              have k := grid_of_pair h
              split <;> simp [k]
            · exact ih
          · exact ih

@[simp] theorem grid_demoteStart (o : ObjRef) (l : List Nat) (m : Option Cmd) (p : Option SessKey) (d : Dev) :
    (demoteStart o l m p d).2.grid = d.grid := by
  unfold demoteStart; dsimp only; split
  · rfl
  · split
    · rfl
    · split
      · simp
      · split
        · simp
        · split <;> simp

@[simp] theorem grid_demoteUnplaced (o : ObjRef) (d : Dev) : (demoteUnplaced o d).grid = d.grid := by
  unfold demoteUnplaced; dsimp only; split
  · split
    · simp
    · split <;> simp
  · rfl

/-! ### Captures, peers and routes -/

@[simp] theorem grid_placeFree (k t y l : Nat) (d : Dev) : (placeFree k t y l d).grid = d.grid := by
  unfold placeFree; split
  · simp
  · split <;> simp
  · rfl

@[simp] theorem grid_chunkDrop (k t y : Nat) (c : CkChunk) (d : Dev) : (chunkDrop k t y c d).grid = d.grid := by
  unfold chunkDrop; split
  · split
    · simp
    · split <;> simp
  · simp

@[simp] theorem grid_captureFail (m c : Nat) (d : Dev) : (captureFail m c d).grid = d.grid := by
  unfold captureFail; dsimp only; split
  · rfl
  · split <;> simp

@[simp] theorem grid_storeLost (f : Nat → Nat → Bool) (d : Dev) : (storeLost f d).grid = d.grid := by simp [storeLost]

@[simp] theorem grid_ckptSettle (d : Dev) : (ckptSettle d).grid = d.grid := by
  unfold ckptSettle
  refine grid_forAll (fun c e => ?_) _ _
  dsimp only; split
  · simp
  · split <;> simp

@[simp] theorem grid_placeUnplaced (p : Placing) (st : Nat) (d : Dev) : (placeUnplaced p st d).grid = d.grid := by
  unfold placeUnplaced; split <;> simp

@[simp] theorem grid_dropReqs (u : TxnUse) (n : Nat) (d : Dev) : (dropReqs u n d).grid = d.grid := rfl

@[simp] theorem grid_placeOut (i st : Nat) (d : Dev) : (placeOut i st d).grid = d.grid := by
  unfold placeOut; split
  · rfl
  · extract_lets dst d0 d1 fixed
    have h1 : d1.grid = d.grid := by
      unfold d1
      split
      · split <;> simp [d0]
      · rfl
    clear_value d1 fixed
    split
    · simp [h1]
    · cases hp : placeFailed i d1 with
      | mk ok d2 =>
        have h2 : d2.grid = d.grid := (grid_of_pair hp).trans ((grid_placeFailed i d1).trans h1)
        dsimp only
        split
        · exact h2
        · split
          · exact h2
          · simp [h2]

@[simp] theorem grid_onStep (k : SessKey) (f : Step → Step) (d : Dev) : (onStep k f d).grid = d.grid := by
  unfold onStep; split <;> rfl

@[simp] theorem grid_addCause (k : SessKey) (c : Cause) (d : Dev) : (addCause k c d).grid = d.grid := grid_onStep _ _ _

@[simp] theorem grid_reissue (o : TxnOut) (a : Nat) (d : Dev) : (reissue o a d).grid = d.grid := by
  unfold reissue; dsimp only; split <;> simp

@[simp] theorem grid_loadDrop (w : LoadWork) (d : Dev) : (loadDrop w d).grid = d.grid := by
  unfold loadDrop; dsimp only; split <;> simp

@[simp] theorem grid_loadLost (w : LoadWork) (d : Dev) : (loadLost w d).grid = d.grid := by
  unfold loadLost; split <;> simp

@[simp] theorem grid_pushStop (k : SessKey) (d : Dev) : (pushStop k d).grid = d.grid := rfl

@[simp] theorem grid_migrateAbandon (k : SessKey) (st : Nat) (d : Dev) : (migrateAbandon k st d).grid = d.grid := by
  unfold migrateAbandon; dsimp only; split
  · rfl
  · split
    · rfl
    · split
      · split <;> simp
      · simp

@[simp] theorem grid_reqLost (o : TxnOut) (d : Dev) : (reqLost o d).grid = d.grid := by
  unfold reqLost; dsimp only; split
  · simp
  · split
    · split <;> simp
    · simp
    · simp
    · simp
    · split <;> simp
    · simp
    · simp

@[simp] theorem grid_pushSrcLost (n : Nat) (d : Dev) : (pushSrcLost n d).grid = d.grid := by simp [pushSrcLost]

@[simp] theorem grid_dropOwner (n : Nat) (o : ObjRef) (d : Dev) : (dropOwner n o d).grid = d.grid := by
  unfold dropOwner; dsimp only; split
  · rfl
  · split
    · rfl
    · split
      · simp
      · split <;> simp

@[simp] theorem grid_setPeer (m : Nat) (st : PeerState) (d : Dev) : (setPeer m st d).grid = d.grid := by
  simp [setPeer, mapBit]

@[simp] theorem grid_sourcesLost (f : Model → Bool) (d : Dev) : (sourcesLost f d).grid = d.grid := by simp [sourcesLost]

/-- A module is lost (R423). -/
@[simp] theorem grid_peerLost (m : Nat) (b : Bool) (d : Dev) : (peerLost m b d).grid = d.grid := by simp [peerLost]

@[simp] theorem grid_suspectPeer (m : Nat) (d : Dev) : (suspectPeer m d).grid = d.grid := by
  unfold suspectPeer; split <;> simp

@[simp] theorem grid_peersRecheck (d : Dev) : (peersRecheck d).grid = d.grid := by simp [peersRecheck]

@[simp] theorem grid_peersOf (t : RouteTable) (d : Dev) : (peersOf t d).grid = d.grid := by
  unfold peersOf; dsimp only
  rw [grid_forAll fun m e => grid_peerLost m false e, grid_forAll fun m e => ?_]
  split
  · simp
  · split
    · split <;> simp
    · split <;> simp

@[simp] theorem grid_takePush (d : Dev) : (takePush d).grid = d.grid := by
  unfold takePush; split
  · rfl
  · cases h : poolAlloc 8 (2 ^ 30) d with
    | mk a e => simp [grid_of_pair h]

@[simp] theorem grid_routeApply (t : RouteTable) (d : Dev) : (routeApply t d).grid = d.grid := by simp [routeApply]

/-! ### Steps that end, and steps that are carried (R53, R63, R67) -/

@[simp] theorem grid_carry (s : Step) (d : Dev) : (carry s d).grid = d.grid := rfl

theorem gridField_causeCounter (u : Nat) (c : Cause) : gridField (causeCounter u c) = false := by
  cases c <;> simp [causeCounter]

@[simp] theorem grid_countCarry (x : Desc) (s : Step) (d : Dev) : (countCarry x s d).grid = d.grid := by
  unfold countCarry; dsimp only; split
  · refine (grid_when (fun e => ?_) _ _).trans ?_
    · rfl
    rw [grid_count (gridField_causeCounter _ _), grid_count (by simp)]
  · simp

@[simp] theorem grid_deadStop (x : Desc) (s : Step) (d : Dev) : (deadStop x s d).grid = d.grid := by simp [deadStop]

@[simp] theorem grid_errorCarry (x : Desc) (s : Step) (d : Dev) : (errorCarry x s d).grid = d.grid := by
  unfold errorCarry; dsimp only; split <;> simp

@[simp] theorem grid_abandon (s : Step) (d : Dev) : (abandon s d).grid = d.grid := by
  unfold abandon; split
  · rfl
  · split
    · simp
    · split
      · simp
      · split <;> simp

@[simp] theorem grid_carrySeal (d : Dev) : (carrySeal d).grid = d.grid := by simp [carrySeal]

@[simp] theorem grid_sealCommit (s : Step) (d : Dev) : (sealCommit s d).grid = d.grid := by
  unfold sealCommit; split
  · next x f _ _ =>
    extract_lets r d1 run d2 d3
    have h1 : d1.grid = d.grid := by
      unfold d1 r; split <;> simp
    have h2 : d2.grid = d.grid := by
      unfold d2; split <;> simp [h1]
    have h3 : d3.grid = d.grid := by
      unfold d3; split
      · split <;> simp [h2]
      · exact h2
    clear_value d3
    split <;> simp [h3]
  · rfl

@[simp] theorem grid_trimRewind (s : Step) (d : Dev) : (trimRewind s d).grid = d.grid := by
  unfold trimRewind; split
  · split <;> simp
  · rfl

@[simp] theorem grid_writeBatches (d : Dev) : (writeBatches d).grid = d.grid := by simp [writeBatches]

@[simp] theorem grid_commitSeal (d : Dev) : (commitSeal d).grid = d.grid := by simp [commitSeal]

/-! ### The work of a tick's start -/

@[simp] theorem grid_powerTick (d : Dev) : (powerTick d).grid = d.grid := by simp [powerTick]

@[simp] theorem grid_regionSet (p : PubReq) (h : Bytes) (d : Dev) : (regionSet p h d).grid = d.grid := by
  unfold regionSet
  extract_lets name x toks
  clear_value x
  cases x with
  | none => simp
  | some y =>
    simp only [grid_sweepRegions, grid_setSess]
    exact foldl_keeps (fun a : List Nat × Dev => a.2.grid) _ (fun a l => by simp) _ _

@[simp] theorem grid_publishOne (p : PubReq) (d : Dev) : (publishOne p d).grid = d.grid := by
  unfold publishOne; dsimp only; split
  · simp
  · split
    · split <;> simp
    · simp

@[simp] theorem grid_publishBatch (d : Dev) : (publishBatch d).grid = d.grid := by
  unfold publishBatch
  exact (grid_forAll (fun p e => grid_publishOne p e) _ _).trans rfl

@[simp] theorem grid_shareRegionPage (i : Nat) (d : Dev) : (shareRegionPage i d).grid = d.grid := by
  unfold shareRegionPage; split
  · rfl
  · split <;> simp

@[simp] theorem grid_shareRegions (d : Dev) : (shareRegions d).grid = d.grid := by simp [shareRegions]

@[simp] theorem grid_pushTick (d : Dev) : (pushTick d).grid = d.grid := by simp [pushTick]

@[simp] theorem grid_routeTick (d : Dev) : (routeTick d).grid = d.grid := by
  unfold routeTick; split <;> simp

@[simp] theorem grid_laneCalibration (p l : Nat) (d : Dev) : (laneCalibration p l d).grid = d.grid := by
  unfold laneCalibration; dsimp only; split
  · split
    · simp
    · split
      · simp
      · split <;> simp
  · rfl

theorem grid_maintDrop (r : MaintReq) (d : Dev) : (maintDrop r d).grid = d.grid := rfl

@[simp] theorem grid_laneTests (n : Nat) (d : Dev) : (laneTests n d).grid = d.grid := by
  unfold laneTests
  refine grid_forAll (fun r e => ?_) _ _
  dsimp only; split
  · exact grid_laneCalibration r.unit r.sub e
  · split <;> simp [grid_maintDrop]

@[simp] theorem grid_refreshOpen (p : Nat) (d : Dev) : (refreshOpen p d).grid = d.grid := by simp [refreshOpen]

@[simp] theorem grid_refreshAll (d : Dev) : (refreshAll d).grid = d.grid := by simp [refreshAll]

@[simp] theorem grid_announceNext (k : SessKey) (d : Dev) : (announceNext k d).grid = d.grid := by
  unfold announceNext; split
  · rfl
  · split
    · unfold announce; split
      · rfl
      · split <;> simp
    · rfl

@[simp] theorem grid_announceAll (d : Dev) : (announceAll d).grid = d.grid := by simp [announceAll]

/-! ### Deadlines that a correction has passed -/

@[simp] theorem grid_keySwitch (p : Nat) (d : Dev) : (keySwitch p d).grid = d.grid := by
  unfold keySwitch; split <;> simp

@[simp] theorem grid_passedDeadlines (d : Dev) : (passedDeadlines d).grid = d.grid := by
  unfold passedDeadlines; dsimp only; split
  · split <;> simp
  · simp

@[simp] theorem grid_unsealedTick (d : Dev) : (unsealedTick d).grid = d.grid := by
  unfold unsealedTick; split <;> simp

/-! ### A period change (R55) -/

/-- An instant that the counter has reached and no correction has passed becomes the epoch, and the next period the period. -/
theorem settle_applyPeriodChange (o d : Dev) :
    let t := settle o (applyPeriodChange d)
    t.get Reg.TICK_EPOCH = d.get Reg.TICK_CHANGE_AT % 2 ^ 64 ∧ t.get Reg.TICK_PERIOD_NS = d.get Reg.TICK_PERIOD_NEXT % 2 ^ 32
    ∧ t.get Reg.TICK_CHANGE_AT = 0 ∧ Becomes [Reg.TICK_EPOCH, Reg.TICK_PERIOD_NS, Reg.TICK_CHANGE_AT] d t := by
  refine ⟨?_, ?_, ?_, becomes_settle _ (becomes_raise _ _ (becomes_set _ (becomes_set _ (becomes_set _ (becomes_refl _ _)
    (by simp)) (by simp)) (by simp)))⟩ <;>
  · rw [get_settle _ _ (by decide), applyPeriodChange]
    simp (disch := decide) only [get_raise_other, get_set_other, get_set_same]
    rfl

/-! ### A tick fires (R50, R51, R57, R64) -/

/-- What the grid says of the tick: whether one runs, which, with which plan, and whether its deadline has passed. -/
theorem tick_fields_of_grid {a b : Dev} (h : a.grid = b.grid) :
    a.tick.running = b.tick.running ∧ a.tick.start = b.tick.start ∧ a.tick.period = b.tick.period
    ∧ a.tick.plan = b.tick.plan ∧ a.tick.next = b.tick.next ∧ a.tick.sealed = b.tick.sealed
    ∧ a.tick.corrected = b.tick.corrected ∧ a.tick.fired = b.tick.fired :=
  have k := tick_of_grid h
  ⟨congrArg (·.running) k, congrArg (·.start) k, congrArg (·.period) k, congrArg (·.plan) k, congrArg (·.next) k,
    congrArg (·.sealed) k, congrArg (·.corrected) k, congrArg (·.fired) k⟩

/-- The device on whose grid the tick at `b` begins: the unsealed tick has ended, the correction is over, and what it passed has
taken effect. -/
def regridded (b : Nat) (d : Dev) : Dev :=
  let d0 := unsealedTick d
  let d1 := changeAtTick b (setTick { d0.tick with
    corrected := false
    corrTo := 0 } d0)
  if d.tick.corrected then passedDeadlines d1 else d1

theorem changeAtTick_fired (b : Nat) (d : Dev) : (changeAtTick b d).tick.fired = d.tick.fired := by
  unfold changeAtTick; split <;> simp [applyPeriodChange]

/-- With no period change pending the grid stays, but for the correction that is over. -/
theorem grid_regridded {d : Dev} (b : Nat) (h : d.get Reg.TICK_CHANGE_AT = 0) :
    (regridded b d).grid = (setTick { d.tick with
      corrected := false
      corrTo := 0 } d).grid := by
  have h0 := grid_unsealedTick d
  have hchange : (unsealedTick d).get Reg.TICK_CHANGE_AT = 0 := (get_of_grid h0 (by decide)).trans h
  have ended : (setTick { (unsealedTick d).tick with corrected := false, corrTo := 0 } (unsealedTick d)).grid
      = (setTick { d.tick with corrected := false, corrTo := 0 } d).grid :=
    congrArg (fun g => (g.1, { g.2.1 with corrected := false, corrTo := 0 }, g.2.2)) h0
  have still : changeAtTick b (setTick { (unsealedTick d).tick with corrected := false, corrTo := 0 } (unsealedTick d))
      = setTick { (unsealedTick d).tick with corrected := false, corrTo := 0 } (unsealedTick d) := by
    unfold changeAtTick
    rw [if_neg (by simp [hchange])]
  unfold regridded
  dsimp only
  rw [still]
  split
  · exact (grid_passedDeadlines _).trans ended
  · exact ended

/-- One tick more has fired, whatever the grid. -/
theorem regridded_fired (b : Nat) (d : Dev) : (regridded b d).tick.fired = d.tick.fired := by
  have passed : ∀ e : Dev, (passedDeadlines e).tick.fired = e.tick.fired := fun e =>
    (tick_fields_of_grid (grid_passedDeadlines e)).2.2.2.2.2.2.2
  have ended : (unsealedTick d).tick.fired = d.tick.fired := (tick_fields_of_grid (grid_unsealedTick d)).2.2.2.2.2.2.2
  unfold regridded
  dsimp only
  split <;> simp [passed, changeAtTick_fired, ended]

/-- The tick that fires at `b`: it runs the plan that was sealed for it, or an empty one (R62, R64). -/
theorem fireTick_tick (b : Nat) (d : Dev) :
    let e := regridded b d
    let t := fireTick b d
    t.tick.running = true ∧ t.tick.start = b ∧ t.tick.sealed = false ∧ t.tick.next = none
    ∧ t.tick.fired = e.tick.fired + 1 ∧ t.tick.period = e.get Reg.TICK_PERIOD_NS ∧ t.tick.corrected = e.tick.corrected
    ∧ t.tick.plan = some (planAt (d.tick.next.getD (emptyPlan e)) (tickNumber e b) b (e.get Reg.TICK_PERIOD_NS))
    ∧ t.get Reg.TICK_NOW = tickNumber e b % 2 ^ 64 := by
  unfold fireTick
  extract_lets e d0 k0 d1 d2 number period p ring idx k2 d3 d4 k4 d5 t
  have h : t.grid = d3.grid := by simp [t, d5, d4]
  obtain ⟨hrun, hstart, hperiod, hplan, hnext, hsealed, hcorr, hfired⟩ := tick_fields_of_grid h
  rw [hrun, hstart, hperiod, hplan, hnext, hsealed, hcorr, hfired, get_of_grid h (by decide)]
  exact ⟨rfl, rfl, rfl, rfl, rfl, rfl, rfl, rfl, get_set_same _ _ _⟩

theorem tickNumber_lt (d : Dev) (b : Nat) : tickNumber d b < 2 ^ 64 := by
  unfold tickNumber
  have h := Int.emod_lt_of_pos (((b : Int) - d.get Reg.TICK_EPOCH) / (max 1 (d.get Reg.TICK_PERIOD_NS) : Nat))
    (show (0 : Int) < (two64 : Nat) by decide)
  have k := Int.emod_nonneg (((b : Int) - d.get Reg.TICK_EPOCH) / (max 1 (d.get Reg.TICK_PERIOD_NS) : Nat))
    (show ((two64 : Nat) : Int) ≠ 0 by decide)
  have : ((two64 : Nat) : Int) = 2 ^ 64 := by decide
  omega

theorem tickNumber_of_grid {a b : Dev} (h : a.grid = b.grid) (n : Nat) : tickNumber a n = tickNumber b n := by
  unfold tickNumber
  rw [get_of_grid h (by decide), get_of_grid h (by decide)]

/-! ### The step deadline (R53, R62, R64) -/

/-- A plan with this number, start and period is sealed for the next tick, and it is the newest of the ring. -/
def PlanSealed (h : Nat × Nat × Nat) (t : Dev) : Prop :=
  t.tick.sealed = true
  ∧ ∃ p, t.tick.next = some p ∧ p.number = h.1 ∧ p.start = h.2.1 ∧ p.period = h.2.2 ∧ p.empty = false
    ∧ p.digest = planDigest p.entries ∧ t.tick.ring.head? = some p

theorem planSealed_setTick {p : Plan} (he : p.empty = false) (hd : p.digest = planDigest p.entries) (x : TickSt) (l : List Plan)
    (d : Dev) :
    PlanSealed (p.number, p.start, p.period) (setTick { x with
      next := some p
      ring := (p :: l).take 64
      sealed := true } d) := ⟨rfl, p, rfl, rfl, rfl, rfl, he, hd, rfl⟩

/-- The seal gives the next tick its plan, whatever the work before it does. -/
theorem planSealed_sealPlan (d : Dev) : PlanSealed (nextTick d) (sealPlan d) := by
  unfold sealPlan
  extract_lets guard idx
  split
  next h =>
    rw [h]
    extract_lets dl
    split; split; split; split
    extract_lets work entries p d5
    exact planSealed_setTick (p := p) rfl rfl _ _ _

/-- Settles O7: the period change, the boundary and the deadline, each where it is due. -/
theorem tickFiresAndSeals : Obligations.TickFiresAndSeals := by
  refine fun s => ⟨?_, ?_, ?_⟩
  · refine gives_of_run (f := periodChangeEffect) rfl ?_
    simp only [periodChangeEffect, Bool.not_eq_true]
    split
    · exact settle_applyPeriodChange _ _
    · exact becomes_settle_self _
  · refine gives_of_run (f := tickFire) rfl ?_
    unfold tickFire
    cases dueBoundary s.dev with
    | none => exact becomes_settle_self _
    | some b =>
      obtain ⟨hrun, hstart, hsealed, hnext, hfired, hperiod, hcorr, hplan, hnow⟩ := fireTick_tick b s.dev
      simp (disch := decide) only [settle_units, get_settle]
      refine ⟨hrun, hstart, hsealed, hnext, hfired.trans (by rw [regridded_fired]), fun hc => ?_, ?_⟩
      · have hg := grid_regridded b hc
        refine ⟨?_, ?_, ?_⟩
        · rw [hnow, Nat.mod_eq_of_lt (tickNumber_lt _ _), tickNumber_of_grid hg]; rfl
        · rw [hperiod, get_of_grid hg (by decide)]; rfl
        · rw [hcorr, (tick_fields_of_grid hg).2.2.2.2.2.2.1]; rfl
      · rw [hplan]
        cases s.dev.tick.next <;> rfl
  · refine gives_of_run (f := stepDeadline) rfl ?_
    unfold stepDeadline
    split
    · simpa only [settle_units, PlanSealed] using planSealed_sealPlan s.dev
    · exact becomes_settle_self _

end Sys2Proof.Machine
end

section
/-! PROOFS. Host accesses to a window (spec/03): what a granule's first write and the snoop filter leave of the two memories, and
the statement about reads and writes of a window. -/

namespace Sys2Proof.Machine

open Sys2Proof

/-! ### What leaves both memories as they were

One lemma per operation, in the order of the definitions. -/

@[simp] theorem mem_forAll {α : Type} {f : α → Dev → Dev} (h : ∀ x d, (f x d).mem = d.mem) (l : List α) (d : Dev) :
    (forAll l f d).mem = d.mem := forAll_keeps (fun d => d.mem) f h l d

@[simp] theorem mem_t4Free (u : Nat) (d : Dev) : (t4Free u d).mem = d.mem := by
  unfold t4Free; split <;> simp [t4Sync, journal]

@[simp] theorem mem_setPort (p : Nat) (x : LinkPort) (d : Dev) : (setPort p x d).mem = d.mem := rfl

@[simp] theorem mem_onPort (p : Nat) (f : LinkPort → LinkPort) (d : Dev) : (onPort p f d).mem = d.mem := rfl

@[simp] theorem mem_admitTc0 (n p : Nat) (d : Dev) : (admitTc0 n p d).mem = d.mem := by
  induction n generalizing d with
  | zero => rfl
  | succ k ih =>
    unfold admitTc0; dsimp only; split
    · split
      · rw [ih]; simp [enqueue]
      · rfl
    · split
      · rw [ih]; simp [enqueue]
      · rfl
    · rfl

@[simp] theorem mem_portSend (p : Nat) (t : FabTxn) (d : Dev) : (portSend p t d).mem = d.mem := by
  unfold portSend; split <;> simp [admitAll, enqueue]

@[simp] theorem mem_launchTxn (t : FabTxn) (d : Dev) : (launchTxn t d).mem = d.mem := by
  unfold launchTxn; split <;> simp

@[simp] theorem mem_sendReq (u : TxnUse) (t : FabTxn) (d : Dev) : (sendReq u t d).mem = d.mem := by
  unfold sendReq; dsimp only; split <;> simp

@[simp] theorem mem_request (u : TxnUse) (op tc a arg k : Nat) (l : Bytes) (d : Dev) :
    (request u op tc a arg k l d).mem = d.mem := by
  simp [request]

@[simp] theorem mem_poolTake (p n : Nat) (d : Dev) : (poolTake p n d).mem = d.mem := by
  unfold poolTake; dsimp only; split <;> simp

@[simp] theorem mem_poolGive (p n : Nat) (d : Dev) : (poolGive p n d).mem = d.mem := by
  unfold poolGive; dsimp only; split <;> simp

@[simp] theorem mem_fresh (d : Dev) : d.fresh.2.mem = d.mem := rfl

@[simp] theorem mem_putGranule (g : Granule) (d : Dev) : (putGranule g d).mem = d.mem := rfl

@[simp] theorem mem_setObj (o : ObjRef) (v : ObjView) (d : Dev) : (setObj o v d).mem = d.mem := by
  unfold setObj; split <;> split <;> simp [putPage]

@[simp] theorem mem_sendFree (a k : Nat) (d : Dev) : (sendFree a k d).mem = d.mem := mem_request _ _ _ _ _ _ _ _

@[simp] theorem mem_freeCopy (t l c i : Nat) (v : ObjView) (d : Dev) : (freeCopy t l c i v d).mem = d.mem := by
  unfold freeCopy; dsimp only; split
  · simp
  · simp
  · split
    · split <;> simp
    · simp
  · rfl

@[simp] theorem mem_dropBacking (o : ObjRef) (d : Dev) : (dropBacking o d).mem = d.mem := by
  unfold dropBacking; split
  · rfl
  · split <;> simp

@[simp] theorem mem_demoteAbandon (o : ObjRef) (d : Dev) : (demoteAbandon o d).mem = d.mem := by
  unfold demoteAbandon; dsimp only; split
  · rfl
  · split
    · simp
    · split
      · simp
      · rw [mem_forAll (fun p e => by simp [endPlacing])]; split <;> simp

/-- Giving a granule its place and its epoch moves no byte. -/
@[simp] theorem mem_granuleTouch (p i : Nat) (d : Dev) : (granuleTouch p i d).mem = d.mem := by
  unfold granuleTouch; dsimp only; split
  · rfl
  · next g _ =>
    have charged : (if g.hostWindow then d.fresh.2 else poolTake p granuleBytes d.fresh.2).mem = d.mem := by split <;> simp
    split <;> split <;> simp [charged]

@[simp] theorem mem_dropHolder (p l n : Nat) (d : Dev) : (dropHolder p l n d).mem = d.mem := rfl

/-! ### The bytes of the session ranges -/

/-- The session range reads as the memory holds it. -/
theorem readRange_of_mem {a b : Dev} (h : a.mem = b.mem) (p addr n : Nat) : readRange a p addr n = readRange b p addr n := by
  unfold readRange; rw [h]

/-- A write of the session range is the write of its bytes, whatever becomes of the granules. -/
theorem mem_writeNow (p a : Nat) (b : Bytes) (d : Dev) : (writeNow p a b d).mem = (writeRange p a b d).mem := by
  unfold writeNow writeRange
  rw [mem_forAll (mem_granuleTouch p)]

/-- A byte of another partition, or of the same one outside the bytes written, is kept at another place (R352). -/
theorem readRange_writeRange_other {p q a addr : Nat} {b : Bytes} (d : Dev) (ha : a < 2 ^ 52) (hb : addr + b.length ≤ 2 ^ 52)
    (h : p ≠ q ∨ a < addr ∨ addr + b.length ≤ a) : readRange (writeRange q addr b d) p a 1 = readRange d p a 1 :=
  spRead_write_other _ _ b (by unfold rangeKey; omega)

/-! ### Reads and writes of a host (R85, R86, R88, R90, R116) -/

theorem becomes_emit {fs : List Field} {u v : Dev} (x : Out) (h : Becomes fs u v) : Becomes fs u (v.emit x) :=
  ⟨⟨h.1.1, keeps_of_regs h.1.2 rfl⟩, h.2⟩

theorem follows_windowMiss {n : Nat} (h : n < 16) : follows (Reg.HOST_WINDOW_MISS n) = false := by
  have : ∀ n < 16, follows (Reg.HOST_WINDOW_MISS n) = false := by decide
  exact this n h

/-- The window holds the whole of a line or none of it: its bounds are multiples of 256 MiB (R85). -/
theorem windowHit_line {d : Dev} {n addr len : Nat} (ha : addr % 64 = 0) (hb : winBase d n % 268435456 = 0) (h0 : 1 ≤ len)
    (h1 : len ≤ 64) : windowHit d n addr len = true
      ↔ winDecoded d n = true ∧ winBase d n ≤ addr ∧ addr + 64 ≤ winBase d n + winBytes d n := by
  unfold windowHit winBytes
  rw [Bool.and_eq_true, decide_eq_true_eq]
  refine and_congr_right fun _ => and_congr_right fun _ => ?_
  omega

theorem hostMemRead_fatal {d : Dev} (h : d.host.fatal = true) (n addr : Nat) (own : Bool) : hostMemRead n addr own d = d :=
  if_pos h

theorem hostMemWrite_fatal {d : Dev} (h : d.host.fatal = true) (n addr : Nat) (data : Bytes) : hostMemWrite n addr data d = d :=
  if_pos h

theorem hostMemRead_miss {d : Dev} {n addr : Nat} (h : d.host.fatal = false) (hw : ¬ windowHit d n addr 1 = true) (own : Bool) :
    hostMemRead n addr own d = (d.count (Reg.HOST_WINDOW_MISS n) 1).emit (.memData n addr (zeros 64)) := by
  rw [hostMemRead, if_neg (by simp [h]), if_neg hw]

theorem hostMemWrite_miss {d : Dev} {n addr : Nat} {data : Bytes} (h : d.host.fatal = false)
    (hw : ¬ windowHit d n addr data.length = true) : hostMemWrite n addr data d = d.count (Reg.HOST_WINDOW_MISS n) 1 := by
  rw [hostMemWrite, if_neg (by simp [h]), if_neg hw]

/-- A read inside the window that no other slot's copy conflicts with is granted while the filter has room (R88). -/
theorem hostMemRead_grant {d : Dev} {n addr : Nat} {own : Bool} (h : d.host.fatal = false) (hw : windowHit d n addr 1 = true)
    (free : (holders d (d.get (Reg.SLOT_PART n)) (addr / 64)).all (fun x => x.slot == n || (!own && !x.owned)) = true)
    (room : d.host.snoop.length < snoopLines) :
    hostMemRead n addr own d = grantLine n (d.get (Reg.SLOT_PART n)) (addr / 64) own d := by
  have none_conflicts : (holders d (d.get (Reg.SLOT_PART n)) (addr / 64)).filter
      (fun x => x.slot != n && (own || x.owned)) = [] := by
    rw [List.filter_eq_nil_iff]
    intro x hx
    have opposite : (x.slot != n && (own || x.owned)) = !(x.slot == n || (!own && !x.owned)) := by simp [bne]
    simp [opposite, List.all_eq_true.mp free x hx]
  rw [hostMemRead, if_neg (by simp [h]), if_pos hw, readLine, none_conflicts]
  exact if_pos (.inl room)

/-- A write inside the window writes the line's bytes, and no others (R86). -/
theorem mem_hostMemWrite_hit {d : Dev} {n addr : Nat} {data : Bytes} (h : d.host.fatal = false)
    (hw : windowHit d n addr data.length = true) :
    (hostMemWrite n addr data d).mem = (writeRange (d.get (Reg.SLOT_PART n)) addr data d).mem := by
  rw [hostMemWrite, if_neg (by simp [h]), if_pos hw, mem_forAll (fun l e => mem_dropHolder _ l n e), mem_writeNow]

/-- An access that misses counts one, and the device is otherwise as it was (R85). -/
theorem becomes_settle_miss {n : Nat} (hn : n < 16) (o : Dev) {u v : Dev} (h : v.regs = (u.count (Reg.HOST_WINDOW_MISS n) 1).regs)
    (k : Becomes [Reg.HOST_WINDOW_MISS n] u v) : Becomes [Reg.HOST_WINDOW_MISS n] u (settle o v)
      ∧ (settle o v).get (Reg.HOST_WINDOW_MISS n) = (u.count (Reg.HOST_WINDOW_MISS n) 1).get (Reg.HOST_WINDOW_MISS n) :=
  ⟨becomes_settle o k, (get_settle o v (follows_windowMiss hn)).trans (get_of_regs h _)⟩

/-- A granted line is answered with its committed bytes, and only the host interface changes (R86, R90). -/
theorem grantLine_answers (n part line : Nat) (own : Bool) (d : Dev) :
    Sent (.memData n (line * 64) (readRange d part (line * 64) 64)) d (grantLine n part line own d)
    ∧ Leaves [] d (grantLine n part line own d) :=
  ⟨⟨_, rfl, List.mem_singleton_self _⟩, rfl, keeps_of_regs (keeps_refl _ _) rfl⟩

/-- Settles O13: each access by where it falls, in the window or not, and before or after a fatal error. -/
theorem hostWindowAccess : Obligations.HostWindowAccess := by
  intro s n addr own data hn ha hend hlen part hit hbase
  have hread : windowHit s.dev n addr 1 = true ↔ hit := windowHit_line ha hbase (by omega) (by omega)
  have hwrite : windowHit s.dev n addr data.length = true ↔ hit := windowHit_line ha hbase (by omega) (by omega)
  refine ⟨fun hf => ⟨?_, ?_⟩, fun hf hmiss => ⟨?_, ?_⟩, fun hf hin => ⟨fun free room => ?_, ?_⟩⟩
  · refine gives_of_run (f := hostMemRead n addr own) rfl ?_
    rw [hostMemRead_fatal hf]
    exact becomes_settle_self _
  · refine gives_of_run (f := hostMemWrite n addr data) rfl ?_
    rw [hostMemWrite_fatal hf]
    exact becomes_settle_self _
  · refine gives_of_run (f := hostMemRead n addr own) rfl ?_
    rw [hostMemRead_miss hf (mt hread.mp hmiss)]
    exact ⟨sent_settle _ ⟨[_], by simp, List.mem_singleton_self _⟩,
      becomes_settle_miss hn _ rfl (becomes_emit _ (becomes_count 1 (becomes_refl _ _) (by simp)))⟩
  · refine gives_of_run (f := hostMemWrite n addr data) rfl ?_
    rw [hostMemWrite_miss hf (mt hwrite.mp hmiss)]
    exact ⟨by simp, becomes_settle_miss hn _ rfl (becomes_count 1 (becomes_refl _ _) (by simp))⟩
  · refine gives_of_run (f := hostMemRead n addr own) rfl ?_
    rw [hostMemRead_grant hf (hread.mpr hin) free room]
    obtain ⟨sent, leaves⟩ := grantLine_answers n part (addr / 64) own s.dev
    rw [Nat.div_mul_cancel (Nat.dvd_of_mod_eq_zero ha)] at sent
    exact ⟨sent_settle _ sent, leaves_settle _ leaves⟩
  · refine gives_of_run (f := hostMemWrite n addr data) rfl ?_
    have hmem : (settle s.dev (hostMemWrite n addr data s.dev)).mem = (writeRange part addr data s.dev).mem := by
      simpa only [settle_units] using mem_hostMemWrite_hit hf (hwrite.mpr hin)
    refine ⟨?_, congrArg (·.export_) hmem, fun p a hpa apart => ?_⟩
    · rw [readRange_of_mem hmem, ← hlen]
      exact readRange_writeRange part addr data s.dev
    · rw [readRange_of_mem hmem]
      exact readRange_writeRange_other s.dev hpa (hlen ▸ hend) (hlen ▸ apart)

/-! ### A window that is accessed -/

/-- The device after reset, with slot 0 bound to a window of 256 MiB at address 0. -/
def oneWindow : State :=
  { State.reset with dev := (State.reset.dev.set (Reg.SLOT_STATE 0) 1).set (Reg.WIN_SIZE 0) 1 }

/-- What the statement asks of an access inside the window: here, the second line of that of `oneWindow`. -/
theorem oneWindow_line1 : winDecoded oneWindow.dev 0 = true ∧ winBase oneWindow.dev 0 ≤ 64
    ∧ 64 + 64 ≤ winBase oneWindow.dev 0 + winBytes oneWindow.dev 0 := by decide

/-- A line that is written there reads as it was written, and is answered when the slot reads it. -/
theorem oneWindow_access (data : Bytes) (h : data.length = 64) :
    (Gives (.hostMemWrite 0 64 data) oneWindow fun t => readRange t 0 64 64 = data)
    ∧ Gives (.hostMemRead 0 64 false) oneWindow fun t =>
      Sent (.memData 0 64 (readRange oneWindow.dev 0 64 64)) oneWindow.dev t := by
  obtain ⟨-, -, inside⟩ := hostWindowAccess oneWindow 0 64 false data (by decide) (by decide) (by decide) h (by decide)
  obtain ⟨reads, t, step, queue, same, -⟩ := inside rfl oneWindow_line1
  obtain ⟨u, step', queue', sent, -⟩ := reads rfl (by decide)
  rw [show oneWindow.dev.get (Reg.SLOT_PART 0) = 0 by decide] at same sent
  exact ⟨⟨t, step, queue, same⟩, u, step', queue', sent⟩

end Sys2Proof.Machine
end

section
/-! PROOFS. The fill of a weight window (spec/11) while the key rings are disabled (spec/19): what holds of WEIGHT_WINDOW_FILL, and
why the statement about builds, lookups, scrubs and fills fails. -/

namespace Sys2Proof.Machine

open Sys2Proof

/-! ### Steps that do not run -/

/-- No step of the running tick has started without having committed. -/
def NoneRunning (d : Dev) : Prop := ∀ p ∈ d.run.steps, p.started = true → p.committed = true

/-- A step goes nowhere before its start and after its commit. -/
theorem advanceStep_noneRunning {d : Dev} (h : NoneRunning d) (k : SessKey) (fuel : Nat) : advanceStep fuel k d = d := by
  cases fuel with
  | zero => rfl
  | succ n =>
    unfold advanceStep
    split
    next s x hs _ =>
      have stays : ¬ s.started ∨ s.committed := by
        by_cases hst : s.started = true
        · exact .inr (h s (List.mem_of_find?_eq_some hs) hst)
        · exact .inl hst
      split
      · rfl
      · rw [if_pos (stays.elim .inl fun hc => .inr (.inl hc))]
    · rfl

theorem advanceAll_noneRunning {d : Dev} (h : NoneRunning d) : advanceAll d = d := by
  unfold advanceAll forAll
  induction d.run.steps with
  | nil => rfl
  | cons p r ih => rw [List.map_cons, List.foldl_cons, advance, advanceStep_noneRunning h, ih]

/-! ### Fills of a window -/

/-- The model has a window and its source, and `l` is the layer that comes next (R377, R379). -/
def FillDue (d : Dev) (h l : Nat) (x : Model) : Prop :=
  findModel d h = some x ∧ x.window ≠ 0 ∧ x.srcLost = false ∧ x.nextFill % x.layers = l

/-- No byte of an image comes from T2 or T3 while the key rings are disabled (R613). -/
theorem weightFill_keysOff {d : Dev} (hk : d.sec.keysOff = true) (h l : Nat) : weightFill h l d = d := by
  unfold weightFill
  split
  · rfl
  · rw [if_pos (.inr (.inr (.inl hk)))]

/-- While the key rings are disabled and no step runs, a fill changes nothing. -/
theorem weightWindowFill_keysOff {s : State} (hk : s.dev.sec.keysOff = true) (hr : NoneRunning s.dev) (h l : Nat) :
    exec (.weightWindowFill h l) s = .next { s with dev := settle s.dev s.dev } := by
  show s.run (fun d => advanceAll (weightFill h l d)) = _
  rw [run_next, weightFill_keysOff hk, advanceAll_noneRunning hr]

/-- The model once layer `l` has taken its slot, and the layer after it is next (R377). -/
def Model.filledWith (l : Nat) (x : Model) : Model :=
  let out := x.filled.filter fun y => windowSlot x.window y == windowSlot x.window l
  { x with
    filled := x.filled.filter (fun z => !out.contains z) ++ [l]
    nextFill := (l + 1) % x.layers }

theorem mem_filledWith (l : Nat) (x : Model) : l ∈ (x.filledWith l).filled :=
  List.mem_append_right _ (List.mem_singleton_self l)

/-- A layer that is due takes its slot when no step runs and the key rings are enabled. -/
theorem weightFill_keysOn {d : Dev} {h l : Nat} {x : Model} (hk : d.sec.keysOff = false) (hr : NoneRunning d)
    (hd : FillDue d h l x) :
    weightFill h l d = setRun { d.run with waitWeights := d.run.waitWeights.filter (· != (h, l)) }
      (setTier { d.tier with models := d.tier.models.map fun z => if z.handle = h then x.filledWith l else z } d) := by
  obtain ⟨found, windowed, sourced, due⟩ := hd
  have idle : ∀ p ∈ d.run.steps, (p.started && !p.committed) = false := fun p hp => by
    cases hs : p.started with
    | false => rfl
    | true => rw [hr p hp hs]; rfl
  unfold weightFill
  rw [found]
  dsimp only
  rw [if_neg (by simp [windowed, sourced, hk, due]), if_neg]
  · rfl
  · simp only [List.any_eq_true, not_exists, not_and]
    intro y _ p hp
    simp [idle p hp]

/-- A model that is put back under its own handle is found there. -/
theorem find?_map_handle {l : List Model} {h : Nat} {x y : Model} (hx : l.find? (fun z => z.handle == h) = some x)
    (hy : y.handle = h) : (l.map fun z => if z.handle = h then y else z).find? (fun z => z.handle == h) = some y := by
  induction l with
  | nil => cases hx
  | cons z r ih =>
    by_cases hz : z.handle = h
    · simp [hz, hy]
    · simpa [hz] using ih (by simpa [hz] using hx)

/-- What the statement asks of a fill that is due: layer `l` of model `x` enters its window, and the layer after it is next. -/
def Filled (h l : Nat) (x : Model) (d t : Dev) : Prop :=
  (∃ y, findModel t h = some y ∧ l ∈ y.filled ∧ y.nextFill = (l + 1) % x.layers ∧ y.window = x.window ∧ y.content = x.content)
  ∧ t.sess = d.sess ∧ t.mem = d.mem

/-- With the rings enabled, the statement's clause holds. -/
theorem weightWindowFill_keysOn {s : State} {h l : Nat} {x : Model} (hk : s.dev.sec.keysOff = false) (hr : NoneRunning s.dev)
    (hd : FillDue s.dev h l x) : Gives (.weightWindowFill h l) s (Filled h l x s.dev) := by
  have handle : x.handle = h := by simpa using List.find?_some hd.1
  have idle : NoneRunning (weightFill h l s.dev) := by rw [weightFill_keysOn hk hr hd]; exact hr
  refine gives_of_run (f := fun d => advanceAll (weightFill h l d)) rfl ?_
  rw [advanceAll_noneRunning idle, weightFill_keysOn hk hr hd]
  refine ⟨⟨x.filledWith l, ?_, mem_filledWith l x, rfl, rfl, rfl⟩, by simp, by simp⟩
  simpa only [findModel, settle_units, setRun_units, setTier_units] using
    find?_map_handle (y := x.filledWith l) hd.1 handle

/-! ### A model whose next layer is due -/

/-- A windowed model of 8 layers: W is 2, layers 0 to 3 are in the window as after its load, and layer 4 is next (R377). -/
def eightLayers : Model :=
  { handle := 1, layers := 8, hidden := 1024, qHeads := 8, kvHeads := 8, kvHeadsAll := 8, headDim := 128, vocab := 1024
    kvFormat := 0, group := 1, slice := 0, members := [0], attn := [], len := 4096, content := zeros 32, bytes := 4096
    window := 2, srcTier := 3, src := 0, srcSlot := 0, srcLost := false, filled := [0, 1, 2, 3], nextFill := 4, part := 0 }

/-- The device after reset, with that model loaded; a debug unlock has disabled the rings where `off` says so. -/
def eightLayersLoaded (off : Bool) : State :=
  { State.reset with dev := { Dev.reset with
      tier := { Dev.reset.tier with models := [eightLayers] }
      sec := { Dev.reset.sec with keysOff := off } } }

theorem eightLayersLoaded_due (off : Bool) : FillDue (eightLayersLoaded off).dev 1 4 eightLayers := ⟨rfl, by decide, rfl, rfl⟩

theorem eightLayersLoaded_noneRunning (off : Bool) : NoneRunning (eightLayersLoaded off).dev := fun _ hp => by cases hp

/-- Layer 4 enters the window while the rings are enabled. -/
theorem eightLayersLoaded_fills :
    Gives (.weightWindowFill 1 4) (eightLayersLoaded false) (Filled 1 4 eightLayers (eightLayersLoaded false).dev) :=
  weightWindowFill_keysOn rfl (eightLayersLoaded_noneRunning false) (eightLayersLoaded_due false)

/-- Layer 4 stays out of it while they are disabled. -/
theorem eightLayersLoaded_stays :
    ¬ Gives (.weightWindowFill 1 4) (eightLayersLoaded true) (Filled 1 4 eightLayers (eightLayersLoaded true).dev) := by
  rintro ⟨t, answered, -, ⟨y, held, filled, -⟩, -⟩
  rw [weightWindowFill_keysOff rfl (eightLayersLoaded_noneRunning true)] at answered
  obtain rfl := Host.Outcome.next.inj answered
  have same : findModel (settle (eightLayersLoaded true).dev (eightLayersLoaded true).dev) 1 = some eightLayers := by
    simp only [findModel, settle_units]; rfl
  obtain rfl : eightLayers = y := Option.some.inj (same.symm.trans held)
  exact absurd filled (by decide)

/-- Refutes O27: its clause on a fill that is due lacks the premise that the key rings are enabled. With the rings disabled the
device reads nothing from T2 or T3 (R613), so layer 4 of `eightLayers` stays out of the window. -/
theorem not_waitsServed : ¬ Obligations.WaitsServed := by
  intro h
  obtain ⟨-, -, -, -, -, fills, -⟩ := h (eightLayersLoaded true)
  obtain ⟨found, windowed, sourced, due⟩ := eightLayersLoaded_due true
  exact eightLayersLoaded_stays (fills 1 4 eightLayers found windowed sourced due (eightLayersLoaded_noneRunning true))

end Sys2Proof.Machine
end

section
/-! PROOFS. The messages of a step (spec/07, spec/08): what sending, reducing, merging and advancing do to a step and leave of the
sessions and the memories, and the statement about what a step takes from the other members of its group. -/

namespace Sys2Proof.Machine

open Sys2Proof

/-! ### What counters, the fabric and the engines leave alone -/

/-- The sessions with their pages, the memories with their tiers, and the running steps. -/
def Dev.stores (d : Dev) : SessSt × MemSt × TierSt × KvSt × RunSt := (d.sess, d.mem, d.tier, d.kv, d.run)

@[simp] theorem stores_setFab (x : FabSt) (d : Dev) : (setFab x d).stores = d.stores := rfl
@[simp] theorem stores_setLink (x : LinkSt) (d : Dev) : (setLink x d).stores = d.stores := rfl
@[simp] theorem stores_setPart (x : PartSt) (d : Dev) : (setPart x d).stores = d.stores := rfl
@[simp] theorem stores_emit (x : Out) (d : Dev) : (d.emit x).stores = d.stores := rfl
@[simp] theorem stores_fresh (d : Dev) : d.fresh.2.stores = d.stores := rfl

@[simp] theorem stores_count (f : Field) (n : Nat) (d : Dev) : (d.count f n).stores = d.stores := by simp [Dev.stores]

@[simp] theorem stores_countFree (f : Field) (d : Dev) : (d.countFree f).stores = d.stores := by simp [Dev.stores]

@[simp] theorem stores_settle (o d : Dev) : (settle o d).stores = d.stores := by simp [Dev.stores]

@[simp] theorem stores_when {f : Dev → Dev} (h : ∀ d, (f d).stores = d.stores) (b : Bool) (d : Dev) :
    (when b f d).stores = d.stores := when_keeps Dev.stores f h b d

@[simp] theorem stores_forAll {α : Type} {f : α → Dev → Dev} (h : ∀ x d, (f x d).stores = d.stores) (l : List α)
    (d : Dev) : (forAll l f d).stores = d.stores := forAll_keeps Dev.stores f h l d

@[simp] theorem stores_setPort (p : Nat) (x : LinkPort) (d : Dev) : (setPort p x d).stores = d.stores := rfl
@[simp] theorem stores_onPort (p : Nat) (f : LinkPort → LinkPort) (d : Dev) : (onPort p f d).stores = d.stores := rfl
@[simp] theorem stores_enqueue (p : Nat) (t : FabTxn) (d : Dev) : (enqueue p t d).stores = d.stores := rfl

@[simp] theorem stores_admitTc0 (n p : Nat) (d : Dev) : (admitTc0 n p d).stores = d.stores := by
  induction n generalizing d with
  | zero => rfl
  | succ k ih =>
    unfold admitTc0; dsimp only; split
    · split
      · rw [ih]; simp
      · rfl
    · split
      · rw [ih]; simp
      · rfl
    · rfl

@[simp] theorem stores_portSend (p : Nat) (t : FabTxn) (d : Dev) : (portSend p t d).stores = d.stores := by
  unfold portSend; split <;> simp [admitAll]

@[simp] theorem stores_launchTxn (t : FabTxn) (d : Dev) : (launchTxn t d).stores = d.stores := by
  unfold launchTxn; split <;> simp

@[simp] theorem stores_sendReq (u : TxnUse) (t : FabTxn) (d : Dev) : (sendReq u t d).stores = d.stores := by
  unfold sendReq; dsimp only; split <;> simp

@[simp] theorem stores_request (u : TxnUse) (op tc a arg k : Nat) (l : Bytes) (d : Dev) :
    (request u op tc a arg k l d).stores = d.stores := by
  simp [request]

@[simp] theorem stores_sendMsg (n : Nat) (m : Msg) (d : Dev) : (sendMsg n m d).stores = d.stores := by
  unfold sendMsg; dsimp only; split
  · simp
  · simp
  · split <;> simp

@[simp] theorem stores_sendAll (l : List Nat) (m : Msg) (d : Dev) : (sendAll l m d).stores = d.stores := by simp [sendAll]

@[simp] theorem stores_forwardCounts (g : Nat) (d : Dev) : (forwardCounts g d).stores = d.stores := by simp [forwardCounts]

@[simp] theorem stores_layerWork (x : Desc) (l : Nat) (d : Dev) : (layerWork x l d).stores = d.stores := by simp [layerWork]

@[simp] theorem stores_logError (c e p u a i n : Nat) (b : Bool) (d : Dev) :
    (logError c e p u a i n b d).stores = d.stores := by simp [logError, errWrite, Dev.stores]

/-! ### A step that goes on (R32) -/

/-- `y` is the step `s` later in its tick: nothing that `s` took from a member is lost. -/
structure Continues (s y : Step) : Prop where
  key : y.key = s.key
  step : y.step = s.step
  partials : s.partials ⊆ y.partials
  shards : s.shards ⊆ y.shards
  lists : s.lists ⊆ y.lists

/-- What a step has taken from the members, under its name. -/
def Step.taken (s : Step) :
    SessKey × Nat × List (Nat × Nat × Nat × List Nat) × List (Nat × Nat × Nat × List Nat) × List (Nat × List (Nat × Int)) :=
  (s.key, s.step, s.partials, s.shards, s.lists)

/-- A step goes on when none of that changes. -/
theorem continues_of_taken {s y : Step} (h : y.taken = s.taken) : Continues s y := by
  simp only [Step.taken, Prod.mk.injEq] at h
  obtain ⟨key, step, partials, shards, lists⟩ := h
  exact ⟨key, step, partials ▸ List.Subset.refl _, shards ▸ List.Subset.refl _, lists ▸ List.Subset.refl _⟩

theorem continues_refl (s : Step) : Continues s s := continues_of_taken rfl

theorem continues_partials (s : Step) (l : List (Nat × Nat × Nat × List Nat)) :
    Continues s { s with partials := s.partials ++ l } :=
  ⟨rfl, rfl, List.subset_append_left _ _, List.Subset.refl _, List.Subset.refl _⟩

theorem continues_shards (s : Step) (l : List (Nat × Nat × Nat × List Nat)) : Continues s { s with shards := s.shards ++ l } :=
  ⟨rfl, rfl, List.Subset.refl _, List.subset_append_left _ _, List.Subset.refl _⟩

theorem continues_lists (s : Step) (l : List (Nat × List (Nat × Int))) : Continues s { s with lists := s.lists ++ l } :=
  ⟨rfl, rfl, List.Subset.refl _, List.Subset.refl _, List.subset_append_left _ _⟩

theorem continues_trans {a b c : Step} (h : Continues a b) (k : Continues b c) : Continues a c :=
  ⟨k.key.trans h.key, k.step.trans h.step, List.Subset.trans h.partials k.partials, List.Subset.trans h.shards k.shards,
    List.Subset.trans h.lists k.lists⟩

/-- Sessions and memories are as in `d`, and the step of session `k` goes on. -/
structure StepGoesOn (k : SessKey) (d t : Dev) : Prop where
  sess : t.sess = d.sess
  mem : t.mem = d.mem
  tier : t.tier = d.tier
  kv : t.kv = d.kv
  step : ∀ s, findStep d k = some s → ∃ y, findStep t k = some y ∧ Continues s y

theorem stepGoesOn_trans {k : SessKey} {a b c : Dev} (h : StepGoesOn k a b) (g : StepGoesOn k b c) : StepGoesOn k a c where
  sess := g.sess.trans h.sess
  mem := g.mem.trans h.mem
  tier := g.tier.trans h.tier
  kv := g.kv.trans h.kv
  step s hs := by
    obtain ⟨y, hy, sy⟩ := h.step s hs
    obtain ⟨z, hz, yz⟩ := g.step y hy
    exact ⟨z, hz, continues_trans sy yz⟩

theorem findStep_of_stores {d t : Dev} (h : t.stores = d.stores) (k : SessKey) : findStep t k = findStep d k := by
  have run : t.run = d.run := congrArg (·.2.2.2.2) h
  rw [findStep, findStep, run]

theorem stepGoesOn_of_stores {k : SessKey} {d t : Dev} (h : t.stores = d.stores) : StepGoesOn k d t :=
  ⟨congrArg (·.1) h, congrArg (·.2.1) h, congrArg (·.2.2.1) h, congrArg (·.2.2.2.1) h,
    fun s hs => ⟨s, (findStep_of_stores h k).trans hs, continues_refl s⟩⟩

theorem stepGoesOn_refl (k : SessKey) (d : Dev) : StepGoesOn k d d := stepGoesOn_of_stores rfl

/-- What changes no store may follow. -/
theorem stepGoesOn_then {k : SessKey} {d e t : Dev} (he : StepGoesOn k d e) (h : t.stores = e.stores) : StepGoesOn k d t :=
  stepGoesOn_trans he (stepGoesOn_of_stores h)

theorem stepGoesOn_forAll {α : Type} {k : SessKey} {f : α → Dev → Dev} (h : ∀ x e, StepGoesOn k e (f x e)) (l : List α)
    (d : Dev) : StepGoesOn k d (forAll l f d) := by
  unfold forAll
  induction l generalizing d with
  | nil => exact stepGoesOn_refl k d
  | cons x r ih => exact stepGoesOn_trans (h x d) (ih _)

theorem findStep_key {d : Dev} {k : SessKey} {s : Step} (h : findStep d k = some s) : s.key = k := by
  simpa using List.find?_some h

/-- A step that is put back under its own key is found there. -/
theorem findStep_putStep {d : Dev} {k : SessKey} {s y : Step} (h : findStep d k = some s) (hy : y.key = k) :
    findStep (putStep y d) k = some y := by
  have keys : (fun x : Step => x.key == k) ∘ (fun x => if x.key == y.key then y else x) = fun x => x.key == k := by
    funext x
    by_cases hx : x.key = k <;> simp [hx, hy]
  have hs : d.run.steps.find? (fun x => x.key == k) = some s := h
  simp only [findStep, putStep, setRun_units, List.find?_map, keys, hs]
  simp [findStep_key h, hy]

theorem stepGoesOn_putStep {d : Dev} {k : SessKey} {s y : Step} (h : findStep d k = some s) (hc : Continues s y) :
    StepGoesOn k d (putStep y d) where
  sess := rfl
  mem := rfl
  tier := rfl
  kv := rfl
  step r hr := by
    obtain rfl : s = r := Option.some.inj (h.symm.trans hr)
    exact ⟨y, findStep_putStep h (hc.key.trans (findStep_key h)), hc⟩

/-- A step is put back, before and after what changes no store. -/
theorem stepGoesOn_put {d e t : Dev} {k : SessKey} {s y : Step} (ht : t.stores = (putStep y e).stores) (he : e.stores = d.stores)
    (h : findStep d k = some s) (hc : Continues s y) : StepGoesOn k d t := by
  have found : findStep e k = some s := (findStep_of_stores he k).trans h
  exact stepGoesOn_then (stepGoesOn_trans (stepGoesOn_of_stores he) (stepGoesOn_putStep found hc)) ht

theorem stepGoesOn_onStep (k : SessKey) {f : Step → Step} (h : ∀ s, Continues s (f s)) (d : Dev) :
    StepGoesOn k d (onStep k f d) := by
  unfold onStep; split
  · exact stepGoesOn_refl k d
  · next s hs => exact stepGoesOn_putStep hs (h s)

/-- A step changes, before and after what changes no store. -/
theorem stepGoesOn_change {d e t : Dev} {k : SessKey} {f : Step → Step} (ht : t.stores = (onStep k f e).stores)
    (he : StepGoesOn k d e) (hf : ∀ s, Continues s (f s)) : StepGoesOn k d t :=
  stepGoesOn_then (stepGoesOn_trans he (stepGoesOn_onStep k hf e)) ht

theorem stepGoesOn_addCause (k : SessKey) (c : Cause) (d : Dev) : StepGoesOn k d (addCause k c d) := by
  refine stepGoesOn_onStep k (fun s => ?_) d
  split
  · exact continues_refl s
  · exact continues_of_taken rfl

/-! ### Remote requests (R218) -/

theorem stepGoesOn_sendPattn (k : SessKey) (l head owner : Nat) (rows : List (Nat × Nat)) (es : List PageEnt) (d : Dev) :
    StepGoesOn k d (sendPattn k l head owner rows es d) := by
  unfold sendPattn; split
  next s x hs _ =>
    split
    · exact stepGoesOn_refl k d
    · exact stepGoesOn_put ((stores_request _ _ _ _ _ _ _ _).trans (stores_count _ _ _)) (stores_fresh d) hs
        (continues_of_taken rfl)
  · exact stepGoesOn_refl k d

theorem stepGoesOn_sendPattns (k : SessKey) (l : Nat) (d : Dev) : StepGoesOn k d (sendPattns k l d) := by
  unfold sendPattns; split
  · split
    · exact stepGoesOn_refl k d
    · refine stepGoesOn_forAll (fun run e => ?_) _ d
      split
      · exact stepGoesOn_addCause k _ e
      · exact stepGoesOn_forAll (fun h e1 => stepGoesOn_forAll (fun rows e2 => stepGoesOn_sendPattn k _ _ _ _ _ e2) _ e1) _ e
  · exact stepGoesOn_refl k d

/-! ### The all-reduce (R252, R255) -/

theorem stepGoesOn_reduceShard (k : SessKey) (layer half : Nat) (d : Dev) : StepGoesOn k d (reduceShard k layer half d) := by
  unfold reduceShard; split
  next s x hs _ =>
    split
    · exact stepGoesOn_refl k d
    · split
      · exact stepGoesOn_refl k d
      · exact stepGoesOn_put (stores_sendAll _ _ _) (stores_fresh d) hs (continues_shards s _)
  · exact stepGoesOn_refl k d

theorem stepGoesOn_sendPartials (k : SessKey) (d : Dev) : StepGoesOn k d (sendPartials k d) := by
  unfold sendPartials; split
  · split
    · exact stepGoesOn_refl k d
    · extract_lets layer half d1
      have sent : d1.stores = d.stores := stores_forAll (fun o e => (stores_sendMsg _ _ _).trans (stores_fresh e)) _ d
      have ready : StepGoesOn k d d1.fresh.2 := stepGoesOn_of_stores ((stores_fresh d1).trans sent)
      refine stepGoesOn_trans ?_ (stepGoesOn_reduceShard k layer half _)
      exact stepGoesOn_change rfl ready fun y => continues_trans (continues_partials y _) (continues_of_taken rfl)
  · exact stepGoesOn_refl k d

/-! ### Layers (R32, R218) -/

theorem stepGoesOn_beginLayer (k : SessKey) (d : Dev) : StepGoesOn k d (beginLayer k d) := by
  unfold beginLayer; split
  next s x _ _ =>
    split
    · exact stepGoesOn_refl k d
    · extract_lets d1 d2
      have counted : StepGoesOn k d d2 := stepGoesOn_then (stepGoesOn_sendPattns k s.layer d) (by simp [d2, d1])
      exact stepGoesOn_change (stores_layerWork _ _ _) counted (fun y => continues_of_taken rfl)
  · exact stepGoesOn_refl k d

/-! ### Sampling (R261-R271) -/

theorem stepGoesOn_drawStep (k : SessKey) (l : List (Nat × Int)) (d : Dev) : StepGoesOn k d (drawStep k l d) := by
  unfold drawStep; split
  · split
    · exact stepGoesOn_refl k d
    · split
      · have counted := stepGoesOn_of_stores (k := k) (stores_count Reg.PLEC_EMPTY_MASK 1 d)
        dsimp only
        split <;> exact stepGoesOn_change (stores_count _ _ _) counted (fun y => continues_of_taken rfl)
      · extract_lets r rem d1 d2
        have counted : StepGoesOn k d d1 := stepGoesOn_of_stores (by simp [d1])
        have drawn : StepGoesOn k d d2 := stepGoesOn_change rfl counted (fun y => continues_of_taken rfl)
        split
        · exact drawn
        · exact stepGoesOn_then drawn (stores_sendMsg _ _ _)
  · exact stepGoesOn_refl k d

theorem stepGoesOn_mergeLists (k : SessKey) (d : Dev) : StepGoesOn k d (mergeLists k d) := by
  unfold mergeLists; split
  · split
    · exact stepGoesOn_refl k d
    · split
      · exact stepGoesOn_refl k d
      · exact stepGoesOn_drawStep k _ d
  · exact stepGoesOn_refl k d

theorem stepGoesOn_sampleStep (k : SessKey) (d : Dev) : StepGoesOn k d (sampleStep k d) := by
  unfold sampleStep; split
  · split
    · exact stepGoesOn_refl k d
    · extract_lets rows trimmed own d1 d2
      have counted : StepGoesOn k d d2 := stepGoesOn_of_stores (by simp [d2, d1])
      exact stepGoesOn_trans (stepGoesOn_then (stepGoesOn_trans counted (stepGoesOn_onStep k (fun y => continues_lists y _) d2))
        (stores_sendAll _ _ _)) (stepGoesOn_mergeLists k _)
  · exact stepGoesOn_refl k d

/-! ### A step goes as far as it can -/

theorem stepGoesOn_advanceStep (fuel : Nat) (k : SessKey) (d : Dev) : StepGoesOn k d (advanceStep fuel k d) := by
  induction fuel generalizing d with
  | zero => exact stepGoesOn_refl k d
  | succ n ih =>
    unfold advanceStep; split
    · split
      · exact stepGoesOn_refl k d
      · split
        · exact stepGoesOn_refl k d
        · split
          · exact stepGoesOn_trans (stepGoesOn_sendPartials k d) (ih _)
          · split
            · exact stepGoesOn_refl k d
            · split
              · split
                · exact stepGoesOn_refl k d
                · split
                  · exact ⟨rfl, rfl, rfl, rfl, fun s hs => ⟨s, hs, continues_refl s⟩⟩
                  · exact stepGoesOn_trans (stepGoesOn_beginLayer k d) (ih _)
              · split
                · exact stepGoesOn_sampleStep k d
                · exact stepGoesOn_refl k d
    · exact stepGoesOn_refl k d

theorem stepGoesOn_advance (k : SessKey) (d : Dev) : StepGoesOn k d (advance k d) := stepGoesOn_advanceStep 4096 k d

/-! ### Which step and which slice a message names -/

/-- The session runs this step and has not committed it. -/
structure Runs (d : Dev) (k : SessKey) (step : Nat) (x : Step) : Prop where
  found : findStep d k = some x
  step : x.step = step
  running : x.committed = false

theorem stepFor_of_runs {d : Dev} {k : SessKey} {n : Nat} {x : Step} (h : Runs d k n x) : stepFor d k n = some x := by
  simp [stepFor, h.found, h.step, h.running]

/-- A message for another step finds none. -/
theorem stepFor_eq_none {d : Dev} {k : SessKey} {n : Nat}
    (h : ∀ x, findStep d k = some x → x.step ≠ n ∨ x.committed = true) : stepFor d k n = none := by
  unfold stepFor
  split
  next x hx =>
    refine if_neg fun ⟨hn, hc⟩ => ?_
    exact (h x hx).elim (fun ne => ne hn) hc
  · rfl

/-! ### An error detected in a step (R148) -/

/-- The step is marked, and nothing else of the sessions, the memories and the step changes. -/
theorem stepError_marks {d : Dev} {k : SessKey} {s : Step} (h : findStep d k = some s) (hc : s.committed = false)
    (c p u : Nat) (b : Bool) :
    StepGoesOn k d (stepError k c p u b d) ∧ findStep (stepError k c p u b d) k = some { s with error := true } := by
  have key : s.key = k := findStep_key h
  unfold stepError
  rw [h]
  dsimp only
  split
  · next he =>
    have error : s.error = true := he.resolve_right (by simp [hc])
    have marked : { s with error := true } = s := by rw [← error]
    exact ⟨stepGoesOn_refl k d, by rw [marked]; exact h⟩
  · have logged := stores_logError clsStep c p u 0 k.sid s.step b (putStep { s with error := true } d)
    exact ⟨stepGoesOn_put logged rfl h (continues_of_taken rfl), (findStep_of_stores logged k).trans (findStep_putStep h key)⟩

/-- The log entry of an error counts in RAS_LOG_SEQ and stands in BLK_ERR_LOG, and changes no other field. -/
theorem get_stepError {f : Field} {p : Nat} (hseq : f.key ≠ Reg.RAS_LOG_SEQ.key) (hlog : f.key ≠ (Reg.BLK_ERR_LOG p).key)
    (k : SessKey) (c u : Nat) (b : Bool) (d : Dev) : (stepError k c p u b d).get f = d.get f := by
  unfold stepError; split
  · rfl
  · split
    · rfl
    · rw [logError, errWrite, get_set_other _ _ hlog, get_set_other _ _ hseq]; rfl

/-! ### A partial, a shard, a list and a remainder: each is kept, or changes nothing -/

section
variable {d : Dev} {k : SessKey} {src n i : Nat} {x : Step}

theorem partialRx_unnamed (h : stepFor d k n = none ∨ senderSlice d k src = none) (layer half : Nat) (elems : List Nat) :
    partialRx src k n layer half elems d = d := by
  unfold partialRx
  split
  · simp_all
  · rfl

theorem shardRx_unnamed (h : stepFor d k n = none ∨ senderSlice d k src = none) (layer half : Nat) (elems : List Nat) :
    shardRx src k n layer half elems d = d := by
  unfold shardRx
  split
  · simp_all
  · rfl

theorem peerListRx_unnamed (h : stepFor d k n = none ∨ senderSlice d k src = none) (entries : List (Nat × Int)) :
    peerListRx src k n entries d = d := by
  unfold peerListRx
  split
  · simp_all
  · rfl

/-- A partial that is there already changes nothing. -/
theorem partialRx_known (hx : Runs d k n x) {layer half : Nat} (hs : senderSlice d k src = some i)
    (h : (x.partials.any fun p => p.1 == layer && p.2.1 == half && p.2.2.1 == i) = true) (elems : List Nat) :
    partialRx src k n layer half elems d = d := by
  simp only [partialRx, stepFor_of_runs hx, hs, h, if_true]

/-- A new partial is kept, and the step goes on from there (R252, R255). -/
theorem partialRx_new (hx : Runs d k n x) {layer half : Nat} (hs : senderSlice d k src = some i)
    (h : (x.partials.any fun p => p.1 == layer && p.2.1 == half && p.2.2.1 == i) = false) (elems : List Nat) :
    StepGoesOn k (putStep { x with partials := x.partials ++ [(layer, half, i, elems)] } d)
      (partialRx src k n layer half elems d) := by
  simp only [partialRx, stepFor_of_runs hx, hs, h, Bool.false_eq_true, if_false]
  exact stepGoesOn_trans (stepGoesOn_reduceShard k layer half _) (stepGoesOn_advance k _)

theorem shardRx_known (hx : Runs d k n x) {layer half : Nat} (hs : senderSlice d k src = some i)
    (h : (x.shards.any fun p => p.1 == layer && p.2.1 == half && p.2.2.1 == i) = true) (elems : List Nat) :
    shardRx src k n layer half elems d = d := by
  simp only [shardRx, stepFor_of_runs hx, hs, h, if_true]

theorem shardRx_new (hx : Runs d k n x) {layer half : Nat} (hs : senderSlice d k src = some i)
    (h : (x.shards.any fun p => p.1 == layer && p.2.1 == half && p.2.2.1 == i) = false) (elems : List Nat) :
    StepGoesOn k (putStep { x with shards := x.shards ++ [(layer, half, i, elems)] } d)
      (shardRx src k n layer half elems d) := by
  simp only [shardRx, stepFor_of_runs hx, hs, h, Bool.false_eq_true, if_false]
  exact stepGoesOn_advance k _

theorem peerListRx_known (hx : Runs d k n x) (hs : senderSlice d k src = some i)
    (h : (x.lists.any fun l => l.1 == i) = true) (entries : List (Nat × Int)) : peerListRx src k n entries d = d := by
  unfold peerListRx
  rw [stepFor_of_runs hx, hs]
  split
  next s j m hj hi _ =>
    obtain rfl := Option.some.inj hj
    obtain rfl := Option.some.inj hi
    exact if_pos h
  · rfl

/-- A new list is an error of the step when an index stands in it twice or outside the sender's slice, and is kept otherwise
(R263, R275). -/
theorem peerListRx_new (hx : Runs d k n x) {z : Desc} {m : Model} (hs : senderSlice d k src = some i)
    (hz : findDesc d k = some z) (hm : findModel d z.model = some m) (h : (x.lists.any fun l => l.1 == i) = false)
    (entries : List (Nat × Int)) :
    peerListRx src k n entries d = if listBad m i entries = true
      then stepError k ecRemoteBad Reg.PLEC_LIST_ERR.page 0xFFFF false (d.count Reg.PLEC_LIST_ERR 1)
      else mergeLists k (putStep { x with lists := x.lists ++ [(i, entries)] } d) := by
  simp only [peerListRx, stepFor_of_runs hx, hs, hz, hm, Option.bind_some, h, Bool.false_eq_true, if_false]

end

/-! ### What a message leaves when the device has settled -/

theorem stepGoesOn_settle {k : SessKey} {d e : Dev} (o : Dev) (h : StepGoesOn k d e) : StepGoesOn k d (settle o e) :=
  stepGoesOn_then h (stores_settle o e)

/-- What the step `x'` has taken is there once the device has settled, and sessions and memories are as before. -/
theorem taken_settled {d e : Dev} {k : SessKey} {n : Nat} {x x' : Step} (hx : Runs d k n x) (hc : Continues x x')
    (g : StepGoesOn k (putStep x' d) e) {P : Step → Prop} (hP : ∀ y, Continues x' y → P y) :
    let t := settle d e
    (t.sess = d.sess ∧ t.mem = d.mem ∧ t.tier = d.tier ∧ t.kv = d.kv) ∧ ∃ y, findStep t k = some y ∧ y.step = n ∧ P y := by
  obtain ⟨hsess, hmem, htier, hkv, hstep⟩ := stepGoesOn_settle d g
  obtain ⟨y, hy, hcy⟩ := hstep x' (findStep_putStep hx.found (hc.key.trans (findStep_key hx.found)))
  exact ⟨⟨hsess, hmem, htier, hkv⟩, y, hy, hcy.step.trans (hc.step.trans hx.step), hP y hcy⟩

/-! ### Messages of other modules (R423) -/

/-- A message of a LOST module is counted in FAB_RX_FENCED, and changes nothing else. -/
theorem gives_fenced {i : Instr} {s : State} {src : Nat} (f : Dev → Dev) (h : exec i s = s.run (fromPeer src f))
    (hl : peerState s.dev src = .lost) :
    Gives i s fun t => Becomes [Reg.FAB_RX_FENCED] s.dev t ∧ Counts Reg.FAB_RX_FENCED 1 s.dev t := by
  refine gives_of_run h ?_
  rw [fromPeer, if_pos hl]
  exact ⟨becomes_settle _ (becomes_count 1 (becomes_refl _ _) (by simp)), get_settle _ _ (by decide)⟩

/-- A message of any other module does what it does. -/
theorem gives_fromPeer {i : Instr} {s : State} {src : Nat} {f : Dev → Dev} {P : Dev → Prop}
    (h : exec i s = s.run (fromPeer src f)) (hl : peerState s.dev src ≠ .lost) (hp : P (settle s.dev (f s.dev))) :
    Gives i s P := by
  refine gives_of_run h ?_
  rw [fromPeer, if_neg hl]
  exact hp

/-- It changes nothing where the operation does not. -/
theorem gives_ignored {i : Instr} {s : State} {src : Nat} {f : Dev → Dev} (h : exec i s = s.run (fromPeer src f))
    (hl : peerState s.dev src ≠ .lost) (hf : f s.dev = s.dev) : Gives i s (Becomes [] s.dev) := by
  refine gives_fromPeer h hl ?_
  rw [hf]
  exact becomes_settle_self s.dev

/-- A remainder of the step that the session runs, under the sender's slice, is kept when none is there (R268). -/
theorem remainderRx_of_runs {d : Dev} {k : SessKey} {body : Bytes} {x : Step} (hx : Runs d k (fieldAt body 8 6) x)
    (hk : fieldAt body 0 8 = k.sid) (src : Nat) :
    remainderRx src k.ns body d =
      if (x.remainders.any fun r => r.1 == fieldAt body 14 2) = true ∨ senderSlice d k src ≠ some (fieldAt body 14 2) then d
      else putStep { x with remainders := x.remainders ++ [(fieldAt body 14 2, fieldAt body 16 4, fieldAt body 32 16)] } d := by
  simp only [remainderRx, hk, stepFor_of_runs hx]

/-- A peer's list that is new, once the device has settled (R263, R275). -/
theorem peerListRx_settled {d : Dev} {k : SessKey} {src n sl : Nat} {x : Step} {z : Desc} {m : Model} (hx : Runs d k n x)
    (hs : senderSlice d k src = some sl) (hz : findDesc d k = some z) (hm : findModel d z.model = some m)
    (h : (x.lists.any fun l => l.1 == sl) = false) (entries : List (Nat × Int)) :
    let t := settle d (peerListRx src k n entries d)
    (t.sess = d.sess ∧ t.mem = d.mem ∧ t.tier = d.tier ∧ t.kv = d.kv) ∧ ∃ y, findStep t k = some y ∧ y.step = n
      ∧ (if listBad m sl entries = true then y.error = true ∧ y.lists = x.lists ∧ Counts Reg.PLEC_LIST_ERR 1 d t
         else (sl, entries) ∈ y.lists) := by
  rw [peerListRx_new hx hs hz hm h]
  by_cases bad : listBad m sl entries = true
  · simp only [bad, if_true]
    have counted : (d.count Reg.PLEC_LIST_ERR 1).stores = d.stores := stores_count _ _ d
    have found := (findStep_of_stores counted k).trans hx.found
    obtain ⟨goes, marked⟩ := stepError_marks found hx.running ecRemoteBad Reg.PLEC_LIST_ERR.page 0xFFFF false
    obtain ⟨hsess, hmem, htier, hkv, -⟩ := stepGoesOn_settle d (stepGoesOn_trans (stepGoesOn_of_stores counted) goes)
    refine ⟨⟨hsess, hmem, htier, hkv⟩, _, (findStep_of_stores (stores_settle _ _) k).trans marked, hx.step, rfl, rfl, ?_⟩
    exact (get_settle _ _ (by decide)).trans (get_stepError (by decide) (by decide) _ _ _ _ _)
  · simp only [bad]
    exact taken_settled hx (continues_lists x _) (stepGoesOn_mergeLists k _) fun y hy => hy.lists (by simp)

theorem any_eq_false_of_all_not {α : Type} {p : α → Bool} {l : List α} (h : (l.all fun x => !p x) = true) :
    l.any p = false := by simpa using h

/-- Settles O25: each message is fenced, names no step or no member, is there already, or is kept with the step. -/
theorem stepMessages : Obligations.StepMessages := by
  intro s src k n layer half elems entries body body0 same rows
  refine ⟨fun lost => ?_, fun live => ⟨fun unnamed => ?_, fun x sl found hn hopen hs => ?_⟩⟩
  · simp only [rows, List.forall_mem_cons, List.not_mem_nil, false_implies, implies_true, and_true]
    exact ⟨gives_fenced (partialRx src k n layer half elems) rfl lost, gives_fenced (shardRx src k n layer half elems) rfl lost,
      gives_fenced (peerListRx src k n entries) rfl lost, gives_fenced (remainderRx src k.ns body) rfl lost⟩
  · have none_named : stepFor s.dev k n = none ∨ senderSlice s.dev k src = none := unnamed.symm.imp_left stepFor_eq_none
    simp only [rows, List.take_succ_cons, List.take_zero, List.forall_mem_cons, List.not_mem_nil, false_implies, implies_true,
      and_true]
    exact ⟨gives_ignored rfl live (partialRx_unnamed none_named layer half elems),
      gives_ignored rfl live (shardRx_unnamed none_named layer half elems),
      gives_ignored rfl live (peerListRx_unnamed none_named entries)⟩
  have hx : Runs s.dev k n x := ⟨found, hn, hopen⟩
  refine ⟨fun new => ?_, fun known => ?_, fun new => ?_, fun known => ?_, fun z m hz hm new => ?_, fun known => ?_,
    fun hsid hstep hslice new => ?_, fun hsid hstep other => ?_⟩
  · exact gives_fromPeer rfl live (taken_settled hx (continues_partials x _)
      (partialRx_new hx hs (any_eq_false_of_all_not new) elems) fun y hy => hy.partials (by simp))
  · exact gives_ignored rfl live (partialRx_known hx hs known elems)
  · exact gives_fromPeer rfl live (taken_settled hx (continues_shards x _)
      (shardRx_new hx hs (any_eq_false_of_all_not new) elems) fun y hy => hy.shards (by simp))
  · exact gives_ignored rfl live (shardRx_known hx hs known elems)
  · exact gives_fromPeer rfl live (peerListRx_settled hx hs hz hm (any_eq_false_of_all_not new) entries)
  · exact gives_ignored rfl live (peerListRx_known hx hs known entries)
  · obtain rfl : fieldAt body 8 6 = n := hstep
    subst hslice
    refine gives_fromPeer (f := remainderRx src k.ns body) rfl live ?_
    rw [remainderRx_of_runs hx hsid, if_neg (by simp [any_eq_false_of_all_not new, hs])]
    exact becomes_settle _ (becomes_refl _ _)
  · obtain rfl : fieldAt body 8 6 = n := hstep
    refine gives_ignored (f := remainderRx src k.ns body) rfl live ?_
    rw [remainderRx_of_runs hx hsid]
    refine if_pos ?_
    by_cases slice : fieldAt body 14 2 = sl
    · exact .inl (by rw [slice]; exact other.resolve_left fun ne => ne slice)
    · exact .inr fun e => slice (Option.some.inj (e.symm.trans hs))

/-! ### A group of two -/

/-- A session of a model that modules 0 and 5 share, in state ACTIVE on module 0. -/
def sharedSession : Desc :=
  { index := 0, sid := 9, ns := 0, state := ssActive, stopReason := 0, context := 0, part := 0, home := 0, committed := 3
    flags := 0, ctxLen := 0, prevCtxLen := 0, tokensLeft := 1, hostLost := none, retries := 0, policy := 0, profile := 0
    seed := 0, model := 1, pageTable := 0, tokenLog := 0, inboxBase := 0, inboxLen := 0, streamRing := 0, eventRing := 0
    smemBase := 0, smemLen := 0, ttlMs := 0, parkMs := 0, timerStart := 0, wakeHint := 0, grammar := 0, stopSet := 0
    fretState := 0, sampler := samplerOf [], parent := 0, textState := 0, turnStarts := [], lastCommit := 0, isHome := true
    tokens := [], table := [], text := textGenNew [], textPrev := textGenNew [], fret := ⟨0, []⟩, fretPrev := ⟨0, []⟩
    turn := none, blocks := [], migrFrom := 0, migrHome := 0, migrWait := [], migrCmd := none, keySlot := 0, expiry := 0
    epochs := [] }

/-- Step 4 of that session, before any message of module 5. -/
def sharedStep : Step := newStep ⟨⟨0, 9⟩, 4, false, false, 0⟩ 0 true false 0

/-- The device after reset, with that model, that session and that step. -/
def sharedRunning : State :=
  { State.reset with dev := { Dev.reset with
      tier := { Dev.reset.tier with models := [{ eightLayers with group := 2, members := [0, 5] }] }
      sess := { Dev.reset.sess with descs := [sharedSession] }
      run := { Dev.reset.run with steps := [sharedStep] } } }

/-- A partial of module 5 is kept under its slice, 1. -/
theorem sharedRunning_partial (elems : List Nat) :
    Gives (.allreducePartialRx 5 ⟨0, 9⟩ 4 2 1 elems) sharedRunning fun t =>
      ∃ y, findStep t ⟨0, 9⟩ = some y ∧ y.step = 4 ∧ (2, 1, 1, elems) ∈ y.partials := by
  obtain ⟨-, live⟩ := stepMessages sharedRunning 5 ⟨0, 9⟩ 4 2 1 elems [] []
  obtain ⟨-, taken⟩ := live (by decide)
  obtain ⟨kept, -⟩ := taken sharedStep 1 rfl rfl rfl rfl
  obtain ⟨t, answered, queue, -, held⟩ := kept rfl
  exact ⟨t, answered, queue, held⟩

/-- A list of module 5 that holds row 600 twice is an error of the step, and counts. -/
theorem sharedRunning_list :
    Gives (.peerListRx 5 ⟨0, 9⟩ 4 [(600, 7), (600, 3)]) sharedRunning fun t =>
      ∃ y, findStep t ⟨0, 9⟩ = some y ∧ y.error = true ∧ y.lists = [] ∧ Counts Reg.PLEC_LIST_ERR 1 sharedRunning.dev t := by
  obtain ⟨-, live⟩ := stepMessages sharedRunning 5 ⟨0, 9⟩ 4 0 0 [] [(600, 7), (600, 3)] []
  obtain ⟨-, taken⟩ := live (by decide)
  obtain ⟨-, -, -, -, listed, -⟩ := taken sharedStep 1 rfl rfl rfl rfl
  obtain ⟨t, answered, queue, -, y, found, -, error⟩ := listed sharedSession _ rfl rfl rfl
  rw [if_pos (by decide)] at error
  exact ⟨t, answered, queue, y, found, error⟩

end Sys2Proof.Machine
end

section
/-! PROOFS. The fabric ports (spec/13): what an operation on one port leaves of the others, of the sessions and of the memories,
and the statement about the flits that a port receives. -/

namespace Sys2Proof.Machine

open Sys2Proof

/-! ### Ports -/

/-- A port reads as it was put back. -/
theorem portOf_setPort_same {d : Dev} {p : Nat} (h : p < d.link.ports.length) (x : LinkPort) : portOf (setPort p x d) p = x := by
  simp [portOf, setPort, h]

/-- Every other port reads as before. -/
theorem portOf_setPort_other {p r : Nat} (h : r ≠ p) (x : LinkPort) (d : Dev) : portOf (setPort p x d) r = portOf d r := by
  simp [portOf, setPort, List.getElem?_set_ne (Ne.symm h)]

/-- What is put back and agrees with the port on `g` leaves `g` of every port alone. -/
theorem portOf_setPort_keeps {β : Type} (g : LinkPort → β) {p : Nat} {x : LinkPort} {d : Dev} (h : g x = g (portOf d p))
    (r : Nat) : g (portOf (setPort p x d) r) = g (portOf d r) := by
  by_cases hr : r = p
  · subst hr
    by_cases hl : r < d.link.ports.length
    · rw [portOf_setPort_same hl, h]
    · simp only [portOf, setPort, setLink_units, List.set_eq_of_length_le (Nat.le_of_not_lt hl)]
  · rw [portOf_setPort_other hr]

theorem portOf_of_link {a b : Dev} (h : a.link = b.link) (p : Nat) : portOf a p = portOf b p := by rw [portOf, portOf, h]

@[simp] theorem portOf_set (f : Field) (v : Nat) (d : Dev) (p : Nat) : portOf (d.set f v) p = portOf d p := rfl
@[simp] theorem portOf_emit (o : Out) (d : Dev) (p : Nat) : portOf (d.emit o) p = portOf d p := rfl
@[simp] theorem portOf_emits (l : List Out) (d : Dev) (p : Nat) : portOf (d.emits l) p = portOf d p := rfl
@[simp] theorem portOf_count (f : Field) (n : Nat) (d : Dev) (p : Nat) : portOf (d.count f n) p = portOf d p :=
  portOf_of_link (by simp) p

/-! ### What work on a port leaves -/

/-- Work on port `p`: the other ports, the sessions, the memories and what has been sent stay. -/
structure PortWork (p : Nat) (d t : Dev) : Prop where
  others : ∀ r, r ≠ p → portOf t r = portOf d r
  size : t.link.ports.length = d.link.ports.length
  stores : t.stores = d.stores
  sent : Grows d t

theorem PortWork.refl (p : Nat) (d : Dev) : PortWork p d d := ⟨fun _ _ => rfl, rfl, rfl, grows_refl d⟩

theorem PortWork.trans {p : Nat} {a b c : Dev} (h : PortWork p a b) (k : PortWork p b c) : PortWork p a c :=
  ⟨fun r hr => (k.others r hr).trans (h.others r hr), k.size.trans h.size, k.stores.trans h.stores, grows_trans h.sent k.sent⟩

/-- An operation that leaves the link and the stores alone is work on any port. -/
theorem PortWork.of_link {p : Nat} {d t : Dev} (hl : t.link = d.link) (hs : t.stores = d.stores) (hg : Grows d t) :
    PortWork p d t := ⟨fun r _ => portOf_of_link hl r, by rw [hl], hs, hg⟩

theorem PortWork.setPort (p : Nat) (x : LinkPort) (d : Dev) : PortWork p d (setPort p x d) :=
  ⟨fun _ hr => portOf_setPort_other hr x d, by simp [Machine.setPort], rfl, grows_of_eq rfl⟩

theorem PortWork.onPort (p : Nat) (f : LinkPort → LinkPort) (d : Dev) : PortWork p d (onPort p f d) := PortWork.setPort p _ d

theorem PortWork.count (p : Nat) (f : Field) (n : Nat) (d : Dev) : PortWork p d (d.count f n) :=
  .of_link (by simp) (by simp) (grows_of_eq (by simp))

theorem PortWork.set (p : Nat) (f : Field) (v : Nat) (d : Dev) : PortWork p d (d.set f v) := .of_link rfl rfl (grows_of_eq rfl)

theorem PortWork.emit (p : Nat) (o : Out) (d : Dev) : PortWork p d (d.emit o) := .of_link rfl rfl (grows_emit o d)

theorem PortWork.emits (p : Nat) (l : List Out) (d : Dev) : PortWork p d (d.emits l) := .of_link rfl rfl ⟨l, rfl⟩

/-- What was sent before more was sent is sent. -/
theorem sent_grows {o : Out} {a b c : Dev} (h : Sent o a b) (k : Grows b c) : Sent o a c := by
  obtain ⟨l, hl, hm⟩ := h
  obtain ⟨m, hk⟩ := k
  exact ⟨l ++ m, by rw [hk, hl, List.append_assoc], List.mem_append_left _ hm⟩

/-- What is sent after more was sent is sent. -/
theorem grows_sent {o : Out} {a b c : Dev} (h : Grows a b) (k : Sent o b c) : Sent o a c := by
  obtain ⟨l, hl⟩ := h
  obtain ⟨m, hk, hm⟩ := k
  exact ⟨l ++ m, by rw [hk, hl, List.append_assoc], List.mem_append_right _ hm⟩

theorem sent_emit (o : Out) (d : Dev) : Sent o d (d.emit o) := ⟨[o], rfl, List.mem_singleton_self o⟩

/-! ### Peers that no port reaches any more (R421) -/

@[simp] theorem postAdmins_units (e : Option Nat) (c x : Nat) (d : Dev) :
    (postAdmins e c x d).link = d.link ∧ (postAdmins e c x d).fab = d.fab ∧ (postAdmins e c x d).time = d.time
    ∧ (postAdmins e c x d).stores = d.stores := by
  obtain ⟨htime, -, hmem, -, hfab, hlink, -, -, hkv, htier, hsess, hrun, -⟩ := units_of_inner (inner_postAdmins e c x d)
  exact ⟨hlink, hfab, htime, by simp only [Dev.stores, hmem, hkv, htier, hsess, hrun]⟩

theorem grows_postAdmins (e : Option Nat) (c x : Nat) (d : Dev) : Grows d (postAdmins e c x d) :=
  grows_forAll _ _ (fun _ z => grows_postEvent _ _ _ _ _ _ _ z) d

/-- A peer that becomes SUSPECT changes the fabric's peers and two registers, and is reported. -/
theorem suspectPeer_units (m : Nat) (d : Dev) :
    (suspectPeer m d).link = d.link ∧ (suspectPeer m d).time = d.time ∧ (suspectPeer m d).stores = d.stores := by
  unfold suspectPeer
  split
  · simp only [postAdmins_units]; exact ⟨rfl, rfl, rfl⟩
  · exact ⟨rfl, rfl, rfl⟩

theorem grows_suspectPeer (m : Nat) (d : Dev) : Grows d (suspectPeer m d) := by
  unfold suspectPeer
  split
  · exact grows_trans (grows_of_eq rfl) (grows_postAdmins _ _ _ _)
  · exact grows_refl d

@[simp] theorem peersRecheck_units (d : Dev) :
    (peersRecheck d).link = d.link ∧ (peersRecheck d).time = d.time ∧ (peersRecheck d).stores = d.stores :=
  ⟨forAll_keeps (·.link) _ (fun m e => (suspectPeer_units m e).1) _ d,
    forAll_keeps (·.time) _ (fun m e => (suspectPeer_units m e).2.1) _ d,
    forAll_keeps Dev.stores _ (fun m e => (suspectPeer_units m e).2.2) _ d⟩

theorem grows_peersRecheck (d : Dev) : Grows d (peersRecheck d) := grows_forAll _ _ (fun m e => grows_suspectPeer m e) d

theorem PortWork.peersRecheck (p : Nat) (d : Dev) : PortWork p d (peersRecheck d) :=
  .of_link (by simp) (by simp) (grows_peersRecheck d)

/-- The words of the peer maps that hold the peers of `d` are elsewhere than `f` (R429). -/
def ClearOfMaps (f : Field) (d : Dev) : Prop :=
  ∀ q ∈ d.fab.peers,
    f.key ≠ (Reg.FAB_SUSPECT_MAP (q.module_ / 64)).key ∧ f.key ≠ (Reg.FAB_LOST_MAP (q.module_ / 64)).key

/-- The map words are whole words of eight bytes from the page of the fabric memory space on. -/
theorem clearOfMaps_of_key {f : Field} (h : f.key % 64 ≠ 0 ∨ f.key < 2097152) (d : Dev) : ClearOfMaps f d := by
  intro q _
  simp only [Field.key, Reg.FAB_SUSPECT_MAP, Reg.FAB_LOST_MAP] at h ⊢
  omega

theorem get_suspectPeer {f : Field} (hf : follows f = false) {m : Nat} (hs : f.key ≠ (Reg.FAB_SUSPECT_MAP (m / 64)).key)
    (hl : f.key ≠ (Reg.FAB_LOST_MAP (m / 64)).key) (d : Dev) : (suspectPeer m d).get f = d.get f := by
  unfold suspectPeer
  split
  · rw [get_postAdmins _ _ _ _ hf]
    exact (get_set_other _ _ hl).trans (get_set_other _ _ hs)
  · rfl

theorem get_peersRecheck {f : Field} (hf : follows f = false) {d : Dev} (h : ClearOfMaps f d) :
    (peersRecheck d).get f = d.get f := by
  refine forAll_keeps_mem (fun e => e.get f) _ _ (fun m hm e => ?_) d
  obtain ⟨q, hq, rfl⟩ := List.mem_map.mp hm
  obtain ⟨hs, hl⟩ := h q (List.mem_filter.mp hq).1
  exact get_suspectPeer hf hs hl e

/-! ### The end of a command on a port -/

/-- What a command on one of the sixteen ports leaves: its effect, the peers looked at again, and the device settled. -/
theorem gives_of_portRow {i : Instr} {s : State} {p : Nat} {f : Dev → Dev} {P : Dev → Prop}
    (h : exec i s = s.run (portRow p f))
    (hp : p < 16) (k : P (settle s.dev (peersRecheck (f s.dev)))) : Gives i s P :=
  gives_of_run h (by rw [portRow, if_pos hp]; exact k)

theorem portOf_end (o e : Dev) (p : Nat) : portOf (settle o (peersRecheck e)) p = portOf e p := portOf_of_link (by simp) p

theorem get_end (o : Dev) {e : Dev} {f : Field} (hf : follows f = false) (h : ClearOfMaps f e) :
    (settle o (peersRecheck e)).get f = e.get f := by rw [get_settle _ _ hf, get_peersRecheck hf h]

theorem PortWork.settled (o : Dev) {p : Nat} {d e : Dev} (h : PortWork p d e) :
    PortWork p d (settle o (Machine.peersRecheck e)) :=
  (h.trans (.peersRecheck p e)).trans (.of_link (by simp) (by simp) (grows_settle o _))

/-! ### Flits that are sent (R434, R438, R441) -/

/-- A port without what the sending of flits changes. -/
def LinkPort.still (x : LinkPort) : LinkPort :=
  { x with
    txSeq := 0
    replay := []
    sendTc0 := []
    sendBulk := []
    credits := [] }

/-- The port `y` once it has sent a flit: the flit takes the next sequence of `x`, waits for its ACK, and uses up a credit. -/
def LinkPort.sending (x : LinkPort) (f : Flit) (y : LinkPort) : LinkPort :=
  { y with
    txSeq := (x.txSeq + 1) % 4096
    replay := x.replay ++ [{ f with
      seq := x.txSeq
      ack := (x.rxNext + 4095) % 4096 }]
    credits := x.credits.set f.tc ((x.credits[f.tc]?).getD 0 - 1) }

/-- A flit goes out and is counted. -/
def flitSent (p : Nat) (f : Flit) (y : LinkPort) (d : Dev) : Dev :=
  let d2 := (setPort p ((portOf d p).sending f y) d).count (Reg.FAB_TX_FLITS p) 1
  (if f.tc = 0 then d2.count (Reg.FAB_TC0_FLITS p) 1 else d2).emit (.flit p 0 (portOf d p).txSeq)

/-- Sending ends, or sends one flit that waits and goes on. -/
theorem flushPort_cases (k p : Nat) (d : Dev) :
    flushPort (k + 1) p d = d
    ∨ ∃ f y, y.still = (portOf d p).still ∧ flushPort (k + 1) p d = flushPort k p (flitSent p f y d) := by
  rw [flushPort]
  split
  next f r _ =>
    split
    · exact .inr ⟨f, { portOf d p with sendTc0 := r }, rfl, rfl⟩
    · split
      next g q _ =>
        split
        · exact .inr ⟨g, { portOf d p with sendBulk := q }, rfl, rfl⟩
        · exact .inl rfl
      · exact .inl rfl
  next g q _ _ =>
    split
    · exact .inr ⟨g, { portOf d p with sendBulk := q }, rfl, rfl⟩
    · exact .inl rfl
  · exact .inl rfl

theorem PortWork.flitSent (p : Nat) (f : Flit) (y : LinkPort) (d : Dev) : PortWork p d (flitSent p f y d) := by
  have put := (PortWork.setPort p ((portOf d p).sending f y) d).trans (.count p (Reg.FAB_TX_FLITS p) 1 _)
  unfold Machine.flitSent
  refine .trans ?_ (.emit p _ _)
  split
  · exact put.trans (.count p _ 1 _)
  · exact put

theorem still_flitSent {p : Nat} {y : LinkPort} {d : Dev} (h : y.still = (portOf d p).still) (f : Flit) :
    (portOf (flitSent p f y d) p).still = (portOf d p).still := by
  have put := portOf_setPort_keeps LinkPort.still (x := (portOf d p).sending f y) h p
  unfold flitSent
  split <;> simpa only [portOf_emit, portOf_count] using put

theorem PortWork.flushPort (k p : Nat) (d : Dev) : PortWork p d (flushPort k p d) := by
  induction k generalizing d with
  | zero => exact .refl p d
  | succ n ih =>
    obtain h | ⟨f, y, -, h⟩ := flushPort_cases n p d
    · rw [h]; exact .refl p d
    · rw [h]; exact (PortWork.flitSent p f y d).trans (ih _)

/-- Sending leaves all of the port but its flits, sequence and credits. -/
theorem still_flushPort (k p : Nat) (d : Dev) : (portOf (flushPort k p d) p).still = (portOf d p).still := by
  induction k generalizing d with
  | zero => rfl
  | succ n ih =>
    obtain h | ⟨f, y, hy, h⟩ := flushPort_cases n p d
    · rw [h]
    · rw [h, ih, still_flitSent hy]

theorem PortWork.flushAll (p : Nat) (d : Dev) : PortWork p d (flushAll p d) := PortWork.flushPort _ p d

theorem still_flushAll (p : Nat) (d : Dev) : (portOf (flushAll p d) p).still = (portOf d p).still := still_flushPort _ p d

/-- Nothing of the started frames waits. -/
def LinkPort.Quiet (x : LinkPort) : Prop := x.sendTc0 = [] ∧ x.sendBulk = []

theorem flushAll_quiet {p : Nat} {d : Dev} (h : (portOf d p).Quiet) : flushAll p d = d := by
  rw [flushAll, h.1, h.2]; rfl

/-! ### Flits received (R433, R438, R620) -/

/-- The device once a flit is counted with its corrections. -/
def flitHeard (p : Nat) (f : Flit) (d : Dev) : Dev :=
  let d1 := d.count (Reg.FAB_RX_FLITS p) 1
  if f.corrected = 0 then d1
  else logCorrected ecLinkLane (0x30 + p) 0xFFFF 0 false (d1.count (Reg.FAB_FEC_CORR p) f.corrected)

/-- The fields that the log entry of a corrected error of port `p` writes. -/
def correctedFields (p : Nat) : List Field := [Reg.RAS_CE, Reg.RAS_LOG_SEQ, Reg.BLK_ERR_LOG (0x30 + p)]

theorem errWrite_units (r : ErrRec) (d : Dev) :
    (errWrite r d).link = d.link ∧ (errWrite r d).stores = d.stores ∧ (errWrite r d).out = d.out := by
  simp [errWrite, Dev.stores]

/-- The log of a corrected error changes only the log and the registers. -/
theorem logCorrected_units (c g u a : Nat) (b : Bool) (d : Dev) :
    (logCorrected c g u a b d).link = d.link ∧ (logCorrected c g u a b d).stores = d.stores
    ∧ (logCorrected c g u a b d).out = d.out := by
  have stores_setRas : ∀ (x : RasSt) (e : Dev), (setRas x e).stores = e.stores := fun _ _ => rfl
  unfold logCorrected
  dsimp only
  split
  · split <;> simp [errWrite_units, stores_setRas]
  · simp [errWrite_units, stores_setRas]

theorem get_errWrite {r : ErrRec} {f : Field} (hs : f.key ≠ Reg.RAS_LOG_SEQ.key) (hl : f.key ≠ (Reg.BLK_ERR_LOG r.page).key)
    (d : Dev) : (errWrite r d).get f = d.get f := by
  rw [errWrite, get_set_other _ _ hl, get_set_other _ _ hs, get_setRas]

/-- The log of a corrected error counts in RAS_CE and changes no field but those of the log. -/
theorem get_logCorrected {f : Field} {p : Nat} (h : ∀ g ∈ correctedFields p, f.key ≠ g.key)
    (c u a : Nat) (b : Bool) (d : Dev) :
    (logCorrected c (0x30 + p) u a b d).get f = d.get f := by
  have hce := h Reg.RAS_CE (by simp [correctedFields])
  have hseq := h Reg.RAS_LOG_SEQ (by simp [correctedFields])
  have hlog := h (Reg.BLK_ERR_LOG (0x30 + p)) (by simp [correctedFields])
  have written : ∀ (r : ErrRec) (x : RasSt), r.page = 0x30 + p →
      (errWrite r (setRas x (d.count Reg.RAS_CE 1))).get f = d.get f := fun r x hr => by
    rw [get_errWrite hseq (hr ▸ hlog), get_setRas, get_count_other _ _ hce]
  unfold logCorrected
  dsimp only
  split
  · split
    · exact get_count_other _ _ hce
    · exact written _ _ rfl
  · exact written _ _ rfl

theorem flitHeard_units (p : Nat) (f : Flit) (d : Dev) :
    (flitHeard p f d).link = d.link ∧ (flitHeard p f d).stores = d.stores ∧ (flitHeard p f d).out = d.out := by
  unfold flitHeard
  dsimp only
  split
  · simp
  · obtain ⟨hlink, hstores, hout⟩ := logCorrected_units ecLinkLane (0x30 + p) 0xFFFF 0 false
      ((d.count (Reg.FAB_RX_FLITS p) 1).count (Reg.FAB_FEC_CORR p) f.corrected)
    exact ⟨hlink.trans (by simp), hstores.trans (by simp), hout.trans (by simp)⟩

theorem PortWork.flitHeard (p : Nat) (f : Flit) (d : Dev) : PortWork p d (flitHeard p f d) :=
  .of_link (flitHeard_units p f d).1 (flitHeard_units p f d).2.1 (grows_of_eq (flitHeard_units p f d).2.2)

/-- A flit received is counted once. -/
theorem flitHeard_counts (p : Nat) (f : Flit) (d : Dev) : Counts (Reg.FAB_RX_FLITS p) 1 d (flitHeard p f d) := by
  unfold flitHeard Counts
  dsimp only
  split
  · rfl
  · have clear : ∀ g ∈ correctedFields p, (Reg.FAB_RX_FLITS p).key ≠ g.key := by
      simp only [correctedFields, List.forall_mem_cons, Field.key, Reg.FAB_RX_FLITS, Reg.RAS_CE, Reg.RAS_LOG_SEQ, Reg.BLK_ERR_LOG]
      exact ⟨by omega, by omega, by omega, nofun⟩
    rw [get_logCorrected clear, get_count_other]
    simp only [Field.key, Reg.FAB_RX_FLITS, Reg.FAB_FEC_CORR]
    omega

theorem get_flitHeard {g : Field} {p : Nat}
    (h : ∀ k ∈ Reg.FAB_RX_FLITS p :: Reg.FAB_FEC_CORR p :: correctedFields p, g.key ≠ k.key)
    (f : Flit) (d : Dev) : (flitHeard p f d).get g = d.get g := by
  simp only [List.forall_mem_cons] at h
  obtain ⟨hrx, hcorr, hlog⟩ := h
  unfold flitHeard
  dsimp only
  split
  · exact get_count_other _ _ hrx
  · rw [get_logCorrected hlog, get_count_other _ _ hcorr, get_count_other _ _ hrx]

/-- A port that is put back as it is changes nothing. -/
theorem setPort_self {d : Dev} {p : Nat} (h : p < d.link.ports.length) : setPort p (portOf d p) d = d := by
  have same : d.link.ports.set p (portOf d p) = d.link.ports := by
    rw [portOf, List.getElem?_eq_getElem h, Option.getD_some, List.set_getElem_self]
  rw [setPort, same]
  rfl

/-- What an ACK leaves of the flits that wait for one (R438). -/
def LinkPort.acked (x : LinkPort) (ack : Nat) : List Flit :=
  match x.replay.findIdx? fun g => g.seq == ack with
  | some i => x.replay.drop (i + 1)
  | none => x.replay

theorem PortWork.ackPort (p ack : Nat) (d : Dev) : PortWork p d (ackPort p ack d) := by
  unfold Machine.ackPort
  dsimp only
  split
  · exact (PortWork.setPort p _ d).trans (.flushAll p _)
  · exact .refl p d

theorem still_ackPort (p ack : Nat) (d : Dev) : (portOf (ackPort p ack d) p).still = (portOf d p).still := by
  unfold ackPort
  dsimp only
  split
  · refine (still_flushAll p _).trans (portOf_setPort_keeps LinkPort.still ?_ p)
    rfl
  · rfl

/-- On a port where nothing waits to be sent, an ACK releases the flits it covers and does nothing else. -/
theorem ackPort_quiet {d : Dev} {p : Nat} (hp : p < d.link.ports.length) (h : (portOf d p).Quiet) (ack : Nat) :
    ackPort p ack d = setPort p { portOf d p with replay := (portOf d p).acked ack } d := by
  unfold ackPort LinkPort.acked
  dsimp only
  cases (portOf d p).replay.findIdx? fun g => g.seq == ack with
  | some i =>
    dsimp only
    refine flushAll_quiet ?_
    rw [portOf_setPort_same hp]
    exact h
  | none => exact (setPort_self hp).symm

/-- The device once a good flit is counted and its ACK is taken. -/
def flitTaken (p : Nat) (f : Flit) (d : Dev) : Dev := ackPort p f.ack (flitHeard p f d)

theorem PortWork.flitTaken (p : Nat) (f : Flit) (d : Dev) : PortWork p d (flitTaken p f d) :=
  (PortWork.flitHeard p f d).trans (.ackPort p f.ack _)

theorem portOf_flitHeard (p : Nat) (f : Flit) (d : Dev) (r : Nat) : portOf (flitHeard p f d) r = portOf d r :=
  portOf_of_link (flitHeard_units p f d).1 r

theorem still_flitTaken (p : Nat) (f : Flit) (d : Dev) : (portOf (flitTaken p f d) p).still = (portOf d p).still := by
  rw [flitTaken, still_ackPort, portOf_flitHeard]

section
variable {p : Nat} {f : Flit} {k : Dev → Dev} {d : Dev}

theorem portOf_flitTaken_quiet (hp : p < d.link.ports.length) (h : (portOf d p).Quiet) :
    portOf (flitTaken p f d) p = { portOf d p with replay := (portOf d p).acked f.ack } := by
  have hp' : p < (flitHeard p f d).link.ports.length := by rw [(flitHeard_units p f d).1]; exact hp
  have same := portOf_flitHeard p f d p
  rw [flitTaken, ackPort_quiet hp' (by rw [same]; exact h), portOf_setPort_same hp', same]

/-- On a port that carries no data a flit does nothing. -/
theorem flitIn_shut (h : portUp d p = false) : flitIn p f k d = d := by simp [flitIn, h]

theorem flitIn_good (h : portUp d p = true) (hf : f.fecOk = true) (hc : f.crcOk = true) :
    flitIn p f k d = k (flitTaken p f d) := by
  simp [flitIn, h, hf, hc, flitTaken, flitHeard]

/-- A flit that fails is answered with NAK for the first sequence lacking, and only counted. -/
theorem flitIn_bad (h : portUp d p = true) (hb : f.fecOk = false ∨ f.crcOk = false) :
    flitIn p f k d = (when (!f.fecOk) (fun e => e.count (Reg.FAB_FEC_UNCORR p) 1) (flitHeard p f d)).emit
      (.flit p 3 (portOf d p).rxNext) := by
  have heard := portOf_flitHeard p f d p
  cases hf : f.fecOk with
  | false =>
    simp only [Bool.not_false, when_true, ← heard]
    simp [flitIn, h, hf, sendNak, flitHeard]
  | true =>
    have hc : f.crcOk = false := hb.resolve_left (by simp [hf])
    simp only [Bool.not_true, when_false, ← heard]
    simp [flitIn, h, hf, hc, sendNak, flitHeard]

/-- What a flit does is work on its port when what it carries does. -/
theorem PortWork.flitIn (hk : ∀ e, PortWork p e (k e)) : PortWork p d (flitIn p f k d) := by
  cases hu : portUp d p with
  | false => rw [flitIn_shut hu]; exact .refl p d
  | true =>
    by_cases hb : f.fecOk = false ∨ f.crcOk = false
    · rw [flitIn_bad hu hb]
      refine .trans ((PortWork.flitHeard p f d).trans ?_) (.emit p _ _)
      cases f.fecOk
      · exact .count p _ 1 _
      · exact .refl p _
    · simp only [not_or, Bool.not_eq_false] at hb
      rw [flitIn_good hu hb.1 hb.2]
      exact (PortWork.flitTaken p f d).trans (hk _)

end

/-! ### A port that goes DOWN (R436, R463) -/

/-- A port whose queued and unacknowledged frames are discarded. -/
def LinkPort.emptied (x : LinkPort) : LinkPort :=
  { x with
    replay := []
    sendTc0 := []
    sendBulk := []
    egress := x.egress.map fun e => { e with
      frames := []
      waited := false }
    inject := []
    held := []
    assembly := []
    assembled := []
    calLane := none
    freeAt := 0
    curTc := 0
    curOver := false }

theorem emptied_frames (x : LinkPort) (c : Nat) : (egressOf x.emptied c).frames = [] := by
  simp only [egressOf, LinkPort.emptied, List.getElem?_map]
  cases x.egress[c]? <;> rfl

/-- The registers of a port's state are no map words and follow no other state. -/
theorem portStatus_plain {p : Nat} (hp : p < 16) :
    ∀ f ∈ [Reg.PORT_STATE p, Reg.DOWN_REASON p, Reg.LANE_ACTIVE p], follows f = false ∧ f.key % 64 ≠ 0 := by
  have all : ∀ p < 16, ∀ f ∈ [Reg.PORT_STATE p, Reg.DOWN_REASON p, Reg.LANE_ACTIVE p],
      follows f = false ∧ f.key % 64 ≠ 0 := by decide
  exact all p hp

theorem get_end_status {p : Nat} (hp : p < 16) {f : Field} (hf : f ∈ [Reg.PORT_STATE p, Reg.DOWN_REASON p, Reg.LANE_ACTIVE p])
    (o e : Dev) : (settle o (peersRecheck e)).get f = e.get f := by
  obtain ⟨plain, place⟩ := portStatus_plain hp f hf
  exact get_end o plain (clearOfMaps_of_key (.inl place) e)

theorem PortWork.portDown (p reason : Nat) (d : Dev) : PortWork p d (portDown p reason d) := by
  unfold Machine.portDown dropFrames
  refine .trans ?_ (.peersRecheck p _)
  exact ((((PortWork.onPort p _ d).trans (.onPort p _ _)).trans (.set p _ _ _)).trans (.set p _ _ _)).trans (.set p _ _ _)

theorem portOf_portDown {d : Dev} {p : Nat} (hp : p < d.link.ports.length) (reason : Nat) :
    portOf (portDown p reason d) p = { (portOf d p).emptied with downAt := d.clock } := by
  have dropped : portOf (dropFrames p d) p = (portOf d p).emptied := portOf_setPort_same hp _
  have put := portOf_setPort_same (d := dropFrames p d) (p := p) (by simpa [dropFrames, onPort, setPort] using hp)
    { portOf (dropFrames p d) p with downAt := d.clock }
  rw [dropped] at put
  exact (portOf_of_link (peersRecheck_units _).1 p).trans (by rw [portOf_set, portOf_set, portOf_set, onPort, dropped, put])

theorem get_portDown {p : Nat} (hp : p < 16) {reason : Nat} (hr : reason < 8) (d : Dev) :
    (portDown p reason d).get (Reg.PORT_STATE p) = 4 ∧ (portDown p reason d).get (Reg.DOWN_REASON p) = reason
    ∧ (portDown p reason d).get (Reg.LANE_ACTIVE p) = 0 := by
  have kept : ∀ f ∈ [Reg.PORT_STATE p, Reg.DOWN_REASON p, Reg.LANE_ACTIVE p], ∀ e : Dev, (peersRecheck e).get f = e.get f :=
    fun f hf e => get_peersRecheck (portStatus_plain hp f hf).1 (clearOfMaps_of_key (.inl (portStatus_plain hp f hf).2) e)
  have apart : (Reg.PORT_STATE p).key ≠ (Reg.DOWN_REASON p).key ∧ (Reg.PORT_STATE p).key ≠ (Reg.LANE_ACTIVE p).key
      ∧ (Reg.DOWN_REASON p).key ≠ (Reg.LANE_ACTIVE p).key := by
    simp only [Field.key, Reg.PORT_STATE, Reg.DOWN_REASON, Reg.LANE_ACTIVE]
    omega
  unfold portDown
  simp only [kept _ (List.mem_cons_self ..), kept _ (List.mem_cons_of_mem _ (List.mem_cons_self ..)),
    kept _ (List.mem_cons_of_mem _ (List.mem_cons_of_mem _ (List.mem_cons_self ..)))]
  rw [get_set_other _ _ apart.2.1, get_set_other _ _ apart.1, get_set_other _ _ apart.2.2]
  simp only [get_set_same]
  exact ⟨rfl, Nat.mod_eq_of_lt hr, rfl⟩

/-! ### What each flit carries (R432, R434, R438, R439, R441, R446) -/

/-- The frame of its class with a data flit in sequence, begun anew by a FIRST flit. -/
def LinkPort.frameWith (f : Flit) (x : LinkPort) : Assembly :=
  let a := ((if f.first then none else assocGet x.assembly f.tc)).getD ⟨f.keySlot, []⟩
  { a with parts := a.parts ++ [(f.seq, f.bytes)] }

/-- The port once a data flit in sequence has joined the frame of its class. -/
def LinkPort.joined (f : Flit) (x : LinkPort) : LinkPort :=
  let y := { x with
    rxNext := (x.rxNext + 1) % 4096
    owed := x.owed.set f.tc ((x.owed[f.tc]?).getD 0 + 1) }
  if f.last then { y with
      assembly := y.assembly.filter fun z => z.1 != f.tc
      assembled := y.assembled ++ [⟨f.tc, (x.frameWith f).parts.map (·.1)⟩] }
    else { y with assembly := assocSet y.assembly f.tc (x.frameWith f) }

/-- A data flit joins its frame, is answered with NAK, or is dropped. -/
def joinFlit (p : Nat) (f : Flit) (e : Dev) : Dev :=
  if f.seq ≠ (portOf e p).rxNext then
    if (f.seq + 4096 - (portOf e p).rxNext) % 4096 < 2048 then sendNak p e else e
  else setPort p ((portOf e p).joined f) e

theorem dataFlitRx_eq (p : Nat) (f : Flit) : dataFlitRx p f = flitIn p f (joinFlit p f) := by
  unfold dataFlitRx joinFlit LinkPort.joined LinkPort.frameWith
  funext d
  congr 1
  funext e
  dsimp only
  cases (if f.first = true then none else assocGet (portOf e p).assembly f.tc) <;> rfl

/-- Credits come back, up to each class's buffer. -/
def creditFlit (p : Nat) (f : Flit) (e : Dev) : Dev :=
  flushAll p (onPort p (fun x => { x with
    credits := x.credits.mapIdx fun c v => min (bufferFlits c) (v + fieldAt f.bytes (2 * c) 2) }) e)

/-- How often in a row NAK has named sequence `n`, this time included. -/
def LinkPort.nakCount (n : Nat) (x : LinkPort) : Nat := if x.nakRun ≠ 0 ∧ x.nakSeq = n then x.nakRun + 1 else 1

/-- The flits from the sequence named go out again, or the port goes DOWN. -/
def nakFlit (p : Nat) (f : Flit) (e : Dev) : Dev :=
  let x := portOf e p
  let n := fieldAt f.bytes 0 2 % 4096
  let e1 := setPort p { x with
    nakSeq := n
    nakRun := x.nakCount n } e
  if 8 ≤ x.nakCount n then portDown p 5 e1
  else
    let again := x.replay.dropWhile fun g => g.seq != n
    ((e1.count (Reg.FAB_RETRY p) 1).count (Reg.FAB_TX_FLITS p) again.length).emits (again.map fun g => Out.flit p 0 g.seq)

/-- The sender's salt is new, and its frame counter starts again. -/
def saltFlit (p : Nat) (f : Flit) (e : Dev) : Dev :=
  onPort p (fun x => { x with
    rxSalt := fieldAt f.bytes 0 8
    rxCount := 0 }) e

theorem PortWork.joinFlit (p : Nat) (f : Flit) (e : Dev) : PortWork p e (joinFlit p f e) := by
  unfold Machine.joinFlit
  split
  · split
    · exact .emit p _ e
    · exact .refl p e
  · exact .setPort p _ e

theorem PortWork.creditFlit (p : Nat) (f : Flit) (e : Dev) : PortWork p e (creditFlit p f e) :=
  (PortWork.onPort p _ e).trans (.flushAll p _)

theorem PortWork.nakFlit (p : Nat) (f : Flit) (e : Dev) : PortWork p e (nakFlit p f e) := by
  unfold Machine.nakFlit
  dsimp only
  split
  · exact (PortWork.setPort p _ e).trans (.portDown p 5 _)
  · exact (((PortWork.setPort p _ e).trans (.count p _ 1 _)).trans (.count p _ _ _)).trans (.emits p _ _)

theorem PortWork.saltFlit (p : Nat) (f : Flit) (e : Dev) : PortWork p e (saltFlit p f e) := .onPort p _ e

/-- The five rows of flits (R432). -/
def flitRows (p : Nat) (f : Flit) : List Instr :=
  [.dataFlitRx p f, .idleFlitRx p f, .creditFlitRx p f, .nakFlitRx p f, .saltFlitRx p f]

/-- Each row takes a flit in, and then works on its own port. -/
theorem exec_flitRows {p : Nat} {f : Flit} {i : Instr} (h : i ∈ flitRows p f) :
    ∃ k, (∀ e, PortWork p e (k e)) ∧ ∀ s, exec i s = s.run (portRow p (flitIn p f k)) := by
  simp only [flitRows, List.mem_cons, List.not_mem_nil, or_false] at h
  rcases h with rfl | rfl | rfl | rfl | rfl
  · exact ⟨joinFlit p f, PortWork.joinFlit p f, fun s => by rw [← dataFlitRx_eq]; rfl⟩
  · exact ⟨fun e => e, PortWork.refl p, fun _ => rfl⟩
  · exact ⟨creditFlit p f, PortWork.creditFlit p f, fun _ => rfl⟩
  · exact ⟨nakFlit p f, PortWork.nakFlit p f, fun _ => rfl⟩
  · exact ⟨saltFlit p f, PortWork.saltFlit p f, fun _ => rfl⟩

/-! ### The port after a good flit -/

section
variable {p : Nat} {f : Flit} {e : Dev}

theorem joinFlit_inSequence (hp : p < e.link.ports.length) (h : f.seq = (portOf e p).rxNext) :
    portOf (joinFlit p f e) p = (portOf e p).joined f := by
  rw [joinFlit, if_neg (not_not_intro h), portOf_setPort_same hp]

theorem joinFlit_ahead (h : f.seq ≠ (portOf e p).rxNext) (ha : (f.seq + 4096 - (portOf e p).rxNext) % 4096 < 2048) :
    joinFlit p f e = e.emit (.flit p 3 (portOf e p).rxNext) := by
  rw [joinFlit, if_pos h, if_pos ha, sendNak]

theorem joined_rxNext (x : LinkPort) : (x.joined f).rxNext = (x.rxNext + 1) % 4096 := by
  unfold LinkPort.joined; dsimp only; split <;> rfl

/-- Each data flit taken owes the peer one credit of its class (R441). -/
theorem joined_owed {x : LinkPort} (hf : f.tc < 8) (hx : x.owed.length = 8) :
    ((x.joined f).owed[f.tc]?).getD 0 = (x.owed[f.tc]?).getD 0 + 1 := by
  have owed : (x.joined f).owed = x.owed.set f.tc ((x.owed[f.tc]?).getD 0 + 1) := by
    unfold LinkPort.joined; dsimp only; split <;> rfl
  rw [owed, List.getElem?_set_self (by omega), Option.getD_some]

/-- A flit that is FIRST and LAST is a whole frame. -/
theorem joined_whole {x : LinkPort} (hl : f.last = true) (hf : f.first = true) :
    (x.joined f).assembled = x.assembled ++ [⟨f.tc, [f.seq]⟩] := by
  simp [LinkPort.joined, LinkPort.frameWith, hl, hf]

theorem assocGet_assocSet_same {α : Type} (l : List (Nat × α)) (k : Nat) (v : α) : assocGet (assocSet l k v) k = some v := by
  induction l with
  | nil => simp [assocSet, assocGet]
  | cons x r ih =>
    unfold assocSet
    split
    · simp [assocGet]
    next h => simp only [assocGet, if_neg h, ih]

/-- Before the LAST flit the frame is kept with the flit in it. -/
theorem joined_part {x : LinkPort} (hl : f.last = false) :
    (x.joined f).assembled = x.assembled ∧ assocGet (x.joined f).assembly f.tc = some (x.frameWith f)
    ∧ (f.seq, f.bytes) ∈ (x.frameWith f).parts := by
  simp [LinkPort.joined, hl, assocGet_assocSet_same, LinkPort.frameWith]

theorem portOf_creditFlit (hp : p < e.link.ports.length) (hq : (portOf e p).Quiet) :
    (portOf (creditFlit p f e) p).credits =
      (portOf e p).credits.mapIdx fun c v => min (bufferFlits c) (v + fieldAt f.bytes (2 * c) 2) := by
  have put := portOf_setPort_same hp { portOf e p with
    credits := (portOf e p).credits.mapIdx fun c v => min (bufferFlits c) (v + fieldAt f.bytes (2 * c) 2) }
  rw [creditFlit, flushAll_quiet, onPort, put]
  rw [onPort, put]
  exact hq

theorem nakFlit_again (hp : p < e.link.ports.length) (h : (portOf e p).nakCount (fieldAt f.bytes 0 2 % 4096) < 8) :
    portOf (nakFlit p f e) p = { portOf e p with
      nakSeq := fieldAt f.bytes 0 2 % 4096
      nakRun := (portOf e p).nakCount (fieldAt f.bytes 0 2 % 4096) } := by
  unfold nakFlit
  dsimp only
  rw [if_neg (Nat.not_le_of_lt h), portOf_emits, portOf_count, portOf_count, portOf_setPort_same hp]

theorem sent_nakFlit (h : (portOf e p).nakCount (fieldAt f.bytes 0 2 % 4096) < 8) :
    ∀ g ∈ (portOf e p).replay.dropWhile (fun g => g.seq != fieldAt f.bytes 0 2 % 4096),
      Sent (.flit p 0 g.seq) e (nakFlit p f e) := by
  intro g hg
  unfold nakFlit
  dsimp only
  rw [if_neg (Nat.not_le_of_lt h)]
  exact ⟨((portOf e p).replay.dropWhile fun g => g.seq != fieldAt f.bytes 0 2 % 4096).map fun g => .flit p 0 g.seq,
    by simp [setPort], List.mem_map.mpr ⟨g, hg, rfl⟩⟩

end

/-! ### What a flit leaves when the device has settled -/

theorem counters_plain {p : Nat} (hp : p < 16) :
    ∀ f ∈ [Reg.FAB_RX_FLITS p, Reg.FAB_FEC_UNCORR p], follows f = false ∧ f.key < 2097152 := by
  have all : ∀ p < 16, ∀ f ∈ [Reg.FAB_RX_FLITS p, Reg.FAB_FEC_UNCORR p], follows f = false ∧ f.key < 2097152 := by decide
  exact all p hp

theorem get_end_counter {p : Nat} (hp : p < 16) {f : Field} (hf : f ∈ [Reg.FAB_RX_FLITS p, Reg.FAB_FEC_UNCORR p])
    (o e : Dev) : (settle o (peersRecheck e)).get f = e.get f :=
  get_end o (counters_plain hp f hf).1 (clearOfMaps_of_key (.inr (counters_plain hp f hf).2) e)

/-- A flit that fails is counted, and so is one that FEC could not mend (R433). -/
theorem failed_counts {p : Nat} (f : Flit) (d : Dev) :
    let e := when (!f.fecOk) (fun e => e.count (Reg.FAB_FEC_UNCORR p) 1) (flitHeard p f d)
    Counts (Reg.FAB_RX_FLITS p) 1 d e ∧ (f.fecOk = false → Counts (Reg.FAB_FEC_UNCORR p) 1 d e) := by
  have apart : (Reg.FAB_RX_FLITS p).key ≠ (Reg.FAB_FEC_UNCORR p).key := by
    simp only [Field.key, Reg.FAB_RX_FLITS, Reg.FAB_FEC_UNCORR]; omega
  have clear : ∀ g ∈ [Reg.FAB_FEC_UNCORR p, Reg.CNT_FREEZE (Reg.FAB_FEC_UNCORR p).page],
      ∀ k ∈ Reg.FAB_RX_FLITS p :: Reg.FAB_FEC_CORR p :: correctedFields p, g.key ≠ k.key := by
    simp only [correctedFields, List.forall_mem_cons, Field.key, Reg.FAB_FEC_UNCORR, Reg.FAB_RX_FLITS, Reg.FAB_FEC_CORR,
      Reg.RAS_CE, Reg.RAS_LOG_SEQ, Reg.BLK_ERR_LOG, Reg.CNT_FREEZE]
    exact ⟨⟨by omega, by omega, by omega, by omega, by omega, nofun⟩,
      ⟨by omega, by omega, by omega, by omega, by omega, nofun⟩, nofun⟩
  have kept := fun {g : Field} hg => get_flitHeard (clear g hg) f d
  cases hf : f.fecOk with
  | true => exact ⟨flitHeard_counts p f d, nofun⟩
  | false =>
    refine ⟨(get_count_other _ _ apart).trans (flitHeard_counts p f d), fun _ => ?_⟩
    exact get_count_congr 1 (kept (by simp)) (kept (by simp))

section
variable {s : State} {p : Nat} {f : Flit} {k : Dev → Dev} {i : Instr}

/-- A good flit on a port that carries data does what it carries, and the device settles. -/
theorem gives_flit_good (h : ∀ s, exec i s = s.run (portRow p (flitIn p f k))) (hp : p < 16) (hu : portUp s.dev p = true)
    (hf : f.fecOk = true) (hc : f.crcOk = true) {P : Dev → Prop}
    (hP : P (settle s.dev (peersRecheck (k (flitTaken p f s.dev))))) : Gives i s P :=
  gives_of_portRow (h s) hp (by rw [flitIn_good hu hf hc]; exact hP)

/-- A flit that fails is answered with NAK and changes nothing of any port (R433, R438). -/
theorem gives_flit_bad (h : ∀ s, exec i s = s.run (portRow p (flitIn p f k))) (hp : p < 16) (hu : portUp s.dev p = true)
    (hb : f.fecOk = false ∨ f.crcOk = false) : Gives i s fun t => t.link = s.dev.link
      ∧ Sent (.flit p 3 (portOf s.dev p).rxNext) s.dev t ∧ Counts (Reg.FAB_RX_FLITS p) 1 s.dev t
      ∧ (f.fecOk = false → Counts (Reg.FAB_FEC_UNCORR p) 1 s.dev t) := by
  refine gives_of_portRow (h s) hp ?_
  rw [flitIn_bad hu hb]
  obtain ⟨counted, uncorrected⟩ := failed_counts (p := p) f s.dev
  obtain ⟨hlink, -, hout⟩ := flitHeard_units p f s.dev
  have silent : ∀ e : Dev, (when (!f.fecOk) (fun e => e.count (Reg.FAB_FEC_UNCORR p) 1) e).link = e.link
      ∧ (when (!f.fecOk) (fun e => e.count (Reg.FAB_FEC_UNCORR p) 1) e).out = e.out := fun e => by cases f.fecOk <;> simp
  refine ⟨?_, ?_, ?_, fun hf => ?_⟩
  · simp only [settle_units, peersRecheck_units, emit_units, silent, hlink]
  · refine sent_settle s.dev (sent_grows (grows_sent (grows_of_eq ?_) (sent_emit _ _)) (grows_peersRecheck _))
    rw [(silent _).2, hout]
  · exact (get_end_counter hp (by simp) _ _).trans counted
  · exact (get_end_counter hp (by simp) _ _).trans (uncorrected hf)

end

/-- What sending leaves alone is the same of two ports that agree but for what waits to be sent. -/
theorem eq_of_still {β : Type} {x y : LinkPort} (h : x.still = y.still) (g : LinkPort → β)
    (hg : ∀ z : LinkPort, g z.still = g z) : g x = g y := by rw [← hg x, h, hg]

/-- The port after a good flit, but for what waits to be sent, is the port before. -/
theorem taken_port (p : Nat) (f : Flit) (d : Dev) :
    (portOf (flitTaken p f d) p).rxNext = (portOf d p).rxNext ∧ (portOf (flitTaken p f d) p).owed = (portOf d p).owed
    ∧ (portOf (flitTaken p f d) p).assembled = (portOf d p).assembled
    ∧ (portOf (flitTaken p f d) p).assembly = (portOf d p).assembly
    ∧ ∀ n, (portOf (flitTaken p f d) p).nakCount n = (portOf d p).nakCount n := by
  have same := fun {β : Type} => eq_of_still (β := β) (still_flitTaken p f d)
  exact ⟨same (·.rxNext) fun _ => rfl, same (·.owed) fun _ => rfl, same (·.assembled) fun _ => rfl,
    same (·.assembly) fun _ => rfl, fun n => same (·.nakCount n) fun _ => rfl⟩

/-- On a port where nothing waits, a good flit leaves the state of the port alone. -/
theorem get_taken_state {p : Nat} {f : Flit} {d : Dev} (hp : p < d.link.ports.length) (hq : (portOf d p).Quiet) :
    (flitTaken p f d).get (Reg.PORT_STATE p) = d.get (Reg.PORT_STATE p) := by
  have hp' : p < (flitHeard p f d).link.ports.length := by rw [(flitHeard_units p f d).1]; exact hp
  have clear : ∀ k ∈ Reg.FAB_RX_FLITS p :: Reg.FAB_FEC_CORR p :: correctedFields p, (Reg.PORT_STATE p).key ≠ k.key := by
    simp only [correctedFields, List.forall_mem_cons, Field.key, Reg.PORT_STATE, Reg.FAB_RX_FLITS, Reg.FAB_FEC_CORR, Reg.RAS_CE,
      Reg.RAS_LOG_SEQ, Reg.BLK_ERR_LOG]
    exact ⟨by omega, by omega, by omega, by omega, by omega, nofun⟩
  rw [flitTaken, ackPort_quiet hp' (by rw [portOf_flitHeard]; exact hq)]
  exact get_flitHeard clear f d

theorem get_nakFlit_state {p : Nat} {f : Flit} {e : Dev} (h : (portOf e p).nakCount (fieldAt f.bytes 0 2 % 4096) < 8) :
    (nakFlit p f e).get (Reg.PORT_STATE p) = e.get (Reg.PORT_STATE p) := by
  have apart : (Reg.PORT_STATE p).key ≠ (Reg.FAB_TX_FLITS p).key ∧ (Reg.PORT_STATE p).key ≠ (Reg.FAB_RETRY p).key := by
    simp only [Field.key, Reg.PORT_STATE, Reg.FAB_TX_FLITS, Reg.FAB_RETRY]; omega
  unfold nakFlit
  dsimp only
  rw [if_neg (Nat.not_le_of_lt h), get_emits, get_count_other _ _ apart.1, get_count_other _ _ apart.2]
  rfl

/-- The eighth NAK in a row of one sequence takes the port DOWN with RETRY_LIMIT and discards its frames (R439, R463). -/
theorem nakFlit_limit {p : Nat} {f : Flit} {e : Dev} (hp : p < 16) (hl : p < e.link.ports.length)
    (h : 8 ≤ (portOf e p).nakCount (fieldAt f.bytes 0 2 % 4096)) :
    (nakFlit p f e).get (Reg.PORT_STATE p) = 4 ∧ (nakFlit p f e).get (Reg.DOWN_REASON p) = 5
    ∧ (nakFlit p f e).get (Reg.LANE_ACTIVE p) = 0 ∧ (portOf (nakFlit p f e) p).replay = []
    ∧ (portOf (nakFlit p f e) p).inject = [] ∧ ∀ c, (egressOf (portOf (nakFlit p f e) p) c).frames = [] := by
  have size : ∀ x, p < (setPort p x e).link.ports.length := fun x => by simpa [setPort] using hl
  unfold nakFlit
  dsimp only
  rw [if_pos h, portOf_portDown (size _)]
  obtain ⟨state, reason, lanes⟩ := get_portDown hp (reason := 5) (by omega) (setPort p { portOf e p with
    nakSeq := fieldAt f.bytes 0 2 % 4096
    nakRun := (portOf e p).nakCount (fieldAt f.bytes 0 2 % 4096) } e)
  exact ⟨state, reason, lanes, rfl, rfl, emptied_frames _⟩

/-- Settles O39: a flit does nothing on a port without data, fails, or is good and does what it carries. -/
theorem flits : Obligations.Flits := by
  intro s p f hp hlen htc d x rows others quiet acked
  have hl : p < s.dev.link.ports.length := by omega
  have hlt : p < (flitTaken p f s.dev).link.ports.length := by rw [(PortWork.flitTaken p f s.dev).size]; exact hl
  obtain ⟨hnext, howed, hassembled, hassembly, hnak⟩ := taken_port p f s.dev
  have hquiet : quiet → portOf (flitTaken p f d) p = { x with replay := acked } := portOf_flitTaken_quiet hl
  have row : ∀ i ∈ rows, ∃ k, (∀ e, PortWork p e (k e)) ∧ ∀ s, exec i s = s.run (portRow p (flitIn p f k)) := fun _ =>
    exec_flitRows
  have data : ∀ s, exec (.dataFlitRx p f) s = s.run (portRow p (flitIn p f (joinFlit p f))) := fun s => by
    rw [← dataFlitRx_eq]; rfl
  refine ⟨fun i hi => ?others, fun hu i hi => ?shut, fun hu hb i hi => ?bad, fun hu hf hc => ⟨fun hs => ?next,
    fun _ _ hs ha => ?ahead, fun hq => ?idle, fun hq c hc8 hcred => ?credit, ?salt, fun hr hq => ?again, fun hr => ?limit⟩⟩
  case others =>
    obtain ⟨k, hk, hi⟩ := row i hi
    refine gives_of_portRow (hi s) hp ?_
    obtain ⟨hothers, -, hstores, -⟩ := (PortWork.flitIn (f := f) (d := s.dev) hk).settled s.dev
    simp only [Dev.stores, Prod.mk.injEq] at hstores
    obtain ⟨hsess, hmem, htier, -⟩ := hstores
    exact ⟨hothers, hmem, hsess, htier⟩
  case shut =>
    obtain ⟨k, -, hi⟩ := row i hi
    refine gives_of_portRow (hi s) hp ?_
    rw [flitIn_shut hu]
    simp only [settle_units, peersRecheck_units, d]
  case bad =>
    obtain ⟨k, -, hi⟩ := row i hi
    exact gives_flit_bad hi hp hu hb
  case next =>
    refine gives_flit_good data hp hu hf hc ?_
    simp only [portOf_end, joinFlit_inSequence hlt (hs.trans hnext.symm), joined_rxNext, hnext]
    refine ⟨rfl, fun h8 => ?_, fun hlast hfirst => ?_, fun hlast => ?_⟩
    · rw [joined_owed htc (by rw [howed]; exact h8), howed]
    · rw [joined_whole hlast hfirst, hassembled]
    · obtain ⟨kept, frame, part⟩ := joined_part (f := f) (x := portOf (flitTaken p f s.dev) p) hlast
      exact ⟨kept.trans hassembled, _, frame, part⟩
  case ahead =>
    refine gives_flit_good data hp hu hf hc ?_
    have hs' : f.seq ≠ (portOf (flitTaken p f s.dev) p).rxNext := by rw [hnext]; exact hs
    simp only [portOf_end, joinFlit_ahead hs' (by rw [hnext]; exact ha), portOf_emit]
    refine ⟨hnext, hassembled, hassembly, sent_settle _ (sent_grows ?_ (grows_peersRecheck _))⟩
    rw [hnext]
    exact grows_sent (PortWork.flitTaken p f s.dev).sent (sent_emit _ _)
  case idle =>
    refine gives_flit_good (k := fun e => e) (fun _ => rfl) hp hu hf hc ?_
    simp only [portOf_end]
    exact ⟨by rw [hquiet hq], hnext, hassembled⟩
  case credit =>
    refine gives_flit_good (k := creditFlit p f) (fun _ => rfl) hp hu hf hc ?_
    have quiet_still : (portOf (flitTaken p f s.dev) p).Quiet := by rw [hquiet hq]; exact hq
    have held : (portOf (flitTaken p f s.dev) p).credits = x.credits := by rw [hquiet hq]
    simp only [portOf_end, portOf_creditFlit hlt quiet_still, held, List.getElem?_mapIdx,
      List.getElem?_eq_getElem (show c < x.credits.length by omega), Option.map_some, Option.getD_some, bufferFlits]
  case salt =>
    refine gives_flit_good (k := saltFlit p f) (fun _ => rfl) hp hu hf hc ?_
    simp only [portOf_end, saltFlit, onPort, portOf_setPort_same hlt, and_self]
  case again =>
    refine gives_flit_good (k := nakFlit p f) (fun _ => rfl) hp hu hf hc ?_
    have few : (portOf (flitTaken p f s.dev) p).nakCount (fieldAt f.bytes 0 2 % 4096) < 8 := by rw [hnak]; exact hr
    have port := nakFlit_again hlt few
    rw [hnak, hquiet hq] at port
    have sent := sent_nakFlit few
    rw [hquiet hq] at sent
    simp only [portOf_end, port, get_end_status hp (List.mem_cons_self ..), get_nakFlit_state few]
    refine ⟨fun g hg => ?_, trivial, rfl, trivial, get_taken_state hl hq⟩
    exact sent_settle _ (sent_grows (grows_sent (PortWork.flitTaken p f s.dev).sent (sent g hg)) (grows_peersRecheck _))
  case limit =>
    refine gives_flit_good (k := nakFlit p f) (fun _ => rfl) hp hu hf hc ?_
    have many : 8 ≤ (portOf (flitTaken p f s.dev) p).nakCount (fieldAt f.bytes 0 2 % 4096) := by rw [hnak]; exact hr
    have ends := fun {g : Field} (hg : g ∈ [Reg.PORT_STATE p, Reg.DOWN_REASON p, Reg.LANE_ACTIVE p]) =>
      get_end_status hp hg s.dev (nakFlit p f (flitTaken p f s.dev))
    simp only [portOf_end, ends (List.mem_cons_self ..), ends (List.mem_cons_of_mem _ (List.mem_cons_self ..)),
      ends (List.mem_cons_of_mem _ (List.mem_cons_of_mem _ (List.mem_cons_self ..)))]
    exact nakFlit_limit hp hlt many

/-! ### A port that carries data -/

/-- The device after reset, with port 0 in UP. -/
def portZeroUp : State := { State.reset with dev := Dev.reset.set (Reg.PORT_STATE 0) psUp }

/-- Flit `n` of class 1, a whole frame of one byte. -/
def wholeFlit (n : Nat) : Flit :=
  { fecOk := true, corrected := 0, seq := n, ack := 0, tc := 1, first := true, last := true, keySlot := 0, lastBytes := 1
    crcOk := true, bytes := [0] }

/-- Flit 0 is the one wanted: it is a frame of its own, and flit 1 is wanted next. -/
theorem portZeroUp_next : Gives (.dataFlitRx 0 (wholeFlit 0)) portZeroUp fun t =>
    (portOf t 0).rxNext = 1 ∧ (portOf t 0).assembled = [⟨1, [0]⟩] := by
  obtain ⟨-, -, -, good⟩ := flits portZeroUp 0 (wholeFlit 0) (by decide) rfl (by decide)
  obtain ⟨next, -⟩ := good (by decide) rfl rfl
  obtain ⟨t, answered, queue, wanted, -, whole, -⟩ := next rfl
  exact ⟨t, answered, queue, wanted, whole rfl rfl⟩

/-- Flit 1 comes too soon: NAK names flit 0. -/
theorem portZeroUp_gap : Gives (.dataFlitRx 0 (wholeFlit 1)) portZeroUp fun t =>
    (portOf t 0).rxNext = 0 ∧ Sent (.flit 0 3 0) portZeroUp.dev t := by
  obtain ⟨-, -, -, good⟩ := flits portZeroUp 0 (wholeFlit 1) (by decide) rfl (by decide)
  obtain ⟨-, ahead, -⟩ := good (by decide) rfl rfl
  obtain ⟨t, answered, queue, wanted, -, -, nak⟩ := ahead (by decide) (by decide) (by decide) (by decide)
  exact ⟨t, answered, queue, wanted, nak⟩

end Sys2Proof.Machine
end

section
/-! PROOFS. The frame that a port starts and the refill of its buckets (spec/13): what the scheduler looks at, which class it selects,
what the start of a frame changes, and the statement about them. -/

namespace Sys2Proof.Machine

open Sys2Proof

/-! ### Transactions handed to the ports -/

/-- The transaction of an output that hands one to the ports (R402). -/
def Out.txn? (o : Out) : Option FabTxn :=
  match o with
  | .txn q => some q
  | _ => none

/-- The transactions that the device has handed to the ports. -/
def Dev.txns (d : Dev) : List FabTxn := d.out.filterMap Out.txn?

/-- Nothing sent since `d` is a transaction when the transactions are those of `d`. -/
theorem no_txn_since {d t : Dev} (hg : Grows d t) (ht : t.txns = d.txns) (q : FabTxn) :
    Out.txn q ∉ t.out.drop d.out.length := by
  obtain ⟨l, hl⟩ := hg
  have none_new : l.filterMap Out.txn? = [] := by
    rw [Dev.txns, hl, List.filterMap_append] at ht
    exact List.append_right_eq_self.mp ht
  rw [hl, List.drop_left]
  intro hq
  have := List.filterMap_eq_nil_iff.mp none_new _ hq
  simp [Out.txn?] at this

@[simp] theorem txns_set (f : Field) (v : Nat) (d : Dev) : (d.set f v).txns = d.txns := rfl
@[simp] theorem txns_raise (p i : Nat) (d : Dev) : (d.raise p i).txns = d.txns := rfl
@[simp] theorem txns_setPort (p : Nat) (x : LinkPort) (d : Dev) : (setPort p x d).txns = d.txns := rfl
@[simp] theorem txns_onPort (p : Nat) (f : LinkPort → LinkPort) (d : Dev) : (onPort p f d).txns = d.txns := rfl
@[simp] theorem txns_setPeer (m : Nat) (st : PeerState) (d : Dev) : (setPeer m st d).txns = d.txns := rfl

@[simp] theorem txns_count (f : Field) (n : Nat) (d : Dev) : (d.count f n).txns = d.txns := by
  unfold Dev.txns; simp

theorem txns_emit {o : Out} (h : Out.txn? o = none) (d : Dev) : (d.emit o).txns = d.txns := by
  simp [Dev.txns, h]

@[simp] theorem txns_when {f : Dev → Dev} (h : ∀ d, (f d).txns = d.txns) (b : Bool) (d : Dev) : (when b f d).txns = d.txns :=
  when_keeps Dev.txns f h b d

@[simp] theorem txns_forAll {α : Type} {f : α → Dev → Dev} (h : ∀ x d, (f x d).txns = d.txns) (l : List α) (d : Dev) :
    (forAll l f d).txns = d.txns := forAll_keeps Dev.txns f h l d

@[simp] theorem txns_sendMsix (s v : Nat) (d : Dev) : (sendMsix s v d).txns = d.txns := by
  unfold sendMsix; dsimp only; split
  · split
    · exact txns_emit rfl _
    · rfl
  · exact txns_emit rfl _

@[simp] theorem txns_eventWrite (r : Ring) (b : Bytes) (d : Dev) : (eventWrite r b d).txns = d.txns := by
  simp only [eventWrite]; split
  · rw [txns_sendMsix, txns_emit rfl]; rfl
  · rw [txns_emit rfl]; rfl

@[simp] theorem txns_postEvent (s r c x i n t : Nat) (d : Dev) : (postEvent s r c x i n t d).txns = d.txns := by
  unfold postEvent; split
  · split <;> simp
  · split
    · rw [txns_count]; rfl
    · exact txns_eventWrite _ _ _

@[simp] theorem txns_postAdmins (e : Option Nat) (c x : Nat) (d : Dev) : (postAdmins e c x d).txns = d.txns := by
  simp [postAdmins]

@[simp] theorem txns_keyStep (d : Dev) : (keyStep d).txns = d.txns := by
  refine txns_forAll (fun p e => ?_) _ d
  dsimp only
  split <;> simp

@[simp] theorem txns_keyMeasure (o d : Dev) : (keyMeasure o d).txns = d.txns := by
  unfold keyMeasure extendMr; split
  · rw [txns_count, txns_set]
  · rfl

@[simp] theorem txns_deficitStep (d : Dev) : (deficitStep d).txns = d.txns := by
  unfold deficitStep; dsimp only; split
  · simp
  · split <;> simp

@[simp] theorem txns_derivedStep (d : Dev) : (derivedStep d).txns = d.txns := by
  unfold derivedStep; dsimp only
  rw [txns_when fun e => txns_raise 3 3 e, txns_when fun e => txns_raise 0x80 2 e, txns_set, txns_set]

@[simp] theorem txns_modeStep (d : Dev) : (modeStep d).txns = d.txns := by
  unfold modeStep; dsimp only
  rw [txns_when fun e => txns_raise 0 0 e]
  exact txns_forAll (fun c e => txns_set _ _ e) _ d

@[simp] theorem txns_intStep (o d : Dev) : (intStep o d).txns = d.txns := by
  unfold intStep; dsimp only
  rw [txns_when fun e => txns_emit rfl e]
  exact txns_forAll (fun _ e => txns_forAll (fun n z => txns_sendMsix _ _ z) _ e) _ d

/-- Events, interrupts and the alert line are no transactions. -/
@[simp] theorem txns_settle (o d : Dev) : (settle o d).txns = d.txns := by simp [settle]

@[simp] theorem txns_peersRecheck (d : Dev) : (peersRecheck d).txns = d.txns := by
  refine txns_forAll (fun m e => ?_) _ d
  unfold suspectPeer
  split <;> simp

/-! ### What the scheduler looks at (R450-R452, R458, R459) -/

/-- Two devices with the same time, plans, gate lists and registers, but for the count of waits. -/
structure SameGates (d e : Dev) : Prop where
  time : e.time = d.time
  tick : e.tick = d.tick
  lists : e.link.lists = d.link.lists
  fields : ∀ f : Field, f.key ≠ Reg.TSCHED_GATE_WAITS.key → e.get f = d.get f

theorem SameGates.refl (d : Dev) : SameGates d d := ⟨rfl, rfl, rfl, fun _ _ => rfl⟩

theorem SameGates.trans {a b c : Dev} (h : SameGates a b) (k : SameGates b c) : SameGates a c :=
  ⟨k.time.trans h.time, k.tick.trans h.tick, k.lists.trans h.lists, fun f hf => (k.fields f hf).trans (h.fields f hf)⟩

section
variable {d e : Dev} (h : SameGates d e)
include h

theorem SameGates.aheadEntries : aheadEntries e = aheadEntries d := by
  unfold Machine.aheadEntries tickEndClock Dev.clock
  rw [h.time, h.tick]

theorem SameGates.listAt (t : Nat) : listAt e t = listAt d t := by
  unfold Machine.listAt
  rw [h.aheadEntries, h.fields Reg.GL_ACTIVE (by decide)]

theorem SameGates.windowAt (c p t : Nat) : windowAt e c p t = windowAt d c p t := by
  unfold Machine.windowAt
  rw [h.aheadEntries, h.tick]

theorem SameGates.openSet (p t : Nat) : openSet e p t = openSet d p t := by
  unfold Machine.openSet gateList tickOffset tickEndClock
  rw [h.listAt, h.windowAt, h.windowAt, h.lists, h.tick, h.fields Reg.COLL_CLOSE_MASK (by decide)]

theorem SameGates.breakpoints : breakpoints e = breakpoints d := by
  unfold Machine.breakpoints gateList tickEndClock Dev.clock
  rw [h.aheadEntries, h.lists, h.tick, h.time, h.fields Reg.GL_ACTIVE (by decide)]

theorem SameGates.staysOpen (p c need : Nat) : staysOpen e p c need = staysOpen d p c need := by
  unfold Machine.staysOpen Dev.clock
  simp only [h.openSet]
  rw [h.breakpoints, h.time]

theorem SameGates.frameFits (p : Nat) (q : FabTxn) : frameFits e p q = frameFits d p q := by
  have state := h.fields (Reg.PORT_STATE p) (by simp only [Field.key, Reg.PORT_STATE, Reg.TSCHED_GATE_WAITS]; omega)
  simp only [Machine.frameFits, h.staysOpen, flitTime, state, h.fields Reg.GATE_GUARD_NS (by decide)]

theorem SameGates.shapeRate (p c : Nat) : e.get (Reg.SHAPE_RATE p c) = d.get (Reg.SHAPE_RATE p c) :=
  h.fields _ (by simp only [Field.key, Reg.SHAPE_RATE, Reg.TSCHED_GATE_WAITS]; omega)

theorem SameGates.shaperHolds {p : Nat} (hs : (portOf e p).shaper = (portOf d p).shaper) (q : FabTxn) :
    shaperHolds e p q = shaperHolds d p q := by
  simp only [Machine.shaperHolds, h.shapeRate, hs]

end

/-! ### The classes looked at again (R451, R458) -/

/-- A class after a look at the open set `o`. -/
def Egress.lookedAt (d : Dev) (vt o c : Nat) (e : Egress) : Egress :=
  { (if bitAt o c ∧ ¬ e.isOpen ∧ c ≠ 0 then reopenTags d vt c e else e) with isOpen := bitAt o c }

theorem reopenTags_frames (d : Dev) (vt c : Nat) (e : Egress) : (reopenTags d vt c e).frames = e.frames := by
  unfold reopenTags; split
  · rfl
  · rfl

theorem headTags_frames (d : Dev) (vt c : Nat) (e : Egress) : (headTags d vt c e).frames = e.frames := by
  unfold headTags; split
  · rfl
  · rfl

theorem lookedAt_frames (d : Dev) (vt o c : Nat) (e : Egress) : (e.lookedAt d vt o c).frames = e.frames := by
  unfold Egress.lookedAt
  split
  · exact reopenTags_frames d vt c e
  · rfl

/-- A class that was open keeps its tag. -/
theorem lookedAt_tag {e : Egress} (h : e.isOpen = true) (d : Dev) (vt o c : Nat) : (e.lookedAt d vt o c).tag = e.tag := by
  rw [Egress.lookedAt, if_neg (by simp [h])]

theorem sameGates_refreshOpen (p : Nat) (d : Dev) : SameGates d (refreshOpen p d) := ⟨rfl, rfl, rfl, fun _ _ => rfl⟩

theorem portOf_refreshOpen {d : Dev} {p : Nat} (hl : p < d.link.ports.length) :
    portOf (refreshOpen p d) p = { portOf d p with
      egress := (portOf d p).egress.mapIdx fun c e => e.lookedAt d (portOf d p).vt (openSet d p d.clock) c } :=
  portOf_setPort_same hl _

theorem egressOf_refreshOpen {d : Dev} {p c : Nat} (hl : p < d.link.ports.length) (hc : c < (portOf d p).egress.length) :
    egressOf (portOf (refreshOpen p d) p) c
      = (egressOf (portOf d p) c).lookedAt d (portOf d p).vt (openSet d p d.clock) c := by
  rw [portOf_refreshOpen hl]
  simp [egressOf, List.getElem?_mapIdx, List.getElem?_eq_getElem hc]

/-! ### Heads that wait for their window (R459) -/

/-- A queue, and a port, without the mark that a wait has been counted. -/
def Egress.unwaited (e : Egress) : Egress := { e with waited := false }
def LinkPort.unwaited (x : LinkPort) : LinkPort := { x with egress := x.egress.map Egress.unwaited }

theorem egressOf_unwaited (x : LinkPort) (c : Nat) : egressOf x.unwaited c = (egressOf x c).unwaited := by
  simp only [egressOf, LinkPort.unwaited, List.getElem?_map]
  cases x.egress[c]? <;> rfl

/-- Marking a queue changes nothing but the mark. -/
theorem unwaited_mark (x : LinkPort) (c : Nat) :
    { x with egress := x.egress.set c { egressOf x c with waited := true } : LinkPort }.unwaited = x.unwaited := by
  have marked : (x.egress.set c { egressOf x c with waited := true }).map Egress.unwaited = x.egress.map Egress.unwaited := by
    by_cases hc : c < x.egress.length
    · have same : Egress.unwaited { egressOf x c with waited := true }
          = (x.egress.map Egress.unwaited)[c]'(by simpa using hc) := by
        simp [egressOf, hc, Egress.unwaited]
      rw [List.map_set, same, List.set_getElem_self]
    · rw [List.set_eq_of_length_le (Nat.le_of_not_lt hc)]
  simp only [LinkPort.unwaited, marked]

/-- Counting waits is work on the port that changes only the marks and the count. -/
structure WaitsCounted (p : Nat) (d e : Dev) : Prop where
  gates : SameGates d e
  work : PortWork p d e
  txns : e.txns = d.txns
  port : (portOf e p).unwaited = (portOf d p).unwaited

theorem WaitsCounted.refl (p : Nat) (d : Dev) : WaitsCounted p d d := ⟨.refl d, .refl p d, rfl, rfl⟩

theorem WaitsCounted.trans {p : Nat} {a b c : Dev} (h : WaitsCounted p a b) (k : WaitsCounted p b c) : WaitsCounted p a c :=
  ⟨h.gates.trans k.gates, h.work.trans k.work, k.txns.trans h.txns, k.port.trans h.port⟩

theorem WaitsCounted.forAll {α : Type} {p : Nat} {f : α → Dev → Dev} (h : ∀ x e, WaitsCounted p e (f x e)) (l : List α)
    (d : Dev) : WaitsCounted p d (forAll l f d) := by
  unfold Machine.forAll
  induction l generalizing d with
  | nil => exact .refl p d
  | cons x r ih => exact (h x d).trans (ih _)

theorem WaitsCounted.mark (p c : Nat) (d : Dev) : WaitsCounted p d
    ((onPort p (fun x => { x with egress := x.egress.set c { egressOf (portOf d p) c with waited := true } }) d).count
      Reg.TSCHED_GATE_WAITS 1) := by
  refine ⟨⟨by simp; rfl, by simp; rfl, by simp; rfl, fun f hf => (get_count_other _ 1 hf).trans rfl⟩,
    (PortWork.onPort p _ d).trans (.count p _ 1 _), by simp, ?_⟩
  rw [portOf_count]
  exact portOf_setPort_keeps LinkPort.unwaited (unwaited_mark _ c) p

theorem waitsCounted_countWaits (p : Nat) (d : Dev) : WaitsCounted p d (countWaits p d) := by
  refine WaitsCounted.forAll (fun i e => ?_) _ d
  dsimp only
  split
  · exact .refl p e
  · split
    · exact .mark p (i + 1) e
    · exact .refl p e

/-- The queue that counting waits leaves is the one before, but for its mark. -/
theorem WaitsCounted.queue {p : Nat} {d e : Dev} (h : WaitsCounted p d e) (c : Nat) :
    (egressOf (portOf e p) c).frames = (egressOf (portOf d p) c).frames
    ∧ (egressOf (portOf e p) c).isOpen = (egressOf (portOf d p) c).isOpen
    ∧ (egressOf (portOf e p) c).tag = (egressOf (portOf d p) c).tag := by
  have same : (egressOf (portOf e p) c).unwaited = (egressOf (portOf d p) c).unwaited := by
    rw [← egressOf_unwaited, h.port, egressOf_unwaited]
  simp only [Egress.unwaited, Egress.mk.injEq] at same
  obtain ⟨frames, -, -, tag, -, isOpen⟩ := same
  exact ⟨frames, isOpen, tag⟩

/-! ### The class that is selected (R451) -/

/-- The head of class `c` may start: the class is open, its shaper holds the frame and its window fits it. -/
def headReady (d : Dev) (p c : Nat) : Bool :=
  match (egressOf (portOf d p) c).frames with
  | [] => false
  | q :: _ => (egressOf (portOf d p) c).isOpen && shaperHolds d p q && frameFits d p q

theorem headReady_empty {d : Dev} {p c : Nat} (h : (egressOf (portOf d p) c).frames = []) : headReady d p c = false := by
  simp [headReady, h]

theorem headReady_cons {d : Dev} {p c : Nat} {q : FabTxn} {r : List FabTxn} (h : (egressOf (portOf d p) c).frames = q :: r) :
    headReady d p c = ((egressOf (portOf d p) c).isOpen && shaperHolds d p q && frameFits d p q) := by
  simp [headReady, h]

/-- One comparison of the selection: a ready class takes the place of one with a greater tag. -/
def pickClass (d : Dev) (p : Nat) (acc : Option Nat) (c : Nat) : Option Nat :=
  if headReady d p c then
    match acc with
    | none => some c
    | some a => if (egressOf (portOf d p) c).tag < (egressOf (portOf d p) a).tag then some c else some a
  else acc

theorem selectClass_eq (d : Dev) (p : Nat) : selectClass d p = ((List.range 7).map (· + 1)).foldl (pickClass d p) none := by
  unfold selectClass
  dsimp only
  congr 1
  funext acc c
  unfold pickClass headReady
  cases (egressOf (portOf d p) c).frames with
  | nil => rfl
  | cons q r => rfl

theorem mem_classes {c : Nat} : c ∈ (List.range 7).map (· + 1) ↔ 1 ≤ c ∧ c < 8 := by
  simp only [List.mem_map, List.mem_range]
  exact ⟨fun ⟨i, hi, e⟩ => by omega, fun h => ⟨c - 1, by omega, by omega⟩⟩

section
variable {d : Dev} {p : Nat}

/-- A selection that no ready class undercuts stays. -/
theorem pickClass_stays {a : Nat} {l : List Nat}
    (h : ∀ c ∈ l, headReady d p c = true → (egressOf (portOf d p) a).tag ≤ (egressOf (portOf d p) c).tag) :
    l.foldl (pickClass d p) (some a) = some a := by
  induction l with
  | nil => rfl
  | cons c r ih =>
    have stays : pickClass d p (some a) c = some a := by
      unfold pickClass
      split
      next hr => exact if_neg (Nat.not_lt_of_le (h c (List.mem_cons_self ..) hr))
      · rfl
    rw [List.foldl_cons, stays]
    exact ih fun x hx => h x (List.mem_cons_of_mem _ hx)

/-- What is selected among some classes is what was selected before, or a ready one of them. -/
theorem pickClass_from {l : List Nat} {acc : Option Nat} {b : Nat} (h : l.foldl (pickClass d p) acc = some b) :
    acc = some b ∨ (b ∈ l ∧ headReady d p b = true) := by
  induction l generalizing acc with
  | nil => exact .inl h
  | cons c r ih =>
    rw [List.foldl_cons] at h
    obtain hb | ⟨hb, ready⟩ := ih h
    · by_cases hc : headReady d p c = true
      · cases acc with
        | none =>
          simp only [pickClass, hc, if_true, Option.some.injEq] at hb
          subst hb
          exact .inr ⟨List.mem_cons_self .., hc⟩
        | some a =>
          simp only [pickClass, hc, if_true] at hb
          split at hb
          · obtain rfl := Option.some.inj hb
            exact .inr ⟨List.mem_cons_self .., hc⟩
          · exact .inl hb
      · simp only [pickClass, hc] at hb
        exact .inl hb
    · exact .inr ⟨List.mem_cons_of_mem _ hb, ready⟩

theorem selectClass_none (h : ∀ c, 1 ≤ c → c < 8 → headReady d p c = false) : selectClass d p = none := by
  rw [selectClass_eq]
  cases hs : ((List.range 7).map (· + 1)).foldl (pickClass d p) none with
  | none => rfl
  | some b =>
    obtain hb | ⟨hb, ready⟩ := pickClass_from hs
    · cases hb
    · obtain ⟨lo, hi⟩ := mem_classes.mp hb
      rw [h b lo hi] at ready
      cases ready

/-- The ready class of the lowest tag is selected, of equal tags the lower class. -/
theorem selectClass_lowest {a : Nat} (lo : 1 ≤ a) (hi : a < 8) (ready : headReady d p a = true)
    (least : ∀ c, 1 ≤ c → c < 8 → c ≠ a → headReady d p c = true →
      (egressOf (portOf d p) a).tag < (egressOf (portOf d p) c).tag
      ∨ ((egressOf (portOf d p) a).tag = (egressOf (portOf d p) c).tag ∧ a < c)) : selectClass d p = some a := by
  obtain ⟨below, above, classes⟩ := List.append_of_mem (mem_classes.mpr ⟨lo, hi⟩)
  have sorted : (below ++ a :: above).Pairwise (· < ·) := by
    rw [← classes, List.pairwise_map]
    exact List.pairwise_lt_range.imp fun h => Nat.succ_lt_succ h
  have bounds : ∀ c ∈ below ++ a :: above, 1 ≤ c ∧ c < 8 := fun c hc => mem_classes.mp (classes ▸ hc)
  obtain ⟨-, after, before⟩ := List.pairwise_append.mp sorted
  have taken : pickClass d p (below.foldl (pickClass d p) none) a = some a := by
    cases hs : below.foldl (pickClass d p) none with
    | none => simp [pickClass, ready]
    | some b =>
      obtain hb | ⟨hb, hready⟩ := pickClass_from hs
      · cases hb
      · obtain ⟨lob, hib⟩ := bounds b (List.mem_append_left _ hb)
        have less : b < a := before b hb a (List.mem_cons_self ..)
        have undercut := (least b lob hib (by omega) hready).resolve_right (by omega)
        simp [pickClass, ready, undercut]
  rw [selectClass_eq, classes, List.foldl_append, List.foldl_cons, taken]
  refine pickClass_stays fun c hc hready => ?_
  obtain ⟨loc, hic⟩ := bounds c (by simp [hc])
  have more : a < c := (List.pairwise_cons.mp after).1 c hc
  have := least c loc hic (by omega) hready
  omega

end

/-! ### A frame that starts (R445, R446, R450-R452) -/

/-- The device with a fresh salt when the frame counter has reached its limit. -/
def saltFresh (p : Nat) (d : Dev) : Dev := if 2 ^ 31 ≤ (portOf d p).txCount then saltRoll p d else d

theorem PortWork.saltRoll (p : Nat) (d : Dev) : PortWork p d (saltRoll p d) := by
  have drawn : PortWork p d d.fresh.2 := .of_link rfl rfl (grows_of_eq rfl)
  exact ((drawn.trans (.onPort p _ _)).trans (.count p _ 1 _)).trans (.emit p _ _)

theorem PortWork.saltFresh (p : Nat) (d : Dev) : PortWork p d (saltFresh p d) := by
  unfold Machine.saltFresh
  split
  · exact .saltRoll p d
  · exact .refl p d

/-- A fresh salt changes the salt and the frame counter of the port. -/
theorem saltFresh_port {p : Nat} (hp : p < 16) (d : Dev) :
    (portOf (saltFresh p d) p).egress = (portOf d p).egress ∧ (portOf (saltFresh p d) p).shaper = (portOf d p).shaper
    ∧ ((portOf d p).txCount < 2 ^ 31 → (portOf (saltFresh p d) p).txCount = (portOf d p).txCount)
    ∧ ∀ c, (saltFresh p d).get (Reg.SHAPE_RATE p c) = d.get (Reg.SHAPE_RATE p c) := by
  unfold saltFresh
  split
  next h =>
    have keeps : ∀ {β : Type} (g : LinkPort → β),
        (∀ x : LinkPort, ∀ n, g { x with txSalt := n, txCount := 0 } = g x) →
        g (portOf (saltRoll p d) p) = g (portOf d p) := fun g hg => by
      unfold saltRoll
      dsimp only
      rw [portOf_emit, portOf_count]
      exact portOf_setPort_keeps g (hg _ _) p
    refine ⟨keeps (·.egress) fun _ _ => rfl, keeps (·.shaper) fun _ _ => rfl, fun hlt => absurd h (Nat.not_le_of_lt hlt),
      fun c => ?_⟩
    exact get_count_other _ 1 (by simp only [Field.key, Reg.SHAPE_RATE, Reg.FAB_SALT_ROLLS]; omega)
  · exact ⟨rfl, rfl, fun _ => rfl, fun _ => rfl⟩

/-- A port `y` from which the head of class `c` of port `x` has gone, leaving `r`. -/
structure HeadGone (d : Dev) (p c : Nat) (q : FabTxn) (r : List FabTxn) (x y : LinkPort) : Prop where
  queue : ∃ e, y.egress = x.egress.set c e ∧ e.frames = r
  count : y.txCount = x.txCount + 1
  shaper : y.shaper = if c = 0 ∨ d.get (Reg.SHAPE_RATE p c) = 0 then x.shaper
    else x.shaper.set (c - 1) ((x.shaper[c - 1]?).getD 0 - frameLen q)

/-- The head of a class that starts leaves its queue, and its flits follow as credit lasts. -/
theorem startFrame_head {d : Dev} {p c : Nat} {q : FabTxn} {r : List FabTxn}
    (h : (egressOf (portOf (saltFresh p d) p) c).frames = q :: r) :
    ∃ y b k, HeadGone (saltFresh p d) p c q r (portOf (saltFresh p d) p) y ∧ startFrame p c d =
      flushAll p (when b (fun z => z.count Reg.TSCHED_GATE_OVERRUN 1)
        ((((setPort p y (saltFresh p d)).count Reg.SEC_GCM_FRAMES 1).emit (.txn q)).emit (.frame p ⟨k, true, q⟩))) := by
  have unfolded : startFrame p c d = startFrame p c d := rfl
  conv at unfolded => rhs; unfold startFrame
  rw [← saltFresh] at unfolded
  dsimp only at unfolded
  rw [h] at unfolded
  exact ⟨_, _, _, ⟨⟨_, rfl, headTags_frames _ _ _ _⟩, rfl, rfl⟩, unfolded⟩

/-- What the start of a frame does (R450-R452): the transaction is sent, its queue and its shaper give it up, and it is
counted. -/
theorem startFrame_starts {d : Dev} {p c : Nat} {q : FabTxn} {r : List FabTxn} (hp : p < 16)
    (hl : p < d.link.ports.length) (h8 : (portOf d p).egress.length = 8) (hc : c < 8)
    (h : (egressOf (portOf d p) c).frames = q :: r) :
    PortWork p d (startFrame p c d) ∧ Sent (.txn q) d (startFrame p c d)
    ∧ (egressOf (portOf (startFrame p c d) p) c).frames = r
    ∧ ((portOf d p).txCount < 2 ^ 31 → (portOf (startFrame p c d) p).txCount = (portOf d p).txCount + 1)
    ∧ (c ≠ 0 → d.get (Reg.SHAPE_RATE p c) ≠ 0 → (portOf d p).shaper.length = 7 →
      ((portOf (startFrame p c d) p).shaper[c - 1]?).getD 0 = ((portOf d p).shaper[c - 1]?).getD 0 - frameLen q) := by
  obtain ⟨egress, shaper, counter, rate⟩ := saltFresh_port hp d
  have fresh := PortWork.saltFresh p d
  have hl' : p < (saltFresh p d).link.ports.length := by rw [fresh.size]; exact hl
  obtain ⟨y, b, k, ⟨⟨e, queue, rest⟩, count, tokens⟩, started⟩ :=
    startFrame_head (d := d) (p := p) (c := c) (q := q) (r := r)
    (by rw [egressOf, egress]; exact h)
  have overrun : ∀ z, PortWork p z (when b (fun z => z.count Reg.TSCHED_GATE_OVERRUN 1) z)
      ∧ portOf (when b (fun z => z.count Reg.TSCHED_GATE_OVERRUN 1) z) p = portOf z p := fun z => by
    cases b
    · exact ⟨.refl p z, rfl⟩
    · exact ⟨.count p _ 1 z, portOf_count _ 1 z p⟩
  have put := fresh.trans ((PortWork.setPort p y _).trans (.count p Reg.SEC_GCM_FRAMES 1 _))
  have after := (PortWork.emit p (.frame p ⟨k, true, q⟩) ((((setPort p y (saltFresh p d)).count Reg.SEC_GCM_FRAMES 1).emit
    (.txn q)))).trans ((overrun _).1.trans (.flushAll p _))
  have still := still_flushAll p (when b (fun z => z.count Reg.TSCHED_GATE_OVERRUN 1)
        ((((setPort p y (saltFresh p d)).count Reg.SEC_GCM_FRAMES 1).emit (.txn q)).emit (.frame p ⟨k, true, q⟩)))
  rw [← started, (overrun _).2, portOf_emit, portOf_emit, portOf_count, portOf_setPort_same hl'] at still
  rw [← started] at after
  refine ⟨(put.trans (.emit p _ _)).trans after, sent_grows (grows_sent put.sent (sent_emit _ _)) after.sent, ?_, ?_, ?_⟩
  · rw [eq_of_still still (fun z => (egressOf z c).frames) fun _ => rfl]
    rw [egressOf, queue, List.getElem?_set_self (by rw [egress]; omega), Option.getD_some, rest]
  · intro hlt
    rw [eq_of_still still (·.txCount) fun _ => rfl, count, counter hlt]
  · intro hc0 hrate h7
    rw [eq_of_still still (·.shaper) fun _ => rfl, tokens, if_neg (by rw [rate]; simp [hc0, hrate]), shaper,
      List.getElem?_set_self (by omega), Option.getD_some]

/-! ### The port before a frame is chosen (R450, R451) -/

theorem admitAll_idle {p : Nat} {d : Dev} (hi : (portOf d p).inject = []) (hh : (portOf d p).held = []) : admitAll p d = d := by
  rw [admitAll, hi, hh]; rfl

/-- The device once the open set has been looked at and the waits are counted. -/
def surveyed (p : Nat) (d : Dev) : Dev := countWaits p (refreshOpen p d)

/-- What looking at the open set and counting waits leave of a port of eight queues. -/
structure Surveyed (p : Nat) (d e : Dev) : Prop where
  gates : SameGates d e
  work : PortWork p d e
  txns : e.txns = d.txns
  slots : (portOf e p).egress.length = 8
  frames : ∀ c, c < 8 → (egressOf (portOf e p) c).frames = (egressOf (portOf d p) c).frames
  isOpen : ∀ c, c < 8 → (egressOf (portOf e p) c).isOpen = bitAt (openSet d p d.clock) c
  tag : ∀ c, c < 8 → (egressOf (portOf d p) c).isOpen = true → (egressOf (portOf e p) c).tag = (egressOf (portOf d p) c).tag
  shaper : (portOf e p).shaper = (portOf d p).shaper
  txCount : (portOf e p).txCount = (portOf d p).txCount

section
variable {d e : Dev} {p c : Nat} {q : FabTxn} {r : List FabTxn}

theorem surveyed_refreshOpen (hl : p < d.link.ports.length) (h8 : (portOf d p).egress.length = 8) :
    Surveyed p d (refreshOpen p d) := by
  have queue : ∀ c, c < 8 → egressOf (portOf (refreshOpen p d) p) c
      = (egressOf (portOf d p) c).lookedAt d (portOf d p).vt (openSet d p d.clock) c := fun c hc =>
    egressOf_refreshOpen hl (by omega)
  have port := portOf_refreshOpen hl
  exact {
    gates := sameGates_refreshOpen p d
    work := by unfold refreshOpen; exact .onPort p _ d
    txns := rfl
    slots := by rw [port]; simpa using h8
    frames := fun c hc => by rw [queue c hc, lookedAt_frames]
    isOpen := fun c hc => by rw [queue c hc]; rfl
    tag := fun c hc ho => by rw [queue c hc, lookedAt_tag ho]
    shaper := by rw [port]
    txCount := by rw [port] }

theorem surveyed_surveyed (hl : p < d.link.ports.length) (h8 : (portOf d p).egress.length = 8) :
    Surveyed p d (surveyed p d) := by
  have looked := surveyed_refreshOpen hl h8
  have counted := waitsCounted_countWaits p (refreshOpen p d)
  have same : ∀ {β : Type} (g : LinkPort → β), (∀ x : LinkPort, g x.unwaited = g x) →
      g (portOf (countWaits p (refreshOpen p d)) p) = g (portOf (refreshOpen p d) p) := fun g hg => by
    rw [← hg, counted.port, hg]
  exact {
    gates := looked.gates.trans counted.gates
    work := looked.work.trans counted.work
    txns := counted.txns.trans looked.txns
    slots := (same (·.egress.length) fun x => by simp [LinkPort.unwaited]).trans looked.slots
    frames := fun c hc => (counted.queue c).1.trans (looked.frames c hc)
    isOpen := fun c hc => (counted.queue c).2.1.trans (looked.isOpen c hc)
    tag := fun c hc ho => (counted.queue c).2.2.trans (looked.tag c hc ho)
    shaper := (same (·.shaper) fun _ => rfl).trans looked.shaper
    txCount := (same (·.txCount) fun _ => rfl).trans looked.txCount }

/-- The head of a class is ready when the class is open now, the shaper holds it and the window fits it. -/
theorem Surveyed.headReady (h : Surveyed p d e) (hc : c < 8) (hq : (egressOf (portOf d p) c).frames = q :: r) :
    headReady e p c = (bitAt (openSet d p d.clock) c && shaperHolds d p q && frameFits d p q) := by
  rw [headReady_cons ((h.frames c hc).trans hq), h.isOpen c hc, h.gates.shaperHolds h.shaper, h.gates.frameFits]

theorem Surveyed.headReady_empty (h : Surveyed p d e) (hc : c < 8) (hq : (egressOf (portOf d p) c).frames = []) :
    Machine.headReady e p c = false := Machine.headReady_empty ((h.frames c hc).trans hq)

end

/-! ### Which frame starts (R434, R450, R451) -/

/-- Class `c` starts its head `q` on port `p`. -/
structure Starts (p c : Nat) (q : FabTxn) (d t : Dev) : Prop where
  sent : Sent (.txn q) d t
  queue : (egressOf (portOf t p) c).frames = (egressOf (portOf d p) c).frames.drop 1
  count : (portOf d p).txCount < 2 ^ 31 → (portOf t p).txCount = (portOf d p).txCount + 1
  stores : t.stores = d.stores
  tokens : c ≠ 0 → d.get (Reg.SHAPE_RATE p c) ≠ 0 → (portOf d p).shaper.length = 7 →
    ((portOf t p).shaper[c - 1]?).getD 0 = ((portOf d p).shaper[c - 1]?).getD 0 - frameLen q

/-- No transaction starts on a port, whose queue `c` and frame counter stay. -/
structure NoStart (p : Nat) (d t : Dev) : Prop where
  sent : Grows d t
  txns : t.txns = d.txns
  queue : ∀ c, c < 8 → (egressOf (portOf t p) c).frames = (egressOf (portOf d p) c).frames
  count : (portOf t p).txCount = (portOf d p).txCount
  stores : t.stores = d.stores

theorem Starts.settled {p c : Nat} {q : FabTxn} {d e : Dev} (h : Starts p c q d e) (o : Dev) :
    Starts p c q d (settle o (peersRecheck e)) := by
  have port := portOf_end o e p
  have more := (PortWork.refl p e).settled o
  exact ⟨sent_grows h.sent more.sent, by rw [port]; exact h.queue, by rw [port]; exact h.count, more.stores.trans h.stores,
    by rw [port]; exact h.tokens⟩

theorem NoStart.settled {p : Nat} {d e : Dev} (h : NoStart p d e) (o : Dev) : NoStart p d (settle o (peersRecheck e)) := by
  have port := portOf_end o e p
  have more := (PortWork.refl p e).settled o
  exact ⟨grows_trans h.sent more.sent, by simpa using h.txns, by rw [port]; exact h.queue, by rw [port]; exact h.count,
    more.stores.trans h.stores⟩

theorem Surveyed.noStart {p : Nat} {d e : Dev} (h : Surveyed p d e) : NoStart p d e :=
  ⟨h.work.sent, h.txns, h.frames, h.txCount, h.work.stores⟩

theorem Surveyed.starts {p c : Nat} {q : FabTxn} {d e : Dev} (h : Surveyed p d e) (hp : p < 16) (hl : p < d.link.ports.length)
    (hc : c < 8) (hq : (egressOf (portOf d p) c).frames.head? = some q) : Starts p c q d (startFrame p c e) := by
  obtain ⟨r, frames⟩ := List.head?_eq_some_iff.mp hq
  obtain ⟨work, sent, rest, count, tokens⟩ :=
    startFrame_starts hp (by rw [h.work.size]; exact hl) h.slots hc ((h.frames c hc).trans frames)
  rw [h.txCount] at count
  rw [h.gates.shapeRate, h.shaper] at tokens
  exact ⟨grows_sent h.work.sent sent, by rw [rest, frames]; rfl, count, work.stores.trans h.work.stores, tokens⟩

/-- A port that carries data and holds eight queues, with no TC0 frame that awaits admission. -/
structure CanSend (p : Nat) (d : Dev) : Prop where
  port : p < 16
  listed : p < d.link.ports.length
  up : portUp d p = true
  inject : (portOf d p).inject = []
  held : (portOf d p).held = []
  slots : (portOf d p).egress.length = 8

section
variable {d : Dev} {p c : Nat}

theorem CanSend.admitted (h : CanSend p d) : admitAll p (refreshOpen p d) = refreshOpen p d := by
  have port := portOf_refreshOpen h.listed
  exact admitAll_idle (by rw [port]; exact h.inject) (by rw [port]; exact h.held)

theorem CanSend.freeAt (h : CanSend p d) : (portOf (refreshOpen p d) p).freeAt = (portOf d p).freeAt := by
  rw [portOf_refreshOpen h.listed]

theorem CanSend.surveyed (h : CanSend p d) : Surveyed p d (surveyed p d) := surveyed_surveyed h.listed h.slots

theorem CanSend.refreshed (h : CanSend p d) : Surveyed p d (refreshOpen p d) := surveyed_refreshOpen h.listed h.slots

/-- A TC0 frame starts before all others. -/
theorem frameTxSelect_tc0 (h : CanSend p d) (hfree : (portOf d p).freeAt ≤ d.clock * 10000)
    (hq : (egressOf (portOf d p) 0).frames ≠ []) : frameTxSelect p d = startFrame p 0 (refreshOpen p d) := by
  have waits : (egressOf (portOf (refreshOpen p d) p) 0).frames ≠ [] := by rw [h.refreshed.frames 0 (by omega)]; exact hq
  have idle : decide ((refreshOpen p d).clock * 10000 < (portOf (refreshOpen p d) p).freeAt) = false := by
    rw [h.freeAt]; exact decide_eq_false (Nat.not_lt_of_le hfree)
  unfold frameTxSelect
  dsimp only
  rw [if_neg (by simp [h.up]), h.admitted, if_pos ⟨waits, .inl idle⟩]

/-- Without a TC0 frame, a free port starts the head of the selected class, or nothing. -/
theorem frameTxSelect_bulk (h : CanSend p d) (hfree : (portOf d p).freeAt ≤ d.clock * 10000)
    (hq : (egressOf (portOf d p) 0).frames = []) :
    (∀ c, selectClass (Machine.surveyed p d) p = some c → frameTxSelect p d = startFrame p c (Machine.surveyed p d))
    ∧ (selectClass (Machine.surveyed p d) p = none → frameTxSelect p d = Machine.surveyed p d) := by
  have none_waits : (egressOf (portOf (refreshOpen p d) p) 0).frames = [] := (h.refreshed.frames 0 (by omega)).trans hq
  have idle : decide ((refreshOpen p d).clock * 10000 < (portOf (refreshOpen p d) p).freeAt) = false := by
    rw [h.freeAt]; exact decide_eq_false (Nat.not_lt_of_le hfree)
  unfold frameTxSelect Machine.surveyed
  dsimp only
  rw [if_neg (by simp [h.up]), h.admitted, if_neg (by simp [none_waits]), idle, if_neg Bool.false_ne_true]
  exact ⟨fun c hc => by simp only [hc], fun hn => by simp only [hn]⟩

/-- Without a TC0 frame, a busy port starts nothing. -/
theorem frameTxSelect_busy (h : CanSend p d) (hbusy : d.clock * 10000 < (portOf d p).freeAt)
    (hq : (egressOf (portOf d p) 0).frames = []) : frameTxSelect p d = refreshOpen p d := by
  have none_waits : (egressOf (portOf (refreshOpen p d) p) 0).frames = [] := (h.refreshed.frames 0 (by omega)).trans hq
  have busy : decide ((refreshOpen p d).clock * 10000 < (portOf (refreshOpen p d) p).freeAt) = true := by
    rw [h.freeAt]; exact decide_eq_true hbusy
  unfold frameTxSelect
  dsimp only
  rw [if_neg (by simp [h.up]), h.admitted, if_neg (by simp [none_waits]), if_pos busy]

theorem frameTxSelect_shut (h : portUp d p = false) : frameTxSelect p d = d := by
  rw [frameTxSelect, if_pos (by simp [h])]

end

/-! ### Buckets (R452-R454) -/

/-- The token buckets of a port. -/
def LinkPort.buckets (x : LinkPort) : List Nat × List Nat := (x.shaper, x.policer)

/-- Work on port `p` that changes no register, and not the instant of the last refill. -/
structure RefillWork (p : Nat) (d e : Dev) : Prop where
  work : PortWork p d e
  regs : e.regs = d.regs
  refillAt : e.link.refillAt = d.link.refillAt

theorem RefillWork.trans {p : Nat} {a b c : Dev} (h : RefillWork p a b) (k : RefillWork p b c) : RefillWork p a c :=
  ⟨h.work.trans k.work, k.regs.trans h.regs, k.refillAt.trans h.refillAt⟩

theorem RefillWork.setPort (p : Nat) (x : LinkPort) (d : Dev) : RefillWork p d (setPort p x d) := ⟨.setPort p x d, rfl, rfl⟩

/-- A TC0 frame that enters its queue leaves the buckets alone. -/
theorem buckets_enqueue (p : Nat) (t : FabTxn) {x : LinkPort} {d : Dev} (h : x.buckets = (portOf d p).buckets) :
    RefillWork p d (enqueue p t (setPort p x d))
    ∧ (portOf (enqueue p t (setPort p x d)) p).buckets = (portOf d p).buckets := by
  refine ⟨(RefillWork.setPort p x d).trans (.setPort p _ _), .trans ?_ (portOf_setPort_keeps LinkPort.buckets h p)⟩
  refine portOf_setPort_keeps LinkPort.buckets ?_ p
  rfl

theorem admitTc0_refill (k p : Nat) (d : Dev) :
    RefillWork p d (admitTc0 k p d) ∧ (portOf (admitTc0 k p d) p).buckets = (portOf d p).buckets := by
  have stays : ∀ d : Dev, RefillWork p d d := fun d => ⟨.refl p d, rfl, rfl⟩
  induction k generalizing d with
  | zero => exact ⟨stays d, rfl⟩
  | succ n ih =>
    have goes : ∀ (t : FabTxn) (x : LinkPort), x.buckets = (portOf d p).buckets →
        RefillWork p d (admitTc0 n p (enqueue p t (setPort p x d)))
        ∧ (portOf (admitTc0 n p (enqueue p t (setPort p x d))) p).buckets = (portOf d p).buckets := fun t x hx => by
      obtain ⟨entered, kept⟩ := buckets_enqueue p t hx
      obtain ⟨rest, same⟩ := ih (enqueue p t (setPort p x d))
      exact ⟨entered.trans rest, same.trans kept⟩
    unfold admitTc0
    dsimp only
    split
    · split
      · exact goes _ _ rfl
      · exact ⟨stays d, rfl⟩
    · split
      · exact goes _ _ rfl
      · exact ⟨stays d, rfl⟩
    · exact ⟨stays d, rfl⟩

/-- One round of the refill: the port gains its tokens, and TC0 frames are admitted. -/
def refillRound (p : Nat) (d : Dev) : Dev := admitAll p (refillPort p d)

theorem refillRound_work (p : Nat) (d : Dev) : RefillWork p d (refillRound p d) :=
  (RefillWork.setPort p _ d).trans (admitTc0_refill _ p _).1

/-- The interval of the refill, within its limits (R452). -/
def refillNs (d : Dev) : Nat := clampNat 100 100000 (d.get Reg.TSCHED_REFILL_NS)

theorem refillRound_buckets {p : Nat} {d : Dev} (hl : p < d.link.ports.length) :
    (portOf (refillRound p d) p).shaper = (portOf d p).shaper.mapIdx (fun i v =>
        min (burstBytes (d.get (Reg.SHAPE_BURST p (i + 1)))) (v + d.get (Reg.SHAPE_RATE p (i + 1)) * refillNs d / 10))
    ∧ (portOf (refillRound p d) p).policer = (portOf d p).policer.mapIdx (fun i v =>
        min (burstBytes (d.get (Reg.POLICE_BURST p (i + 1)))) (v + d.get (Reg.POLICE_RATE p (i + 1)) * refillNs d / 10)) := by
  have same : (portOf (refillRound p d) p).buckets = (portOf (refillPort p d) p).buckets := (admitTc0_refill _ p _).2
  have put : portOf (refillPort p d) p = _ := portOf_setPort_same hl _
  rw [put] at same
  exact ⟨congrArg Prod.fst same, congrArg Prod.snd same⟩

/-- Work on other ports leaves a port alone. -/
theorem portOf_forAll_other {g : Nat → Dev → Dev} (h : ∀ q e, PortWork q e (g q e)) {p : Nat} {l : List Nat} (hp : p ∉ l)
    (d : Dev) : portOf (forAll l g d) p = portOf d p :=
  forAll_keeps_mem (fun e => portOf e p) g l (fun q hq e => (h q e).others p fun e => hp (e ▸ hq)) d

theorem forAll_refill (l : List Nat) (d : Dev) : (forAll l refillRound d).regs = d.regs
    ∧ (forAll l refillRound d).link.refillAt = d.link.refillAt ∧ (forAll l refillRound d).stores = d.stores
    ∧ (forAll l refillRound d).link.ports.length = d.link.ports.length :=
  ⟨forAll_keeps (·.regs) _ (fun q e => (refillRound_work q e).regs) l d,
    forAll_keeps (·.link.refillAt) _ (fun q e => (refillRound_work q e).refillAt) l d,
    forAll_keeps Dev.stores _ (fun q e => (refillRound_work q e).work.stores) l d,
    forAll_keeps (·.link.ports.length) _ (fun q e => (refillRound_work q e).work.size) l d⟩

/-- A port's buckets after the rounds of all sixteen ports are those after its own. -/
theorem forAll_refill_port {p : Nat} (hp : p < 16) (d : Dev) :
    ∃ e, portOf (forAll (List.range 16) refillRound d) p = portOf (refillRound p e) p ∧ e.regs = d.regs
      ∧ portOf e p = portOf d p ∧ e.link.ports.length = d.link.ports.length := by
  obtain ⟨below, above, ports⟩ := List.append_of_mem (List.mem_range.mpr hp)
  have distinct : (below ++ p :: above).Nodup := ports ▸ List.nodup_range
  obtain ⟨-, after, before⟩ := List.nodup_append.mp distinct
  have work := fun q e => (refillRound_work q e).work
  obtain ⟨regs, -, -, size⟩ := forAll_refill below d
  refine ⟨forAll below refillRound d, ?_, regs, ?_, size⟩
  · have split : forAll (List.range 16) refillRound d
        = forAll above refillRound (refillRound p (forAll below refillRound d)) := by
      rw [ports, forAll, List.foldl_append, List.foldl_cons]; rfl
    rw [split, portOf_forAll_other work (List.nodup_cons.mp after).1]
  · exact portOf_forAll_other work (fun hb => before p hb p (List.mem_cons_self ..) rfl) d

/-! ### Frames that start, and frames that wait -/

section
variable {d : Dev} {p c : Nat} {q : FabTxn}

/-- A ready head with the lowest tag starts, of equal tags that of the lower class. -/
theorem frameTxSelect_lowest (h : CanSend p d) (hfree : (portOf d p).freeAt ≤ d.clock * 10000)
    (h0 : (egressOf (portOf d p) 0).frames = []) (lo : 1 ≤ c) (hi : c < 8)
    (hq : (egressOf (portOf d p) c).frames.head? = some q) (ho : (egressOf (portOf d p) c).isOpen = true)
    (hr : (bitAt (openSet d p d.clock) c && shaperHolds d p q && frameFits d p q) = true)
    (least : ∀ k, 1 ≤ k → k < 8 → k ≠ c → (egressOf (portOf d p) k).frames ≠ [] →
      (egressOf (portOf d p) k).isOpen = true ∧ ((egressOf (portOf d p) c).tag < (egressOf (portOf d p) k).tag
        ∨ ((egressOf (portOf d p) c).tag = (egressOf (portOf d p) k).tag ∧ c < k))) :
    Starts p c q d (frameTxSelect p d) := by
  have survey := h.surveyed
  obtain ⟨r, frames⟩ := List.head?_eq_some_iff.mp hq
  have selected : selectClass (surveyed p d) p = some c := by
    refine selectClass_lowest lo hi ((survey.headReady hi frames).trans hr) fun k lok hik hne ready => ?_
    have waiting : (egressOf (portOf d p) k).frames ≠ [] := fun e => by
      rw [survey.headReady_empty hik e] at ready
      cases ready
    obtain ⟨hopen, tags⟩ := least k lok hik hne waiting
    rw [survey.tag c hi ho, survey.tag k hik hopen]
    exact tags
  rw [(frameTxSelect_bulk h hfree h0).1 c selected]
  exact survey.starts h.port h.listed hi hq

/-- When the one head that waits is not ready, nothing starts. -/
theorem frameTxSelect_waits (h : CanSend p d) (hfree : (portOf d p).freeAt ≤ d.clock * 10000)
    (h0 : (egressOf (portOf d p) 0).frames = []) {r : List FabTxn} (hi : c < 8)
    (hq : (egressOf (portOf d p) c).frames = q :: r)
    (hr : (bitAt (openSet d p d.clock) c && shaperHolds d p q && frameFits d p q) = false)
    (sole : ∀ k, k < 8 → k ≠ c → (egressOf (portOf d p) k).frames = []) : NoStart p d (frameTxSelect p d) := by
  have survey := h.surveyed
  have selected : selectClass (surveyed p d) p = none := by
    refine selectClass_none fun k _ hik => ?_
    by_cases hk : k = c
    · rw [hk, survey.headReady hi hq, hr]
    · exact survey.headReady_empty hik (sole k hik hk)
  rw [(frameTxSelect_bulk h hfree h0).2 selected]
  exact survey.noStart

/-- A refill that is due gives each bucket RATE x interval, up to its burst (R452, R453). -/
theorem tokenBucketRefill_due (hp : p < 16) (hl : p < d.link.ports.length) (hdue : d.link.refillAt + refillNs d ≤ d.clock)
    (hs : (portOf d p).shaper.length = 7) (hpol : (portOf d p).policer.length = 7) :
    (tokenBucketRefill d).link.refillAt = d.clock ∧ (tokenBucketRefill d).stores = d.stores
    ∧ ∀ c, 1 ≤ c → c < 8 →
      ((portOf (tokenBucketRefill d) p).shaper[c - 1]?).getD 0 = min (burstBytes (d.get (Reg.SHAPE_BURST p c)))
        (((portOf d p).shaper[c - 1]?).getD 0 + d.get (Reg.SHAPE_RATE p c) * refillNs d / 10)
      ∧ ((portOf (tokenBucketRefill d) p).policer[c - 1]?).getD 0 = min (burstBytes (d.get (Reg.POLICE_BURST p c)))
        (((portOf d p).policer[c - 1]?).getD 0 + d.get (Reg.POLICE_RATE p c) * refillNs d / 10) := by
  have due : tokenBucketRefill d = forAll (List.range 16) refillRound (setLink { d.link with refillAt := d.clock } d) :=
    if_pos hdue
  obtain ⟨-, refilled, stores, -⟩ := forAll_refill (List.range 16) (setLink { d.link with refillAt := d.clock } d)
  obtain ⟨e, port, regs, before, size⟩ := forAll_refill_port hp (setLink { d.link with refillAt := d.clock } d)
  have gets : ∀ f, e.get f = d.get f := fun f => get_of_regs regs f
  have same : portOf e p = portOf d p := before
  have ns : refillNs e = refillNs d := by rw [refillNs, gets]; rfl
  obtain ⟨shaper, policer⟩ := refillRound_buckets (p := p) (d := e) (by rw [size]; exact hl)
  rw [due]
  refine ⟨refilled, stores, fun c lo hi => ?_⟩
  rw [port, shaper, policer]
  simp only [gets, same, ns, List.getElem?_mapIdx, List.getElem?_eq_getElem (show c - 1 < (portOf d p).shaper.length by omega),
    List.getElem?_eq_getElem (show c - 1 < (portOf d p).policer.length by omega), Option.map_some, Option.getD_some,
    Nat.sub_add_cancel lo, and_self]

end

/-- Settles O41: the port carries no data, is busy, starts its TC0 frame or the selected class, or has no head that is ready. -/
theorem egress : Obligations.Egress := by
  intro s p hp hlen d x up free eligible sole silent starts
  have hl : p < s.dev.link.ports.length := by omega
  have stores : ∀ {t : Dev}, t.stores = d.stores → t.mem = d.mem ∧ t.sess = d.sess := fun h => by
    simp only [Dev.stores, Prod.mk.injEq] at h
    exact ⟨h.2.1, h.1⟩
  have send : up → CanSend p s.dev := fun ⟨hu, hi, hh, h8, _⟩ => ⟨hp, hl, hu, hi, hh, h8⟩
  have hushed : ∀ {t : Dev}, NoStart p s.dev t → silent t := fun h => ⟨no_txn_since h.sent h.txns, stores h.stores⟩
  have started : ∀ {c : Nat} {q : FabTxn} {t : Dev}, Starts p c q s.dev t → starts c q t := fun h =>
    ⟨h.sent, h.queue, h.count, stores h.stores⟩
  have row : ∀ {P : Dev → Prop}, P (settle s.dev (peersRecheck (frameTxSelect p s.dev))) → Gives (.frameTxSelect p) s P :=
    fun h => gives_of_portRow rfl hp h
  have ready : ∀ {c : Nat} {q : FabTxn}, eligible c q →
      (egressOf x c).isOpen = true ∧ (bitAt (openSet d p d.clock) c && shaperHolds d p q && frameFits d p q) = true :=
    fun ⟨hbit, hopen, hshape, hfit, _⟩ => ⟨hopen, by simp only [hbit, hshape, hfit, Bool.and_self]⟩
  refine ⟨fun hu => row ?shut, fun q r hup hfree hq => row ?tc0, fun c q r hup hfree lo hi hq hsole => ⟨fun he => row ?sole,
    fun _ hno => row ?waits⟩, fun a b q r hup hfree loa hia lob hib hab ha hb hothers hea heb htags => row ?lowest,
    fun hup hbusy h0 => row ?busy, fun hearly => gives_of_run (f := tokenBucketRefill) rfl ?early,
    fun hdue hs hpol => gives_of_run (f := tokenBucketRefill) rfl ?due⟩
  case shut =>
    rw [frameTxSelect_shut hu]
    have same : NoStart p s.dev s.dev := ⟨grows_refl _, rfl, fun _ _ => rfl, rfl, rfl⟩
    exact ⟨by simp [d], hushed (same.settled _)⟩
  case tc0 =>
    rw [frameTxSelect_tc0 (send hup) hfree (by rw [hq]; exact List.cons_ne_nil q r)]
    exact started (((send hup).refreshed.starts hp hl (by omega) (by rw [hq]; rfl)).settled _)
  case sole =>
    obtain ⟨hopen, hready⟩ := ready he
    have frame := (frameTxSelect_lowest (send hup) hfree (hsole 0 (by omega) (by omega)) lo hi (by rw [hq]; rfl) hopen hready
      fun k _ hk hne hwait => absurd (hsole k hk hne) hwait).settled s.dev
    obtain ⟨-, -, -, -, h7⟩ := hup
    exact ⟨started frame, fun hrate => frame.tokens (by omega) hrate h7⟩
  case waits =>
    have hready : (bitAt (openSet d p d.clock) c && shaperHolds d p q && frameFits d p q) = false := by
      rcases hno with h | h | h <;> simp [h]
    have frame := (frameTxSelect_waits (send hup) hfree (hsole 0 (by omega) (by omega)) hi hq hready hsole).settled s.dev
    exact ⟨hushed frame, (frame.queue c hi).trans hq, frame.count⟩
  case lowest =>
    obtain ⟨hopen, hready⟩ := ready hea
    obtain ⟨hopen', -⟩ := ready heb
    refine started (Starts.settled (frameTxSelect_lowest (send hup) hfree (hothers 0 (by omega) (by omega) (by omega)) loa hia ha
      hopen hready fun k _ hik hne hwait => ?_) _)
    by_cases hk : k = b
    · rw [hk]; exact ⟨hopen', htags⟩
    · exact absurd (hothers k hik hne hk) hwait
  case busy =>
    rw [frameTxSelect_busy (send hup) hbusy h0]
    exact hushed ((send hup).refreshed.noStart.settled _)
  case early =>
    rw [tokenBucketRefill, if_neg (Nat.not_le_of_lt hearly)]
    exact becomes_settle_self _
  case due =>
    obtain ⟨refilled, kept, buckets⟩ := tokenBucketRefill_due hp hl hdue hs hpol
    have port := portOf_of_link (a := settle s.dev (tokenBucketRefill s.dev)) (b := tokenBucketRefill s.dev) (by simp) p
    obtain ⟨hmem, hsess⟩ := stores kept
    simp only [settle_units, port]
    exact ⟨refilled, hmem, hsess, buckets⟩

/-! ### A port with one frame -/

/-- A probe of class 1 to module 1 (R404). -/
def classOneProbe : FabTxn :=
  { op := 13, tc := 1, hops := 1, src := 0, dst := 1, keySlot := 0, status := 0, tag := 0, len := 0, addr := 0, arg := 0
    resv := false, payload := [] }

/-- A port after reset that holds the probe. -/
def probePort : LinkPort :=
  { LinkPort.reset with
    egress := LinkPort.reset.egress.set 1 { Egress.reset with
      frames := [classOneProbe] } }

/-- Port 0 is up and holds the probe, `ns` nanoseconds after reset: gate list 0 opens class 1 after the first 1,000 (R457). -/
def portZeroHolds (ns : Nat) : State :=
  { portZeroUp with dev := setPort 0 probePort { portZeroUp.dev with time := { portZeroUp.dev.time with localNs := ns } } }

theorem probePort_sole : ∀ k, k < 8 → k ≠ 1 → (egressOf probePort k).frames = [] := by decide

/-- At 5,000 ns the class is open and the probe starts. -/
theorem portZeroHolds_starts : Gives (.frameTxSelect 0) (portZeroHolds 5000) fun t =>
    Sent (.txn classOneProbe) (portZeroHolds 5000).dev t ∧ (egressOf (portOf t 0) 1).frames = [] := by
  obtain ⟨-, -, sole, -⟩ := egress (portZeroHolds 5000) 0 (by decide) rfl
  obtain ⟨starts, -⟩ := sole 1 classOneProbe [] ⟨by decide, rfl, rfl, rfl, rfl⟩ (by decide) (by decide) (by decide)
    rfl probePort_sole
  obtain ⟨t, answered, queue, ⟨sent, rest, -⟩, -⟩ := starts ⟨by decide, rfl, by decide, by decide, rfl⟩
  exact ⟨t, answered, queue, sent, rest⟩

/-- At 500 ns the class is closed and the probe waits. -/
theorem portZeroHolds_waits : Gives (.frameTxSelect 0) (portZeroHolds 500) fun t =>
    (egressOf (portOf t 0) 1).frames = [classOneProbe] := by
  obtain ⟨-, -, sole, -⟩ := egress (portZeroHolds 500) 0 (by decide) rfl
  obtain ⟨-, waits⟩ := sole 1 classOneProbe [] ⟨by decide, rfl, rfl, rfl, rfl⟩ (by decide) (by decide) (by decide)
    rfl probePort_sole
  obtain ⟨t, answered, queue, -, rest, -⟩ := waits rfl (.inl (by decide))
  exact ⟨t, answered, queue, rest⟩

end Sys2Proof.Machine
end

section
/-! PROOFS. Peers that the peer maps have no word for (spec/12, spec/13): why the statements about the states of a port and about lanes,
keys and gate lists fail, and what holds of peers numbered below 1024. -/

namespace Sys2Proof.Machine

open Sys2Proof

/-! ### Peers that are numbered as R391 numbers modules -/

/-- A command has one answer. -/
theorem gives_and {i : Instr} {s : State} {P Q : Dev → Prop} (h : Gives i s P) (k : Gives i s Q) : ∃ t, P t ∧ Q t := by
  obtain ⟨t, ht, -, hP⟩ := h
  obtain ⟨u, hu, -, hQ⟩ := k
  obtain rfl := Host.Outcome.next.inj (ht.symm.trans hu)
  exact ⟨t.dev, hP, hQ⟩

/-- The sixteen words of each peer map lie below the registers of the ports. -/
theorem clearOfMaps_of_modules {f : Field} {d : Dev} (h : ∀ q ∈ d.fab.peers, q.module_ < 1024) (hf : 2103296 ≤ f.key) :
    ClearOfMaps f d := by
  intro q hq
  have := h q hq
  simp only [Field.key, Reg.FAB_SUSPECT_MAP, Reg.FAB_LOST_MAP] at hf ⊢
  omega

theorem portControl_plain {p : Nat} (hp : p < 16) : ∀ f ∈ [Reg.PORT_EN p, Reg.KEY_SWITCH_AT p],
    follows f = false ∧ 2103296 ≤ f.key := by
  have all : ∀ p < 16, ∀ f ∈ [Reg.PORT_EN p, Reg.KEY_SWITCH_AT p], follows f = false ∧ 2103296 ≤ f.key := by decide
  exact all p hp

/-- A port that is disabled and stays so reads as disabled, when the peers' numbers are below 1024 (R391, R436). -/
theorem portEnWrite_disabled {s : State} {p : Nat} (hp : p < 16) (hn : ∀ q ∈ s.dev.fab.peers, q.module_ < 1024) {via : Via}
    {word : Nat} (hm : mayWrite s.dev via 0x42 = true) (hw : word % 2 = 0) (h0 : s.dev.get (Reg.PORT_EN p) = 0) :
    Gives (.portEnWrite via p word) s fun t => t.get (Reg.PORT_EN p) = word % 2 := by
  obtain ⟨plain, place⟩ := portControl_plain hp (Reg.PORT_EN p) (List.mem_cons_self ..)
  have apart : (Reg.PORT_EN p).key ≠ (Reg.KEY_SLOT p).key ∧ (Reg.PORT_EN p).key ≠ (Reg.KEY_NEXT p).key := by
    simp only [Field.key, Reg.PORT_EN, Reg.KEY_SLOT, Reg.KEY_NEXT]; omega
  have stays : portEnWrite p word s.dev = ((s.dev.set (Reg.PORT_EN p) (word % 2)).set (Reg.KEY_SLOT p) (bitsOf word 8 4)).set
      (Reg.KEY_NEXT p) (bitsOf word 12 4) := by
    rw [portEnWrite, if_neg (Nat.not_le_of_lt hp)]
    exact (if_pos hw).trans (if_pos h0)
  refine gives_of_regGate (f := portRow p (portEnWrite p word)) rfl (fun hn => absurd hm (by simp [hn])) fun _ => ?_
  rw [portRow, if_pos hp, stays, get_end _ plain]
  · rw [get_set_other _ _ apart.2, get_set_other _ _ apart.1, get_set_same]
    exact Nat.mod_mod _ _
  · exact clearOfMaps_of_modules hn place

/-- After a key switch none is armed, when the peers' numbers are below 1024 (R391, R448). -/
theorem keySwitch_disarms {s : State} {p : Nat} (hp : p < 16) (hn : ∀ q ∈ s.dev.fab.peers, q.module_ < 1024)
    (hat : s.dev.get (Reg.KEY_SWITCH_AT p) ≠ 0) (hdue : s.dev.get (Reg.KEY_SWITCH_AT p) ≤ s.dev.now)
    (hpast : passedBy s.dev (s.dev.get (Reg.KEY_SWITCH_AT p)) = false) :
    Gives (.keySwitch p) s fun t => t.get (Reg.KEY_SWITCH_AT p) = 0 := by
  obtain ⟨plain, place⟩ := portControl_plain hp (Reg.KEY_SWITCH_AT p) (by simp)
  refine gives_of_portRow rfl hp ?_
  rw [keySwitch, if_pos ⟨hp, hat, hdue, by simp [hpast]⟩, get_end _ plain]
  · exact get_set_same _ _ _
  · exact clearOfMaps_of_modules hn place

/-! ### A peer beyond the map -/

/-- The device after reset, its pages open, at 5 ns with a switch of port 0's key armed for 5 ns, and with a PRESENT peer of
number `m` that no port reaches. -/
def strayPeer (m : Nat) : State :=
  { State.reset with dev := (({ Dev.reset with
      fab := { FabSt.reset with peers := [⟨m, .present, 0, 0⟩] }
      boot := { BootSt.reset with hbmTrained := true } } : Dev).set Reg.TIME_NOW_NS 5).set (Reg.KEY_SWITCH_AT 0) 5 }

/-- Word 1024 of the map of SUSPECT peers is where port 0's PORT_EN stands: peer 65536 becomes SUSPECT, and PORT_EN reads 1 after
a write of 0. -/
theorem strayPeer_portEn : Gives (.portEnWrite .sideband 0 0) (strayPeer 65536) fun t => t.get (Reg.PORT_EN 0) = 1 := by
  refine gives_of_run (f := regGate .sideband 0x42 (portRow 0 (portEnWrite 0 0))) rfl ?_
  rw [get_settle _ _ (by decide)]
  decide

/-- Word 1026 is where port 0's KEY_SWITCH_AT stands: peer 65664 becomes SUSPECT, and a switch is armed for 1 ns after the key has
switched. -/
theorem strayPeer_keySwitchAt : Gives (.keySwitch 0) (strayPeer 65664) fun t => t.get (Reg.KEY_SWITCH_AT 0) = 1 := by
  refine gives_of_run (f := portRow 0 (keySwitch 0)) rfl ?_
  rw [get_settle _ _ (by decide)]
  decide

/-- With the last number of R391 the port reads as disabled, and no switch stays armed. -/
theorem lastPeer_kept : (Gives (.portEnWrite .sideband 0 0) (strayPeer 1023) fun t => t.get (Reg.PORT_EN 0) = 0)
    ∧ Gives (.keySwitch 0) (strayPeer 1023) fun t => t.get (Reg.KEY_SWITCH_AT 0) = 0 :=
  ⟨portEnWrite_disabled (by decide) (by decide) (by decide) (by decide) (by decide),
    keySwitch_disarms (by decide) (by decide) (by decide) (by decide) (by decide)⟩

/-- Refutes O40: it lacks the premise that the peers' numbers are below 1024 (R391), under which `portEnWrite_disabled` holds.
Peer 65536 of `strayPeer` writes its bit of the map over port 0's PORT_EN, which reads 1 after a write of 0. -/
theorem not_portStates : ¬ Obligations.PortStates := by
  intro h
  obtain ⟨writes, -⟩ := h (strayPeer 65536) 0 (by decide) rfl
  obtain ⟨-, taken⟩ := writes .sideband 0
  obtain ⟨field, -⟩ := taken (by decide)
  obtain ⟨t, one, zero, -⟩ := gives_and strayPeer_portEn field
  rw [one] at zero
  exact absurd zero (by decide)

/-- Refutes O42: it lacks the premise that the peers' numbers are below 1024 (R391), under which `keySwitch_disarms` holds.
Peer 65664 of `strayPeer` writes its bit of the map over port 0's KEY_SWITCH_AT, which reads 1 once the key has switched. -/
theorem not_lanesKeysGates : ¬ Obligations.LanesKeysGates := by
  intro h
  obtain ⟨-, -, -, -, -, -, keys, -⟩ := h (strayPeer 65664) 0 (by decide) rfl
  obtain ⟨switches, -⟩ := keys
  obtain ⟨t, one, -, zero, -⟩ := gives_and strayPeer_keySwitchAt (switches (by decide) (by decide) (by decide))
  rw [one] at zero
  exact absurd zero (by decide)

end Sys2Proof.Machine
end
